-- ==== Sys2Proof/Word.lean ====
section
/-!
DEFINITION. The sets of the ZC16 that travel on its ports as masks, each with the lowest index in the least
significant position (R1, R150, R172), and the byte of the two ports.
-/

namespace Sys2Proof

/-- One character of the text port, or one byte of the two-wire port (R156, R160). -/
abbrev Byte := BitVec 8

/-- A set of days of the week, day 0 (Monday) in the least significant position (R1). -/
abbrev DaySet := BitVec 7

/-- A subset of zones 0 to 15 (R172). -/
abbrev ZoneSet := BitVec 16

/-- A subset of valve channels V0 to V15 (R172). -/
abbrev ChannelSet := BitVec 16

/-- A subset of banks P0 to P3 (R172). -/
abbrev BankSet := BitVec 4

/-- A subset of auxiliary lines A0 to A7 (R150). -/
abbrev LineSet := BitVec 8

/-- A set of notice kinds, with the bits of the kind table (R172). -/
abbrev KindSet := BitVec 16

end Sys2Proof
end

