-- ==== Sys2Proof/Syntax.lean ====
section
/-!
DEFINITION. The commands and events of the ZC16: one constructor for each row of spec/opcode_table.json.

A row of the command catalogue (R155) carries the port that brought it and the fields of its owning rule, in that
rule's order, as the signed integers the port hands on (R157, R165); an optional trailing field is an Option. A row
that is an event of a field line or of a timebase carries what that line or timebase shows: the input concerned, its
new level, the microseconds since the last event of a capture channel, whether a write of the store came out good. The
four rows of the bus carry the levels that its two lines go through: those of the transfer's bits, whole or in part, and
behind them those of the sign that ends it. The log entries of notes/assumptions say which of these operands the table
leaves unnamed.
-/

namespace Sys2Proof

/-- The two command ports (R155). -/
inductive Port where
  | text
  | wire
deriving DecidableEq, Repr

/-- The levels of the two-wire port's clock and data lines, as they stand on the bus; high is true (R160). -/
structure Levels where
  clock : Bool
  data : Bool
deriving DecidableEq, Repr

/-- The port that did not carry the command concerned. -/
def Port.other : Port → Port
  | .text => .wire
  | .wire => .text

/-- One constructor per row of the table of operations and events. -/
inductive Instr where
  -- power and the ports' lines
  | powerUp
  | externalReset
  | powerLoss
  | textCharacter (c : Byte) (framingError : Bool)
  | textResponseSend
  | textResponseSent
  | writeTransfer (body sign : List Levels)
  | readTransfer (body sign : List Levels)
  | repeatedStart (body sign : List Levels)
  | busError (body sign : List Levels)
  -- records of the ports
  | ident (p : Port)
  | status (p : Port)
  | zoneGet (p : Port) (zone : Int)
  -- week clock
  | clockSet (p : Port) (day minute second : Int)
  | clockGet (p : Port)
  | secondBoundary
  -- program store
  | pointAdd (p : Port) (bank list days start target : Int) (revision : Option Int)
  | pointDel (p : Port) (bank list days start : Int) (revision : Option Int)
  | listClear (p : Port) (bank list : Int) (revision : Option Int)
  | pointGet (p : Port) (bank list index : Int)
  | bankGet (p : Port) (bank : Int)
  | bankCopy (p : Port) (source destination : Int) (revision : Option Int)
  | bankSelect (p : Port) (bank : Int)
  | bankTimed (p : Port) (bank days endMinute : Int)
  | bankCancel (p : Port)
  | bankSave (p : Port) (bank : Int)
  | bankLoad (p : Port) (bank : Int)
  -- override table
  | ovrSet (p : Port) (zone setpoint kind : Int) (endDay endMinute : Option Int)
  | ovrHold (p : Port) (zone : Int) (setpoint : Option Int)
  | ovrRelease (p : Port) (zone : Int)
  | ovrList (p : Port) (position : Option Int)
  -- capture unit
  | tempReport (p : Port) (zone value : Int)
  | captureGet (p : Port) (channel : Int)
  | rawInputChange (ch : Fin 18) (level : Bool) (elapsed : Nat)
  | acceptedEdge (ch : Fin 18) (elapsed : Nat)
  | timeout (ch : Fin 18)
  | captureSecond
  | windowExpiry
  -- zone regulator
  | regGet (p : Port) (zone : Int)
  | pass
  -- valve driver
  | valveClear (p : Port) (channel : Int)
  | valveGet (p : Port) (channel : Int)
  | valveUpdate
  | confirmTimeout (ch : Fin 16)
  | endSwitchEdge (ch : Fin 16) (closed : Bool)
  | cycleStart (ch : Fin 16)
  | driveLineOff (ch : Fin 16)
  -- firing controller
  | inhibit (p : Port) (value : Int)
  | lockoutClear (p : Port)
  | dhwBoost (p : Port) (minutes : Int)
  | flameEdge (asserted : Bool)
  | boilerFaultEdge (asserted : Bool)
  | interlockEdge (closed : Bool)
  | hotWaterRequestEdge (asserted : Bool)
  | minOnExpiry
  | minOffExpiry
  | overrunExpiry
  | pathWaitExpiry
  | flameWaitExpiry
  | faultPersistenceExpiry
  | timedCallExpiry
  | priorityExpiry
  | diverterOpen
  -- link matrix
  | lineSet (p : Port) (lines : Int)
  | lineClear (p : Port) (lines : Int)
  | lineToggle (p : Port) (lines : Int)
  | lineGet (p : Port)
  | linkGet (p : Port) (channel : Int)
  -- notice unit
  | noticeRead (p : Port)
  | noticeMask (p : Port) (mask : Int)
  -- settings store
  | paramSet (p : Port) (group index field value : Int)
  | paramGet (p : Port) (group index field : Int)
  | configSave (p : Port)
  | saveCompletion (good : Bool)
  | softReset (p : Port)
deriving DecidableEq, Repr

end Sys2Proof
end

