-- ==== Sys2Proof/Decode.lean ====
section
/-!
DEFINITION. The command that a word spells by the bits of spec/opcode_table.json. The table gives no row any bits, so no
word of the table's numbering spells a command (log entry 9). The two-wire port's frames and the text port's lines are
decoded in Machine/Ports.lean, by the rows that carry them.
-/

namespace Sys2Proof

/-- The command of a word of `nbits` bits: none, since no row of the table has bits. -/
def decodeTableWord (_nbits _w : Nat) : Option Instr := none

end Sys2Proof
end

