-- ==== Sys2Proof/Machine/Table.lean ====
section
/-!
DEFINITION. A fixed family of like records, one for each index below n: the sixteen zones, the eighteen capture
channels, the four banks, and so on. It is plain data (a list and the proof of its length), so two families can be
compared and a family written out; it is read and written through `get`, `set` and `ofFn` alone.
-/

namespace Sys2Proof.Machine

/-- n records of type α, numbered from 0. -/
structure Tab (n : Nat) (α : Type) where
  list : List α
  size : list.length = n
deriving DecidableEq, Repr

/-- The record with index i. -/
def Tab.get {n : Nat} {α : Type} (t : Tab n α) (i : Fin n) : α :=
  t.list[i.val]'(by rw [t.size]; exact i.isLt)

/-- The family whose record i is f i. -/
def Tab.ofFn {n : Nat} {α : Type} (f : Fin n → α) : Tab n α :=
  ⟨(List.finRange n).map f, by simp⟩

/-- The family with record i replaced. -/
def Tab.set {n : Nat} {α : Type} (t : Tab n α) (i : Fin n) (v : α) : Tab n α :=
  ⟨t.list.set i.val v, by simp [t.size]⟩

/-- The family with record i changed by f. -/
def Tab.modify {n : Nat} {α : Type} (t : Tab n α) (i : Fin n) (f : α → α) : Tab n α :=
  t.set i (f (t.get i))

/-- The family whose every record is v. -/
def Tab.all {n : Nat} {α : Type} (v : α) : Tab n α :=
  Tab.ofFn fun _ => v

end Sys2Proof.Machine
end

