-- ==== Sys2Proof/Machine/Records.lean ====
section
/-!
DEFINITION. The records the twelve blocks own, each with the fields its chapter gives it. Everything is plain data.
-/

namespace Sys2Proof.Machine

/-! ## The week clock -/

/-- A day and a minute of the week: the current time, an override's end, a time stamp (R12). -/
structure WeekTime where
  day : Nat
  minute : Nat
deriving DecidableEq, Repr

/-- The clock record (R4). `phase` is the internal second phase in microseconds, absent while it is not running. -/
structure Clock where
  valid : Bool
  day : Nat
  minute : Nat
  second : Nat
  origin : Option Port
  phase : Option Nat
deriving DecidableEq, Repr

/-! ## The program store -/

/-- A switch point's target (R15): OFF or a temperature on a zone list, OFF or ON on list 16. -/
inductive Target where
  | off
  | on
  | temp (c : Int)
deriving DecidableEq, Repr

/-- A switch point (R15). -/
structure SwitchPoint where
  days : DaySet
  start : Nat
  target : Target
deriving DecidableEq, Repr

/-- The seventeen lists of a bank; list 16 is the hot-water list (R14). -/
abbrev Lists := Tab 17 (List SwitchPoint)

/-- A RAM bank (R14). Its saving marker is the store's operation record (R177). -/
structure Bank where
  lists : Lists
  revision : Nat
  dirty : Bool
deriving DecidableEq, Repr

/-- An effective entry: the switch point in force and its occurrence day (R17). -/
structure Entry where
  point : SwitchPoint
  day : Nat
deriving DecidableEq, Repr

/-- The timed-program record (R31). -/
structure Timed where
  bank : Fin 4
  returnBank : Fin 4
  days : Nat
  endMinute : Nat
deriving DecidableEq, Repr

/-- The program store (R14). -/
structure Program where
  banks : Tab 4 Bank
  active : Fin 4
  timed : Option Timed
  remembered : Tab 17 (Option Entry)
deriving DecidableEq, Repr

/-! ## The override table -/

/-- The kind of a slot; an UNTIL slot carries its end time and minutes remaining (R39). -/
inductive Kind where
  | next
  | untilTime (finish : WeekTime) (remaining : Nat)
  | hold
deriving DecidableEq, Repr

/-- One override slot (R39). A setpoint of `none` is OFF. -/
structure Slot where
  zone : Fin 16
  setpoint : Option Int
  kind : Kind
  origin : Port
  created : Option WeekTime
deriving DecidableEq, Repr

/-- The override table in LRU order, top first (R40), and the effective setpoints it holds (R54). -/
structure Overrides where
  slots : List Slot
  effective : Tab 16 (Option Int)
deriving DecidableEq, Repr

/-! ## The capture unit -/

/-- The status of a capture channel (R58, R66). -/
inductive ChannelStatus where
  | never
  | valid
  | held
  | noSignal
deriving DecidableEq, Repr

/-- A capture channel's running state (R58), the raw level of its input, and the microseconds for which that level has
stood against the filtered level (R59); HIGH is true, TIMING is `timing`. -/
structure Channel where
  raw : Bool
  held : Nat
  filtered : Bool
  timing : Bool
  timer : Nat
  sum : Nat
  count : Nat
  rejects : Nat
  status : ChannelStatus
  last : Option Int
  run : Nat
  lastCount : Nat
  lastRejects : Nat
deriving DecidableEq, Repr

/-- A remote report (R68). -/
structure Report where
  value : Int
  age : Nat
deriving DecidableEq, Repr

/-- Zone temperature status and flow status (R71, R73). -/
inductive TempStatus where
  | invalid
  | valid
  | held
deriving DecidableEq, Repr

/-- The source a zone's temperature was taken from (R70). -/
inductive TempSource where
  | absent
  | channel
  | remote
deriving DecidableEq, Repr

/-- A zone's part of the publication (R73). -/
structure ZoneTemp where
  temp : Option Int
  status : TempStatus
  source : TempSource
deriving DecidableEq, Repr

/-- The publication (R73). -/
structure Publication where
  zones : Tab 16 ZoneTemp
  flow : Option Int
  flowStatus : TempStatus
deriving DecidableEq, Repr

/-- The capture unit: channels, remote reports, lost marks (R72), capture seconds since the last window expiry was due
(R64), and the last publication. -/
structure Capture where
  channels : Tab 18 Channel
  reports : Tab 16 (Option Report)
  lost : ZoneSet
  seconds : Nat
  publication : Publication
deriving DecidableEq, Repr

/-! ## The zone regulator -/

/-- How a zone was computed at the last pass (R78). -/
inductive PassOutcome where
  | disabled
  | fallback
  | regulated
deriving DecidableEq, Repr

/-- A zone's regulator record (R78); the latch and the calling field are SET and YES when true. -/
structure ZoneRecord where
  integral : Int
  demand : Int
  delivered : Int
  frost : Bool
  calling : Bool
  outcome : PassOutcome
  setpointUsed : Option Int
  tempUsed : Option Int
  statusUsed : TempStatus
  lastError : Int
  lastP : Int
  lastIncrement : Int
deriving DecidableEq, Repr

/-- The zone regulator (R78). -/
structure Regulator where
  zones : Tab 16 ZoneRecord
  timer : Nat
  priorityInForce : Bool
  passCount : Nat
deriving DecidableEq, Repr

/-- The demand update (R94): delivered demands and the calling zones. -/
structure Demand where
  delivered : Tab 16 Int
  calling : ZoneSet
deriving DecidableEq, Repr

/-! ## The valve driver -/

/-- The states of a valve channel (R99). -/
inductive ValveState where
  | closed
  | opening
  | opened
  | closing
  | fault
deriving DecidableEq, Repr

/-- A valve channel's running state (R99). `endSwitch` is true for CLOSED, `running` for a RUNNING cycle. -/
structure ValveChannel where
  demandDuty : Nat
  hold : Bool
  outputDuty : Nat
  running : Bool
  cycleTime : Nat
  appliedDuty : Nat
  drive : Bool
  position : Nat
  state : ValveState
  confirmTimer : Option Nat
  endSwitch : Bool
deriving DecidableEq, Repr

/-- The flow-path report (R111). -/
structure PathReport where
  path : ChannelSet
  ready : ZoneSet
deriving DecidableEq, Repr

/-- The valve driver: channels, copy of the last demand update, report last handed on, latest hold set (R99, R110). -/
structure Valves where
  channels : Tab 16 ValveChannel
  demand : Demand
  report : PathReport
  latestHold : ChannelSet
deriving DecidableEq, Repr

/-! ## The firing controller -/

/-- The firing states (R116). -/
inductive FiringState where
  | idle
  | waitPath
  | blocked
  | firing
  | overrun
  | lockout
deriving DecidableEq, Repr

/-- The lockout record (R134): the reason set, the entry time and the peak flow temperature. -/
structure Lockout where
  highLimit : Bool
  boilerFault : Bool
  entry : Option WeekTime
  peak : Option Int
deriving DecidableEq, Repr

/-- A hold set: valve channels and the diverter (R129). -/
structure HoldSet where
  channels : ChannelSet
  diverter : Bool
deriving DecidableEq, Repr

/-- The firing controller's record (R116) with its output lines. A timer that is stopped is `none`; `minOn`, `minOff`,
`overrun` and `timedCall` count the time left, the other timers the time passed. `dhwPath` says that the diverter has
stood ON for its open time since it last turned ON (R139). -/
structure Firing where
  state : FiringState
  burner : Bool
  pump : Bool
  diverter : Bool
  minOn : Option Nat
  minOff : Option Nat
  overrun : Option Nat
  pathWait : Option Nat
  flameWait : Option Nat
  faultTimer : Option Nat
  heating : Option Int
  ceiling : Option Int
  flowTarget : Option Int
  code : Int
  lockout : Option Lockout
  inhibitText : Bool
  inhibitWire : Bool
  call : Bool
  timedCall : Option Nat
  priority : Option Nat
  diverterOn : Nat
  dhwPath : Bool
  hold : Option HoldSet
  demand : Demand
  report : PathReport
  flow : Option Int
  flowStatus : TempStatus
  schedule : Bool
deriving DecidableEq, Repr

/-- The levels of the firing controller's four input lines (R116); true is asserted, or closed for the interlock. -/
structure Inputs where
  flame : Bool
  fault : Bool
  interlock : Bool
  request : Bool
deriving DecidableEq, Repr

/-! ## The link matrix -/

/-- The kinds of source event, in the order of their codes (R144). -/
inductive SourceKind where
  | zoneCallOn
  | zoneCallOff
  | switchCross
  | sensorLost
  | frostOn
  | frostOff
  | burnerOn
  | burnerOff
  | pumpOn
  | pumpOff
  | lockoutOn
  | lockoutOff
  | dhwOn
  | dhwOff
  | bankChange
  | valveFault
deriving DecidableEq, Repr

/-- A source event (R144). The parameter is not looked at for a kind that has none. -/
structure SourceEvent where
  kind : SourceKind
  parameter : Fin 16
deriving DecidableEq, Repr

/-- The blocks that raise source events (R144). -/
inductive SourceBlock where
  | regulator
  | store
  | capture
  | controller
  | driver
deriving DecidableEq, Repr

/-- A binding entry (R146). -/
inductive Binding where
  | nothing
  | set
  | clear
  | toggle
deriving DecidableEq, Repr

/-- The link matrix's running state: line states and fire counts (R145, R146). -/
structure Links where
  lines : LineSet
  counts : Tab 8 Nat
deriving DecidableEq, Repr

/-! ## Settings -/

/-- A zone's source mode (R69). -/
inductive SourceMode where
  | localOnly
  | remote
  | remotePreferred
deriving DecidableEq, Repr

/-- How a valve channel decides that the valve is open (R99). -/
inductive Confirm where
  | timer
  | switch
deriving DecidableEq, Repr

/-- The hot-water modes (R117, R137). -/
inductive DhwMode where
  | off
  | follow
  | pulse
  | gate
deriving DecidableEq, Repr

/-- Zone settings (R69, R79, R180 group 1). `sensor` of `none` is NONE. -/
structure ZoneSettings where
  enabled : Bool
  base : Int
  frost : Int
  band : Int
  integralTime : Int
  fallback : Int
  sensor : Option (Fin 18)
  mode : SourceMode
  staleness : Nat
deriving DecidableEq, Repr

/-- Capture channel settings (R58, R180 group 2). `falling` is the edge setting. -/
structure ChannelSettings where
  falling : Bool
  filter : Nat
  offset : Int
deriving DecidableEq, Repr

/-- Valve channel settings (R99, R180 group 3). `zone` of `none` is NONE. -/
structure ValveSettings where
  zone : Option (Fin 16)
  minDuty : Nat
  maxDuty : Nat
  openTime : Nat
  closeTime : Nat
  confirm : Confirm
deriving DecidableEq, Repr

/-- Firing settings (R117, R180 group 4). -/
structure FiringSettings where
  minOn : Nat
  minOff : Nat
  overrun : Nat
  highLimit : Int
  fmin : Int
  fmax : Int
  bypass : Bool
  fallbackChannel : Fin 16
  flowChannel : Fin 18
deriving DecidableEq, Repr

/-- Hot-water settings (R117, R180 group 5). `absolute` is the priority setting. -/
structure HotWaterSettings where
  mode : DhwMode
  target : Int
  pulse : Nat
  absolute : Bool
  maxPriority : Nat
  openTime : Nat
deriving DecidableEq, Repr

/-- Event channel settings (R145, R180 group 6). `parameter` of `none` is ANY. -/
structure EventSettings where
  enabled : Bool
  kind : SourceKind
  parameter : Option (Fin 16)
deriving DecidableEq, Repr

/-- The configuration record (R180). `linked` is a line's mode. -/
structure Settings where
  wireAddress : Nat
  startupBank : Fin 4
  zones : Tab 16 ZoneSettings
  capture : Tab 18 ChannelSettings
  valves : Tab 16 ValveSettings
  firing : FiringSettings
  hotWater : HotWaterSettings
  events : Tab 8 EventSettings
  bindings : Tab 8 (Tab 8 Binding)
  linked : Tab 8 Bool
deriving DecidableEq, Repr

/-! ## The notice unit -/

/-- A notice with the scope its kind carries (R172). -/
inductive Notice where
  | clockChanged
  | bankChanged
  | scheduleEdited
  | overrideChanged (zones : ZoneSet)
  | overrideEnded (zones : ZoneSet)
  | zoneSensor (zones : ZoneSet)
  | frost (zones : ZoneSet)
  | valveFault (channels : ChannelSet)
  | lockout
  | noPath (zones : ZoneSet)
  | noFlame
  | saveDone
  | saveFail
  | configLost
  | bankLost (banks : BankSet)
  | portOverrun
deriving DecidableEq, Repr

/-- A port's pending record with one set for each scoped kind (R173), and the port's mask (R174). -/
structure PortNotices where
  kinds : KindSet
  overrideChanged : ZoneSet
  overrideEnded : ZoneSet
  zoneSensor : ZoneSet
  frost : ZoneSet
  noPath : ZoneSet
  valveFault : ChannelSet
  bankLost : BankSet
  mask : KindSet
deriving DecidableEq, Repr

/-- The notice unit: one record for each port (R173). -/
structure Notices where
  text : PortNotices
  wire : PortNotices
deriving DecidableEq, Repr

/-! ## The settings store -/

/-- A stored object's content, and whether its checksum matches (R177). -/
structure Stored (α : Type) where
  content : α
  good : Bool
deriving DecidableEq, Repr

/-- The object being written with its snapshot (R177, R178). -/
inductive SaveObject where
  | config (snapshot : Settings)
  | bank (b : Fin 4) (snapshot : Lists)
deriving DecidableEq, Repr

/-- A save in flight (R177). -/
structure Operation where
  object : SaveObject
  port : Port
deriving DecidableEq, Repr

/-- The settings store (R177); an `operation` of `none` is the idle record. -/
structure Store where
  config : Stored Settings
  banks : Tab 4 (Stored Lists)
  operation : Option Operation
deriving DecidableEq, Repr

/-! ## Responses and the two ports -/

/-- The error words (R166). -/
inductive ErrorWord where
  | range
  | busy
  | full
  | notFound
  | duplicate
  | stale
  | clock
  | notReady
  | corrupt
  | unknown
  | length
  | badForm
  | tooLong
deriving DecidableEq, Repr

/-- A field of a response: one word or two words on the two-wire port, one integer on the text port (R158, R165). -/
inductive Field where
  | word (v : Int)
  | wide (v : Int)
deriving DecidableEq, Repr

/-- What a port returns for one command (R158). -/
inductive Response where
  | ok (fields : List Field)
  | er (w : ErrorWord)
deriving DecidableEq, Repr

/-- A place of the response queue: its command is with its block, its response is present, or is being sent (R159). -/
inductive Place where
  | waiting (c : Instr)
  | ready (r : Response)
  | sending (r : Response)
deriving DecidableEq, Repr

/-- The text port (R156, R159). `transmitting` is the response line on the transmit line, `[]` when it is idle. -/
structure TextPort where
  buffer : List Byte
  overlong : Bool
  badCharacter : Bool
  places : List Place
  transmitting : List Byte
deriving DecidableEq, Repr

/-- The response record (R164), or in progress with the code of the pending command (R163). -/
inductive WireRecord where
  | statusRecord
  | inProgress (code : Byte) (c : Instr)
  | judged (code : Byte) (r : Response)
deriving DecidableEq, Repr

/-- What the two-wire port has put on the bus since the last START: its answer to the address byte, its answers to the
data bytes of a write, and the bytes it returned in a read (R160 to R164); true is an acknowledge. -/
structure Transfer where
  addressAck : Bool
  acks : List Bool
  bytes : List Byte
deriving DecidableEq, Repr

/-- What a transfer under way is to the port (R161): not yet addressed, a write or a read that it takes part in, or a
transfer that it takes no part in. A read returns the record as it stood at its address byte (R164). -/
inductive Role where
  | unaddressed
  | write
  | read (record : List Byte)
  | absent
deriving DecidableEq, Repr

/-- A transfer under way (R160): the port's role in it, and the bits carried of the byte under way. -/
structure Carried where
  role : Role
  bits : List Bool
deriving DecidableEq, Repr

/-- The bus as the port sees it (R160): the levels of its two lines, whether a START or a STOP has shown since the clock
line rose, and the transfer under way. -/
structure Bus where
  clock : Bool
  data : Bool
  marked : Bool
  carried : Option Carried
deriving DecidableEq, Repr

/-- The two-wire port (R160 to R164). -/
structure WirePort where
  bus : Bus
  buffer : List Byte
  overlong : Bool
  record : WireRecord
  address : Nat
  transfer : Transfer
deriving DecidableEq, Repr

/-- A command handed to its block and not yet taken by it; it is no longer live when a soft reset has cleared the port
that waits for its response (R171). -/
structure Handed where
  command : Instr
  live : Bool
deriving DecidableEq, Repr

/-! ## Orders the manual leaves open -/

/-- In which order the demand update and the report it causes are taken (R118, R129). -/
inductive PassOrder where
  | controllerFirst
  | driverFirst
  | reportFirst
deriving DecidableEq, Repr, Inhabited

/-- One choice of everything that the manual leaves open inside one step. It is the MODEL's own record, not the spec's:
`indices` is the order in which one block raises several events of one step whose order its rule does not give, `turns`
the turns in which the matrix takes the events of blocks that act independently (R149), `driverFirst` and `matrixAt` the
orders of a soft reset (R115, R143, R154), `onLine` the place in a response line of the character on the line at a soft
reset (R171), `saved` whether the store's write comes out good (R178). -/
structure Order where
  pass : PassOrder
  turns : List Nat
  indices : List (Fin 16)
  driverFirst : Bool
  matrixAt : Nat
  onLine : Nat
  saved : Bool
deriving DecidableEq, Repr, Inhabited

/-- Where the orders of the next steps come from (log entry 4): the ones that the state names, first come first, and behind
them the free value, drawn afresh for each step by its number. -/
structure Orders where
  chosen : List Order
  drawn : Nat
deriving DecidableEq, Repr

end Sys2Proof.Machine
end

