-- ==== Sys2Proof/Config.lean ====
section
/-!
DEFINITION. The quantities the manual fixes for every part: sizes, ranges and the constants of the arithmetic chapters.
No rule of the spec leaves a VALUE open. What it leaves open is the ORDER of events inside one step, and that order is the
one free value here.
-/

namespace Sys2Proof.Config

/-- Family code returned by IDENT (R169). -/
def familyCode : Int := 75

/-- Part number returned by IDENT (R169). -/
def partNumber : Int := 16

/-- Design revision returned by IDENT (R169). -/
def designRevision : Int := 1

/-- Minutes of one day (Conventions, time of day). -/
def minutesPerDay : Nat := 1440

/-- Minutes of the ring of the week (R2). -/
def minutesPerWeek : Nat := 10080

/-- The farthest jump that a clock set is counted forward (R53). -/
def halfWeek : Nat := 5040

/-- Switch points a bank's pool holds (R14). -/
def poolSize : Nat := 256

/-- Slots of the override table (R39). -/
def slotCount : Nat := 8

/-- Lowest and highest temperature in 0.01 °C units (Conventions). -/
def tempMin : Int := -4000
def tempMax : Int := 12500

/-- Lowest and highest override, schedule and base setpoint (R15, R18, R41). -/
def setpointMin : Int := 500
def setpointMax : Int := 3000

/-- The acceptance window of a sensor period, in microseconds (R62). -/
def periodMin : Nat := 8400
def periodMax : Nat := 15000

/-- The count at which a TIMING channel's timer times out, in microseconds (R61). -/
def timerLimit : Nat := 65535

/-- The largest window count and window rejects (R62). -/
def windowLimit : Nat := 4095

/-- The age at which a remote report's age stays (R68). -/
def ageLimit : Nat := 65535

/-- Full demand (Conventions). -/
def fullDemand : Int := 4096

/-- Largest integral, in demand units × 256 (R78). -/
def integralMax : Int := 1048576

/-- Position estimate of a valve taken to be fully open (R99). -/
def fullTravel : Nat := 60000

/-- Seconds of one drive cycle (R103). -/
def cycleSeconds : Nat := 63

/-- Updates the confirm timer waits for the end switch (R106). -/
def confirmLimit : Nat := 120

/-- Seconds of WAIT_PATH after which NO_PATH is posted (R123). -/
def pathWaitLimit : Nat := 600

/-- Seconds of FIRING without flame after which NO_FLAME is posted (R125). -/
def flameWaitLimit : Nat := 120

/-- Seconds after which an asserted boiler fault persists (R133). -/
def faultPersistence : Nat := 10

/-- Largest modulation code (R131). -/
def modulationMax : Int := 16383

/-- Characters of the text port's line buffer (R156). -/
def lineLength : Nat := 64

/-- Places of the text port's response queue (R159). -/
def queuePlaces : Nat := 4

/-- Bytes of the two-wire port's write buffer (R162). -/
def frameLength : Nat := 24

/-- The order of the n-th step that needs one, where State names none: a free value, fixed by nothing (log entry 4). -/
opaque freeOrder : Nat → Machine.Order

end Sys2Proof.Config
end

