-- ==== Sys2Proof/Machine/Defaults.lean ====
section
/-!
DEFINITION. The factory defaults of the parameter table (R180) and the values each block's records take at power-up
(R13, R38, R57, R76, R97, R114, R142, R153, R171, R176).
-/

namespace Sys2Proof.Machine

/-! ## Factory defaults -/

/-- Zone defaults (R69, R79, R180): zone z uses channel Cz. -/
def factoryZone (z : Fin 16) : ZoneSettings where
  enabled := false
  base := 2000
  frost := 500
  band := 200
  integralTime := 30
  fallback := 1024
  sensor := some ⟨z.val, by omega⟩
  mode := .localOnly
  staleness := 30

/-- Capture channel defaults (R58). -/
def factoryChannel : ChannelSettings where
  falling := false
  filter := 8
  offset := 0

/-- Valve channel defaults (R99): channel Vz serves zone z. -/
def factoryValve (v : Fin 16) : ValveSettings where
  zone := some v
  minDuty := 0
  maxDuty := 63
  openTime := 180
  closeTime := 240
  confirm := .timer

/-- Firing defaults (R117). -/
def factoryFiring : FiringSettings where
  minOn := 120
  minOff := 300
  overrun := 180
  highLimit := 8500
  fmin := 3000
  fmax := 7000
  bypass := false
  fallbackChannel := 0
  flowChannel := 17

/-- Hot-water defaults (R117). -/
def factoryHotWater : HotWaterSettings where
  mode := .off
  target := 6500
  pulse := 30
  absolute := true
  maxPriority := 60
  openTime := 30

/-- Event channel defaults (R145). -/
def factoryEvent : EventSettings where
  enabled := false
  kind := .zoneCallOn
  parameter := none

/-- The factory defaults of the whole configuration record (R180): bindings NONE, lines MASTER (R146). -/
def factorySettings : Settings where
  wireAddress := 44
  startupBank := 0
  zones := Tab.ofFn factoryZone
  capture := Tab.all factoryChannel
  valves := Tab.ofFn factoryValve
  firing := factoryFiring
  hotWater := factoryHotWater
  events := Tab.all factoryEvent
  bindings := Tab.all (Tab.all .nothing)
  linked := Tab.all false

/-- Seventeen empty lists (R177). -/
def emptyLists : Lists := Tab.all []

/-- A store that has never been written: every object good, factory defaults and empty banks (R177). -/
def unwrittenStore : Store where
  config := ⟨factorySettings, true⟩
  banks := Tab.all ⟨emptyLists, true⟩
  operation := none

/-! ## Power-up values of the blocks -/

/-- The week clock at power-up (R13). -/
def blankClock : Clock where
  valid := false
  day := 0
  minute := 0
  second := 0
  origin := none
  phase := none

/-- A bank loaded from its stored copy (R38, R181): a corrupt copy gives an empty bank with its dirty flag SET. -/
def loadedBank (stored : Stored Lists) : Bank where
  lists := if stored.good then stored.content else emptyLists
  revision := 0
  dirty := !stored.good

/-- The program store at power-up, with the banks as loaded and the startup bank active (R38). -/
def blankProgram (stored : Tab 4 (Stored Lists)) (startup : Fin 4) : Program where
  banks := Tab.ofFn fun b => loadedBank (stored.get b)
  active := startup
  timed := none
  remembered := Tab.all none

/-- A capture channel after power-up or soft reset (R76): the filtered level is the raw level, with no edge. R76 has the
timer stopped and gives it no count; it holds 0 here (DESIGN CHOICE, log entry 28). -/
def blankChannel (raw : Bool) : Channel where
  raw := raw
  held := 0
  filtered := raw
  timing := false
  timer := 0
  sum := 0
  count := 0
  rejects := 0
  status := .never
  last := none
  run := 0
  lastCount := 0
  lastRejects := 0

/-- A zone without a temperature (R76). -/
def blankZoneTemp : ZoneTemp := ⟨none, .invalid, .absent⟩

/-- The publication until the first window expiry after power-up (R73, R76). -/
def blankPublication : Publication := ⟨Tab.all blankZoneTemp, none, .invalid⟩

/-- The capture unit at power-up, with the input lines at their present levels (R76). -/
def blankCapture (channels : Tab 18 Channel) : Capture where
  channels := Tab.ofFn fun c => blankChannel (channels.get c).raw
  reports := Tab.all none
  lost := 0
  seconds := 0
  publication := blankPublication

/-- A zone's regulator record after power-up or soft reset (R97, R98). -/
def blankZoneRecord : ZoneRecord where
  integral := 0
  demand := 0
  delivered := 0
  frost := false
  calling := false
  outcome := .disabled
  setpointUsed := none
  tempUsed := none
  statusUsed := .invalid
  lastError := 0
  lastP := 0
  lastIncrement := 0

/-- The zone regulator after power-up or soft reset (R97, R98). -/
def blankRegulator : Regulator where
  zones := Tab.all blankZoneRecord
  timer := 0
  priorityInForce := false
  passCount := 0

/-- A demand update of D 0 for every zone and no calling zones (R114, R142). -/
def blankDemand : Demand := ⟨Tab.all 0, 0⟩

/-- The empty flow-path report (R114). -/
def blankReport : PathReport := ⟨0, 0⟩

/-- A valve channel at power-up, its end switch at the level of the input (R114). -/
def blankValve (endSwitch : Bool) : ValveChannel where
  demandDuty := 0
  hold := false
  outputDuty := 0
  running := false
  cycleTime := 0
  appliedDuty := 0
  drive := false
  position := 0
  state := .closed
  confirmTimer := none
  endSwitch := endSwitch

/-- The valve driver at power-up (R114). -/
def blankValves (channels : Tab 16 ValveChannel) : Valves where
  channels := Tab.ofFn fun v => blankValve (channels.get v).endSwitch
  demand := blankDemand
  report := blankReport
  latestHold := 0

/-- A timer started at n seconds to run; a setting of 0 starts none (R124, R127). -/
def startTimer (n : Nat) : Option Nat := if n = 0 then none else some n

/-- The firing controller at power-up, given the min-off setting and the level of the boiler fault input (R142). -/
def blankFiring (minOff : Nat) (fault : Bool) : Firing where
  state := .idle
  burner := false
  pump := false
  diverter := false
  minOn := none
  minOff := startTimer minOff
  overrun := none
  pathWait := none
  flameWait := none
  faultTimer := if fault then some 0 else none
  heating := none
  ceiling := none
  flowTarget := none
  code := 0
  lockout := none
  inhibitText := false
  inhibitWire := false
  call := false
  timedCall := none
  priority := none
  diverterOn := 0
  dhwPath := false
  hold := none
  demand := blankDemand
  report := blankReport
  flow := none
  flowStatus := .invalid
  schedule := false

/-- The link matrix after power-up or soft reset: lines OFF, counts 0 (R153, R154). -/
def blankLinks : Links := ⟨0, Tab.all 0⟩

/-- A port's empty pending record under the given mask (R176). -/
def emptyNotices (mask : KindSet) : PortNotices where
  kinds := 0
  overrideChanged := 0
  overrideEnded := 0
  zoneSensor := 0
  frost := 0
  noPath := 0
  valveFault := 0
  bankLost := 0
  mask := mask

/-- The notice unit at power-up, before the loss notices: both masks hold all sixteen kinds (R176). -/
def blankNotices : Notices := ⟨emptyNotices (BitVec.allOnes 16), emptyNotices (BitVec.allOnes 16)⟩

/-- The text port at power-up (R171). -/
def blankText : TextPort where
  buffer := []
  overlong := false
  badCharacter := false
  places := []
  transmitting := []

/-- No transfer on the bus. -/
def noTransfer : Transfer := ⟨false, [], []⟩

/-- A bus with both lines high and no transfer under way (R160). -/
def freeBus : Bus := ⟨true, true, false, none⟩

/-- A transfer under way is discarded (R171); the lines have the levels they have. -/
def Bus.dropTransfer (b : Bus) : Bus := { b with carried := none }

/-- The two-wire port at power-up, on the bus as it stands and answering the given address (R161, R171). -/
def blankWire (bus : Bus) (address : Nat) : WirePort where
  bus := bus.dropTransfer
  buffer := []
  overlong := false
  record := .statusRecord
  address := address
  transfer := noTransfer

end Sys2Proof.Machine
end

