-- ==== Sys2Proof/Machine/State.lean ====
section
/-!
DEFINITION. The state of the ZC16, and the state right after reset. Plain data: one record for each block, the levels of
the input lines, the commands with their blocks, and the queue of the commands that are waiting.
-/

namespace Sys2Proof.Machine

/-- The whole part. Six fields are the MODEL's own: `powered` (POWER_LOSS and POWER_UP, log entry 2), `handed` (the
commands that a port has handed to their blocks and that these have not yet taken, log entry 3), `answered` (the response
a block last returned and the port it went to, log entry 3), `orders` (where the orders that the manual leaves open come
from, log entry 4), `raised` (the source events that the blocks have raised in a step and the matrix has not yet taken,
log entry 4) and `pending` (the queue of commands that are waiting). -/
structure State where
  powered : Bool
  clock : Clock
  program : Program
  overrides : Overrides
  capture : Capture
  regulator : Regulator
  valves : Valves
  firing : Firing
  inputs : Inputs
  links : Links
  notices : Notices
  settings : Settings
  store : Store
  text : TextPort
  wire : WirePort
  handed : List Handed
  answered : Option (Port × Response)
  orders : Orders
  raised : List SourceEvent
  pending : List Instr
deriving DecidableEq, Repr

/-- The faults a step can stop with: none. The manual gives every command and every event of the table an effect or a
refusal word of its own (R166), which is a next state, so no meaning answers with a fault: safe. -/
inductive Fault where
deriving DecidableEq, Repr

/-- The reasons a step can be refused. -/
inductive Refusal where
  /-- Raised by `exec` alone, for a row of the table that has no meaning yet; there is none. Safe: the machine stops. -/
  | notModelled (mnemonic : String)
deriving DecidableEq, Repr

/-- The part right after power-up with a store that has never been written (R177, R181): every block at its power-up
values, the factory defaults, empty banks, P0 active. The levels of the input lines are the outside world's: all low,
deasserted or open here, the two lines of the bus high (DESIGN CHOICE, log entry 1). -/
def State.reset : State where
  powered := true
  clock := blankClock
  program := blankProgram unwrittenStore.banks factorySettings.startupBank
  overrides := ⟨[], Tab.all none⟩
  capture := blankCapture (Tab.all (blankChannel false))
  regulator := blankRegulator
  valves := blankValves (Tab.all (blankValve false))
  firing := blankFiring factorySettings.firing.minOff false
  inputs := ⟨false, false, false, false⟩
  links := blankLinks
  notices := blankNotices
  settings := factorySettings
  store := unwrittenStore
  text := blankText
  wire := blankWire freeBus factorySettings.wireAddress
  handed := []
  answered := none
  orders := ⟨[], 0⟩
  raised := []
  pending := []

end Sys2Proof.Machine
end

