-- ==== Sys2Proof/Machine/Operands.lean ====
section
/-!
DEFINITION. How a command's fields are read: the arithmetic of the manual (R3), ranges and indices, switch-point and
override setpoints (R15, R41), days and minutes of the week (R2), and the sets that travel as masks (R1).
-/

namespace Sys2Proof.Machine

/-! ## Rounding and ranges -/

/-- Convergent division (R3): the exact quotient rounded to the nearest integer, an exact half to the even one. -/
def divRound (a b : Int) : Int :=
  let q := a / b
  let r := 2 * (a % b)
  if r < b then q
  else if b < r then q + 1
  else if q % 2 = 0 then q
  else q + 1

/-- "Clamped into lo..hi" (R3). -/
def clamp (lo hi v : Int) : Int := if v < lo then lo else if hi < v then hi else v

/-- "Rounded convergently to a multiple of 10" (R3). -/
def roundTen (v : Int) : Int := divRound v 10 * 10

/-- Whether a field lies in lo..hi, both included. -/
def within (lo hi v : Int) : Bool := decide (lo ≤ v) && decide (v ≤ hi)

/-- A field as the number of one of n like objects, or nothing when it is out of range. -/
def index (n : Nat) (v : Int) : Option (Fin n) :=
  if h : 0 ≤ v ∧ v < n then some ⟨v.toNat, by omega⟩ else none

/-- A yes-or-no setting as it is written: 0 is NO and any other value YES (R79, R117, R145). -/
def truth (v : Int) : Bool := v != 0

/-- A yes-or-no field as it is returned. -/
def bit (b : Bool) : Int := if b then 1 else 0

/-! ## Setpoints and targets -/

/-- A temperature target as it is stored: rounded to a multiple of 10, then clamped into 500–3000 (R15). -/
def storedSetpoint (v : Int) : Int := clamp Config.setpointMin Config.setpointMax (roundTen v)

/-- The setpoint of OVR SET and OVR HOLD: 0 is OFF, never refused (R41). -/
def setpointOf (v : Int) : Option Int := if v = 0 then none else some (storedSetpoint v)

/-- A setpoint on a port: OFF travels as 0 (R41). -/
def setpointField (sp : Option Int) : Int := sp.getD 0

/-- The hot-water list (R14). -/
def hotWaterList : Fin 17 := 16

/-- The target field of POINT ADD on a given list, or nothing when it is refused RANGE (R15). -/
def targetOf (list : Fin 17) (v : Int) : Option Target :=
  if list = hotWaterList then
    if v = 0 then some .off else if v = 1 then some .on else none
  else if v = 0 then some .off
  else some (.temp (storedSetpoint v))

/-- A target on a port (R15, R27). -/
def targetField : Target → Int
  | .off => 0
  | .on => 1
  | .temp c => c

/-- A zone target as a setpoint: OFF is `none`. ON stands on list 16 alone (R15) and is no setpoint either. -/
def Target.setpoint : Target → Option Int
  | .off => none
  | .on => none
  | .temp c => some c

/-! ## Day sets and other masks -/

/-- The set with one member. -/
def single (n : Nat) (i : Nat) : BitVec n := BitVec.ofNat n (2 ^ i)

/-- The set of the indices that satisfy p. -/
def setOf {n : Nat} (p : Fin n → Bool) : BitVec n := BitVec.ofFnLE p

/-- The members of a set, ascending. -/
def members {n : Nat} (s : BitVec n) : List (Fin n) := (List.finRange n).filter fun i => s.getLsbD i.val

/-- A set on a port (R1, R172). -/
def maskField {n : Nat} (s : BitVec n) : Int := s.toNat

/-- A day set field: empty sets and values above 127 are refused RANGE (R24, R25). -/
def daySetOf (v : Int) : Option DaySet := if within 1 127 v then some (BitVec.ofInt 7 v) else none

/-- Whether a switch point's day set holds a day. -/
def SwitchPoint.holds (p : SwitchPoint) (day : Nat) : Bool := p.days.getLsbD day

/-- Whether two day sets share a day (R16). -/
def overlap (a b : DaySet) : Bool := a &&& b != 0

/-- The lowest day of a day set (R16); 7 for the empty set, which no switch point holds. -/
def lowestDay (d : DaySet) : Nat := (((List.finRange 7).find? fun i => d.getLsbD i.val).map Fin.val).getD 7

/-! ## The ring of the week -/

/-- The minute of the week of a day and minute (R2). -/
def WeekTime.ordinal (t : WeekTime) : Nat := t.day * Config.minutesPerDay + t.minute

/-- Minutes ahead: the forward distance along the ring of the week, 0 to 10,079 (R2). -/
def minutesAhead (now t : WeekTime) : Nat :=
  (t.ordinal + Config.minutesPerWeek - now.ordinal) % Config.minutesPerWeek

/-- The distance to an UNTIL end: an end at the current minute is a full week ahead (R45). -/
def distanceToEnd (now t : WeekTime) : Nat :=
  if minutesAhead now t = 0 then Config.minutesPerWeek else minutesAhead now t

/-- The week clock's current time: absent while INVALID (R12). -/
def Clock.now (c : Clock) : Option WeekTime := if c.valid then some ⟨c.day, c.minute⟩ else none

/-! ## Fields of responses -/

/-- A one-word field. -/
def num (v : Int) : Field := .word v

/-- A one-word field that is a count. -/
def count (n : Nat) : Field := .word n

/-- A one-word yes-or-no field. -/
def flag (b : Bool) : Field := .word (bit b)

/-- The code of a port (R11, R49). -/
def portCode : Port → Int
  | .text => 1
  | .wire => 2

/-- The three words of an optional time: presence, day, minute. -/
def timeFields (t : Option WeekTime) : List Field :=
  match t with
  | none => [num 0, num 0, num 0]
  | some w => [num 1, count w.day, count w.minute]

end Sys2Proof.Machine
end

