-- ==== Sys2Proof/Machine/Flags.lean ====
section
/-!
DEFINITION. What every block reports through: the pending notices with their masks and attention lines (R172 to R174),
and the source events with what they do to the auxiliary lines (R144 to R149).
-/

namespace Sys2Proof.Machine

/-! ## Notices -/

/-- The bit of a notice's kind (R172). -/
def Notice.bit : Notice → Nat
  | .clockChanged => 0
  | .bankChanged => 1
  | .scheduleEdited => 2
  | .overrideChanged _ => 3
  | .overrideEnded _ => 4
  | .zoneSensor _ => 5
  | .frost _ => 6
  | .valveFault _ => 7
  | .lockout => 8
  | .noPath _ => 9
  | .noFlame => 10
  | .saveDone => 11
  | .saveFail => 12
  | .configLost => 13
  | .bankLost _ => 14
  | .portOverrun => 15

/-- A kind's set after a post (R173): merged into the set of a pending kind, taken as it is otherwise. -/
def mergeScope {n : Nat} (pending : Bool) (held posted : BitVec n) : BitVec n :=
  if pending then held ||| posted else posted

/-- A post to one port's record (R173). -/
def PortNotices.take (r : PortNotices) (n : Notice) : PortNotices :=
  let pending := r.kinds.getLsbD n.bit
  let r := { r with kinds := r.kinds ||| single 16 n.bit }
  match n with
  | .overrideChanged z => { r with overrideChanged := mergeScope pending r.overrideChanged z }
  | .overrideEnded z => { r with overrideEnded := mergeScope pending r.overrideEnded z }
  | .zoneSensor z => { r with zoneSensor := mergeScope pending r.zoneSensor z }
  | .frost z => { r with frost := mergeScope pending r.frost z }
  | .noPath z => { r with noPath := mergeScope pending r.noPath z }
  | .valveFault c => { r with valveFault := mergeScope pending r.valveFault c }
  | .bankLost b => { r with bankLost := mergeScope pending r.bankLost b }
  | .clockChanged | .bankChanged | .scheduleEdited | .lockout | .noFlame | .saveDone | .saveFail | .configLost
  | .portOverrun => r

/-- A port's attention line (R174): asserted while a pending kind is in the mask. -/
def PortNotices.attention (r : PortNotices) : Bool := r.kinds &&& r.mask != 0

/-- A port's record. -/
def Notices.of (u : Notices) : Port → PortNotices
  | .text => u.text
  | .wire => u.wire

/-- The notice unit with one port's record replaced. -/
def Notices.put (u : Notices) (p : Port) (r : PortNotices) : Notices :=
  match p with
  | .text => { u with text := r }
  | .wire => { u with wire := r }

/-- Post a notice to one port (R173). -/
def post (p : Port) (n : Notice) (s : State) : State :=
  { s with notices := s.notices.put p ((s.notices.of p).take n) }

/-- Post a notice to both ports, each record taking it independently (R173). -/
def postBoth (n : Notice) (s : State) : State := post .wire n (post .text n s)

/-! ## Source events -/

/-- The code of a source kind (R144). -/
def SourceKind.code : SourceKind → Nat
  | .zoneCallOn => 0
  | .zoneCallOff => 1
  | .switchCross => 2
  | .sensorLost => 3
  | .frostOn => 4
  | .frostOff => 5
  | .burnerOn => 6
  | .burnerOff => 7
  | .pumpOn => 8
  | .pumpOff => 9
  | .lockoutOn => 10
  | .lockoutOff => 11
  | .dhwOn => 12
  | .dhwOff => 13
  | .bankChange => 14
  | .valveFault => 15

/-- The kind with a given code; a value above the last code is taken as the last kind (R145). -/
def SourceKind.ofCode : Nat → SourceKind
  | 0 => .zoneCallOn
  | 1 => .zoneCallOff
  | 2 => .switchCross
  | 3 => .sensorLost
  | 4 => .frostOn
  | 5 => .frostOff
  | 6 => .burnerOn
  | 7 => .burnerOff
  | 8 => .pumpOn
  | 9 => .pumpOff
  | 10 => .lockoutOn
  | 11 => .lockoutOff
  | 12 => .dhwOn
  | 13 => .dhwOff
  | 14 => .bankChange
  | _ => .valveFault

/-- Whether a kind carries a zone or a valve channel (R144). -/
def SourceKind.hasParameter : SourceKind → Bool
  | .zoneCallOn | .zoneCallOff | .switchCross | .sensorLost | .frostOn | .frostOff | .valveFault => true
  | .burnerOn | .burnerOff | .pumpOn | .pumpOff | .lockoutOn | .lockoutOff | .dhwOn | .dhwOff | .bankChange => false

/-- Whether a source event fires a channel (R147). `parameter` is not looked at for a kind that has none. -/
def fires (e : EventSettings) (kind : SourceKind) (parameter : Fin 16) : Bool :=
  e.enabled && decide (e.kind = kind) &&
    (!kind.hasParameter || e.parameter.isNone || decide (e.parameter = some parameter))

/-- The one action that the fired channels' bindings give a line (R148). -/
def lineAction (entries : List Binding) : Binding :=
  if entries.contains .set then .set
  else if entries.contains .clear then .clear
  else if entries.contains .toggle then .toggle
  else .nothing

/-- A line's state after an action (R148). -/
def applyAction (a : Binding) (on : Bool) : Bool :=
  match a with
  | .set => true
  | .clear => false
  | .toggle => !on
  | .nothing => on

/-- A line's state after a source event (R148): a MASTER line keeps its state. -/
def lineAfter (c : Settings) (fired : List (Fin 8)) (on : Bool) (line : Fin 8) : Bool :=
  if c.linked.get line then applyAction (lineAction (fired.map fun e => (c.bindings.get e).get line)) on else on

/-- The channels a source event fires (R147). -/
def firedChannels (c : Settings) (kind : SourceKind) (parameter : Fin 16) : List (Fin 8) :=
  (List.finRange 8).filter fun e => fires (c.events.get e) kind parameter

/-- The link matrix takes one source event (R147, R148): fire counts first, then one action for each line. -/
def Links.take (l : Links) (c : Settings) (kind : SourceKind) (parameter : Fin 16) : Links :=
  let fired := firedChannels c kind parameter
  { lines := setOf fun line => lineAfter c fired (l.lines.getLsbD line.val) line
    counts := Tab.ofFn fun e =>
      if fired.contains e then (l.counts.get e + 1) % 65536 else l.counts.get e }

/-- The matrix takes one source event (R147, R148). -/
def takeEvent (e : SourceEvent) (s : State) : State :=
  { s with links := s.links.take s.settings e.kind e.parameter }

/-- The matrix takes source events whole, one after the other (R149). -/
def takeEvents (events : List SourceEvent) (s : State) : State := events.foldl (fun s e => takeEvent e s) s

/-- The events that the blocks have raised and the matrix has not yet taken. -/
def setRaised (events : List SourceEvent) (s : State) : State := { s with raised := events }

/-- Raise a source event that carries a zone or a valve channel (R144). -/
def raiseFor (kind : SourceKind) (parameter : Fin 16) (s : State) : State :=
  setRaised (s.raised ++ [⟨kind, parameter⟩]) s

/-- Raise a source event that carries no parameter. -/
def raise (kind : SourceKind) (s : State) : State := raiseFor kind 0 s

/-- Raise one event for each index, in the order given. -/
def raiseEach (kind : SourceKind) (indices : List (Fin 16)) (s : State) : State :=
  indices.foldl (fun s i => raiseFor kind i s) s

/-! ## The order in which the matrix takes the events of a step -/

/-- The block that raises events of a kind (R144). -/
def SourceKind.block : SourceKind → SourceBlock
  | .zoneCallOn | .zoneCallOff | .frostOn | .frostOff => .regulator
  | .switchCross | .bankChange => .store
  | .sensorLost => .capture
  | .burnerOn | .burnerOff | .pumpOn | .pumpOff | .lockoutOn | .lockoutOff | .dhwOn | .dhwOff => .controller
  | .valveFault => .driver

/-- The event taken when it is the turn of the block of the k-th event: the first that this block has raised. A k beyond
the events is the first block's turn. -/
def turnOf (k : Nat) (events : List SourceEvent) : Option SourceEvent :=
  (events.drop k ++ events).head?.bind fun chosen => events.find? fun e => e.kind.block = chosen.kind.block

/-- The events of a step in an order that the matrix may take them in (R149): the blocks take turns, and each block's own
events stay in the order in which it raised them. When no turn is left the events follow as they were raised. Every
order that R149 allows is given by some list of turns (log entry 4). -/
def inTurns : List Nat → List SourceEvent → List SourceEvent
  | [], events => events
  | k :: turns, events =>
    match turnOf k events with
    | none => []
    | some e => e :: inTurns turns (events.erase e)

/-- The matrix takes everything raised so far, in turns (R149). -/
def takeInTurns (turns : List Nat) (s : State) : State := setRaised [] (takeEvents (inTurns turns s.raised) s)

/-- The matrix takes everything raised so far in the order in which it was raised (R144). -/
def takeRaised (s : State) : State := takeInTurns [] s

/-! ## Several events of one block -/

/-- The members of a set in the order chosen by `first`: those that `first` names, in its order, then the others
ascending. Every order of the set is one of these (log entry 4). -/
def arranged (first : List (Fin 16)) (s : ZoneSet) : List (Fin 16) :=
  (first.dedup.filter fun i => s.getLsbD i.val) ++ (members s).filter fun i => !first.contains i

end Sys2Proof.Machine
end

