-- ==== Sys2Proof/Machine/Catalogue.lean ====
section
/-!
DEFINITION. The command catalogue (R155): each command's keyword, two-wire code, and the command that a code and a list
of fields stand for; a number of fields outside the command's range stands for none.
-/

namespace Sys2Proof.Machine

/-- The command with a given code and given fields, carried by port p (R155): `none` when the code is not in the
catalogue or the number of fields is outside the command's range. -/
def build (p : Port) (code : Nat) (fields : List Int) : Option Instr :=
  match code, fields with
  | 0x01, [] => some (.ident p)
  | 0x02, [] => some (.status p)
  | 0x03, [zone] => some (.zoneGet p zone)
  | 0x10, [day, minute, second] => some (.clockSet p day minute second)
  | 0x11, [] => some (.clockGet p)
  | 0x20, [b, l, days, start, target] => some (.pointAdd p b l days start target none)
  | 0x20, [b, l, days, start, target, rev] => some (.pointAdd p b l days start target (some rev))
  | 0x21, [b, l, days, start] => some (.pointDel p b l days start none)
  | 0x21, [b, l, days, start, rev] => some (.pointDel p b l days start (some rev))
  | 0x22, [b, l] => some (.listClear p b l none)
  | 0x22, [b, l, rev] => some (.listClear p b l (some rev))
  | 0x23, [b, l, i] => some (.pointGet p b l i)
  | 0x24, [b] => some (.bankGet p b)
  | 0x25, [src, dst] => some (.bankCopy p src dst none)
  | 0x25, [src, dst, rev] => some (.bankCopy p src dst (some rev))
  | 0x26, [b] => some (.bankSelect p b)
  | 0x27, [b, days, minute] => some (.bankTimed p b days minute)
  | 0x28, [] => some (.bankCancel p)
  | 0x29, [b] => some (.bankSave p b)
  | 0x2A, [b] => some (.bankLoad p b)
  | 0x30, [zone, sp, kind] => some (.ovrSet p zone sp kind none none)
  | 0x30, [zone, sp, kind, day] => some (.ovrSet p zone sp kind (some day) none)
  | 0x30, [zone, sp, kind, day, minute] => some (.ovrSet p zone sp kind (some day) (some minute))
  | 0x31, [zone] => some (.ovrHold p zone none)
  | 0x31, [zone, sp] => some (.ovrHold p zone (some sp))
  | 0x32, [zone] => some (.ovrRelease p zone)
  | 0x33, [] => some (.ovrList p none)
  | 0x33, [position] => some (.ovrList p (some position))
  | 0x40, [zone, value] => some (.tempReport p zone value)
  | 0x41, [channel] => some (.captureGet p channel)
  | 0x48, [zone] => some (.regGet p zone)
  | 0x50, [channel] => some (.valveClear p channel)
  | 0x51, [channel] => some (.valveGet p channel)
  | 0x60, [value] => some (.inhibit p value)
  | 0x61, [] => some (.lockoutClear p)
  | 0x62, [minutes] => some (.dhwBoost p minutes)
  | 0x70, [lines] => some (.lineSet p lines)
  | 0x71, [lines] => some (.lineClear p lines)
  | 0x72, [lines] => some (.lineToggle p lines)
  | 0x73, [] => some (.lineGet p)
  | 0x74, [channel] => some (.linkGet p channel)
  | 0x80, [] => some (.noticeRead p)
  | 0x81, [mask] => some (.noticeMask p mask)
  | 0x90, [g, i, f, v] => some (.paramSet p g i f v)
  | 0x91, [g, i, f] => some (.paramGet p g i f)
  | 0x92, [] => some (.configSave p)
  | 0x93, [] => some (.softReset p)
  | _, _ => none

/-- The codes of the catalogue (R155). Every other code, 0x00 and 0xFF included, is unknown. -/
def codes : List Nat :=
  [0x01, 0x02, 0x03, 0x10, 0x11, 0x20, 0x21, 0x22, 0x23, 0x24, 0x25, 0x26, 0x27, 0x28, 0x29, 0x2A, 0x30, 0x31, 0x32,
   0x33, 0x40, 0x41, 0x48, 0x50, 0x51, 0x60, 0x61, 0x62, 0x70, 0x71, 0x72, 0x73, 0x74, 0x80, 0x81, 0x90, 0x91, 0x92,
   0x93]

/-- How a command is spelled: its port, its code and its fields, optional trailing fields as far as they are present.
The rows of the table that are no command of the catalogue have no spelling. -/
def spelling : Instr → Option (Port × Nat × List Int)
  | .ident p => some (p, 0x01, [])
  | .status p => some (p, 0x02, [])
  | .zoneGet p zone => some (p, 0x03, [zone])
  | .clockSet p day minute second => some (p, 0x10, [day, minute, second])
  | .clockGet p => some (p, 0x11, [])
  | .pointAdd p b l days start target rev => some (p, 0x20, [b, l, days, start, target] ++ rev.toList)
  | .pointDel p b l days start rev => some (p, 0x21, [b, l, days, start] ++ rev.toList)
  | .listClear p b l rev => some (p, 0x22, [b, l] ++ rev.toList)
  | .pointGet p b l i => some (p, 0x23, [b, l, i])
  | .bankGet p b => some (p, 0x24, [b])
  | .bankCopy p src dst rev => some (p, 0x25, [src, dst] ++ rev.toList)
  | .bankSelect p b => some (p, 0x26, [b])
  | .bankTimed p b days minute => some (p, 0x27, [b, days, minute])
  | .bankCancel p => some (p, 0x28, [])
  | .bankSave p b => some (p, 0x29, [b])
  | .bankLoad p b => some (p, 0x2A, [b])
  | .ovrSet p zone sp kind day minute => some (p, 0x30, [zone, sp, kind] ++ day.toList ++ minute.toList)
  | .ovrHold p zone sp => some (p, 0x31, [zone] ++ sp.toList)
  | .ovrRelease p zone => some (p, 0x32, [zone])
  | .ovrList p position => some (p, 0x33, position.toList)
  | .tempReport p zone value => some (p, 0x40, [zone, value])
  | .captureGet p channel => some (p, 0x41, [channel])
  | .regGet p zone => some (p, 0x48, [zone])
  | .valveClear p channel => some (p, 0x50, [channel])
  | .valveGet p channel => some (p, 0x51, [channel])
  | .inhibit p value => some (p, 0x60, [value])
  | .lockoutClear p => some (p, 0x61, [])
  | .dhwBoost p minutes => some (p, 0x62, [minutes])
  | .lineSet p lines => some (p, 0x70, [lines])
  | .lineClear p lines => some (p, 0x71, [lines])
  | .lineToggle p lines => some (p, 0x72, [lines])
  | .lineGet p => some (p, 0x73, [])
  | .linkGet p channel => some (p, 0x74, [channel])
  | .noticeRead p => some (p, 0x80, [])
  | .noticeMask p mask => some (p, 0x81, [mask])
  | .paramSet p g i f v => some (p, 0x90, [g, i, f, v])
  | .paramGet p g i f => some (p, 0x91, [g, i, f])
  | .configSave p => some (p, 0x92, [])
  | .softReset p => some (p, 0x93, [])
  | .powerUp | .externalReset | .powerLoss | .textCharacter _ _ | .textResponseSend | .textResponseSent
  | .writeTransfer _ _ | .readTransfer _ _ | .repeatedStart _ _ | .busError _ _ | .secondBoundary
  | .rawInputChange _ _ _ | .acceptedEdge _ _ | .timeout _ | .captureSecond | .windowExpiry | .pass | .valveUpdate
  | .confirmTimeout _ | .endSwitchEdge _ _ | .cycleStart _ | .driveLineOff _ | .flameEdge _ | .boilerFaultEdge _
  | .interlockEdge _ | .hotWaterRequestEdge _ | .minOnExpiry | .minOffExpiry | .overrunExpiry | .pathWaitExpiry
  | .flameWaitExpiry | .faultPersistenceExpiry | .timedCallExpiry | .priorityExpiry | .diverterOpen
  | .saveCompletion _ => none

/-- The two-wire code of a command; 0 for a row that is no command of the catalogue. -/
def commandCode (c : Instr) : Byte := BitVec.ofNat 8 (((spelling c).map fun x => x.2.1).getD 0)

/-- Whether the k-th parameter (from 0) of a code's frame is read unsigned: an expected revision, or the mask of NOTICE
MASK (R165). -/
def readUnsigned (code k : Nat) : Bool :=
  (code = 0x20 && k = 5) || (code = 0x21 && k = 4) || (code = 0x22 && k = 2) || (code = 0x25 && k = 2) ||
    (code = 0x81 && k = 0)

end Sys2Proof.Machine
end

