-- ==== Sys2Proof/Machine/Ops.lean ====
section
/-!
DEFINITION. The operations every meaning is built from: when a row acts at all, how a block's response reaches the port
that waits for it (R159, R163, R170, R171), and how a step takes the orders that the manual leaves open.
-/

namespace Sys2Proof.Machine

/-! ## Responses on their way to the ports -/

/-- A refusal with an error word (R166). -/
def refuse (w : ErrorWord) : Response := .er w

/-- The first place that waits for a command's response takes it (R159). -/
def fillPlace (c : Instr) (r : Response) : List Place → List Place
  | [] => []
  | .waiting c' :: rest => if c' = c then .ready r :: rest else .waiting c' :: fillPlace c r rest
  | .ready r' :: rest => .ready r' :: fillPlace c r rest
  | .sending r' :: rest => .sending r' :: fillPlace c r rest

/-- A block's response arrives at the port of its command: a text place is filled (R159), a two-wire port in progress
with the command takes the response as its record (R163). -/
def fillPort (c : Instr) (p : Port) (r : Response) (s : State) : State :=
  match p with
  | .text => { s with text := { s.text with places := fillPlace c r s.text.places } }
  | .wire =>
    match s.wire.record with
    | .inProgress code c' =>
      if c' = c then { s with wire := { s.wire with record := .judged code r } } else s
    | .statusRecord => s
    | .judged _ _ => s

/-- The port's side of handing a command over (R159, R163): a text line takes a place if one is free; the two-wire port,
if it is not in progress already, becomes in progress with it. -/
def openPort (c : Instr) (p : Port) (s : State) : State :=
  match p with
  | .text =>
    if s.text.places.length < Config.queuePlaces then
      { s with text := { s.text with places := s.text.places ++ [.waiting c] } }
    else s
  | .wire =>
    match s.wire.record with
    | .inProgress _ _ => s
    | .statusRecord | .judged _ _ => { s with wire := { s.wire with record := .inProgress (commandCode c) c } }

/-- A block returns its response. A command that a port handed to it (`handed`) leaves the list, and its port takes the
response unless a soft reset has cleared that port meanwhile (R171). A command that the queue holds without a port's
handing is handed by its port at this moment (log entry 3). -/
def deliver (c : Instr) (p : Port) (r : Response) (s : State) : State :=
  let s := { s with answered := some (p, r) }
  match s.handed.find? fun h => h.command = c with
  | some h =>
    let s := { s with handed := s.handed.erase h }
    if h.live then fillPort c p r s else s
  | none => fillPort c p r (openPort c p s)

/-! ## When a row acts -/

/-- What a block answers with, when the matrix has taken the source events of its step. An event raised in a step is taken
in that step, so the list in State is as it was. -/
def eventsTaken (s t : State) : State := setRaised s.raised (takeRaised t)

/-- A step's state before any block has raised an event. -/
def nothingRaised (s : State) : State := setRaised [] s

/-- A block acts, and the matrix takes the source events of the step (R144). -/
def withMatrix (block : State → State) (s : State) : State := eventsTaken s (block (nothingRaised s))

/-- A command of the catalogue: its block acts and returns a response. A part without power does nothing (log
entry 2). -/
def command (c : Instr) (p : Port) (block : State → State × Response) (s : State) :
    Host.Outcome State Fault Refusal :=
  if s.powered then
    .next (deliver c p (block (nothingRaised s)).2 (eventsTaken s (block (nothingRaised s)).1))
  else .next s

/-- An event that a block takes whole. A part without power does nothing (log entry 2). -/
def event (block : State → State) (s : State) : Host.Outcome State Fault Refusal :=
  if s.powered then .next (withMatrix block s) else .next s

/-- An event of an input line: its level is the outside world's and changes with or without power; the block acts on
it while the part is powered. -/
def lineEvent (level : State → State) (block : State → State) (s : State) : Host.Outcome State Fault Refusal :=
  if s.powered then .next (withMatrix block (level s)) else .next (level s)

/-- A command that only reads: its response is formed from the state, and nothing else happens. -/
def reading (view : State → Response) (s : State) : State × Response := (s, view s)

/-! ## Orders the manual leaves open -/

/-- The order of the next step that needs one (log entry 4). -/
def Orders.next (o : Orders) : Order := o.chosen.headD (Config.freeOrder o.drawn)

/-- What is left after a step has taken its order. -/
def Orders.rest (o : Orders) : Orders := ⟨o.chosen.tail, o.drawn + 1⟩

/-- A step that takes an order (log entry 4). -/
def withOrder (f : Order → State → State) (s : State) : State := f s.orders.next { s with orders := s.orders.rest }

/-! ## The firing controller's copies and the timed fields -/

/-- The firing controller's record changed by f. -/
def modFiring (f : Firing → Firing) (s : State) : State := { s with firing := f s.firing }

end Sys2Proof.Machine
end

