-- ==== Sys2Proof/Machine/Controller.lean ====
section
/-!
DEFINITION. The firing controller's own operations: what it decides from (R118, R119), the state selection (R122), entry
to and exit from its states (R123 to R129, R134), the flow target and the modulation code (R130, R131), the high limit
and lockout (R132, R135), the hot-water call with its diverter and priority period (R137 to R140).
-/

namespace Sys2Proof.Machine

/-! ## What the controller decides from -/

/-- The zones counted in the heating call (R118): calling in the demand update and flow-ready in the report. -/
def Firing.heatingZones (f : Firing) : ZoneSet := f.demand.calling &&& f.report.ready

/-- The heating call (R118). -/
def Firing.heatingCall (f : Firing) : Bool := f.heatingZones != 0

/-- Zone demand (R118). -/
def Firing.zoneDemand (f : Firing) : Bool := f.demand.calling != 0

/-- The greatest delivered demand among the zones counted in the heating call, 0 when there are none (R118). -/
def Firing.umax (f : Firing) : Int :=
  (members f.heatingZones).foldl (fun m z => max m (f.demand.delivered.get z)) 0

/-- A call: the heating call or the hot-water call (R122). -/
def Firing.anyCall (f : Firing) : Bool := f.heatingCall || f.call

/-- A path exists (R119). -/
def Firing.pathExists (f : Firing) : Bool := f.report.path != 0 || f.dhwPath

/-- The flow temperature is VALID or HELD (R119). -/
def Firing.flowKnown (f : Firing) : Bool := f.flowStatus != .invalid

/-- What withdraws permission at once, the min-off timer apart (R119, R126). -/
def unobstructed (s : State) : Bool :=
  s.inputs.interlock && !s.firing.inhibitText && !s.firing.inhibitWire && s.firing.flowKnown

/-- Firing is permitted (R119). -/
def permitted (s : State) : Bool := unobstructed s && s.firing.minOff.isNone

/-- The state selection (R122). -/
def selection (s : State) : FiringState :=
  if s.firing.anyCall then
    if s.firing.pathExists then
      if permitted s then .firing else .blocked
    else .waitPath
  else if s.firing.zoneDemand || s.firing.call then .waitPath
  else .idle

/-! ## The output lines -/

/-- Drive the burner enable line; a change raises its event (R121). -/
def setBurner (on : Bool) (s : State) : State :=
  if s.firing.burner = on then s
  else raise (if on then .burnerOn else .burnerOff) (modFiring (fun f => { f with burner := on }) s)

/-- Drive the pump line; a change raises its event (R121). -/
def setPump (on : Bool) (s : State) : State :=
  if s.firing.pump = on then s
  else raise (if on then .pumpOn else .pumpOff) (modFiring (fun f => { f with pump := on }) s)

/-- The diverter is held (R139). -/
def Firing.diverterHeld (f : Firing) : Bool := (f.hold.map HoldSet.diverter).getD false

/-- The diverter line follows the hot-water call and the hold set (R139). When it turns ON its time starts at 0, and an
open time of 0 gives the path at once; when it turns OFF the hot-water path goes. The rules give the time no value while
the line is OFF; it holds 0 here (DESIGN CHOICE, log entry 28). -/
def setDiverter (s : State) : State :=
  let want := s.firing.call || s.firing.diverterHeld
  if s.firing.diverter = want then s
  else
    modFiring (fun f => { f with
      diverter := want
      diverterOn := 0
      dhwPath := want && decide (s.settings.hotWater.openTime = 0) }) s

/-! ## The hold set -/

/-- Whether a channel is taken into a hold set from its state (R129). -/
def ValveState.holdable : ValveState → Bool
  | .opening | .opened | .closing => true
  | .closed | .fault => false

/-- The channels that a hold set fixed now would take from their states (R129). -/
def holdableChannels (s : State) : ChannelSet := setOf fun v => (s.valves.channels.get v).state.holdable

/-- The hold set that would be fixed now (R129): the fallback overrun channel alone when nothing else is in it. -/
def holdSetNow (s : State) : HoldSet where
  channels :=
    if holdableChannels s = 0 ∧ s.firing.diverter = false then single 16 s.settings.firing.fallbackChannel.val
    else holdableChannels s
  diverter := s.firing.diverter

/-- Write a hold set to the valve driver, which applies it at its next update (R110). -/
def writeHold (channels : ChannelSet) (s : State) : State :=
  { s with valves := { s.valves with latestHold := channels } }

/-- Fix a hold set and write it (R129). -/
def fixHold (s : State) : State :=
  writeHold (holdSetNow s).channels (modFiring (fun f => { f with hold := some (holdSetNow s) }) s)

/-- Release the hold set: an empty set is written, and the diverter follows the hot-water call again (R129). -/
def releaseHold (s : State) : State :=
  setDiverter (writeHold 0 (modFiring (fun f => { f with hold := none }) s))

/-- Release the hold set if one is in force (R124, R134). -/
def releaseAnyHold (s : State) : State := if s.firing.hold.isSome then releaseHold s else s

/-! ## Flow target and modulation -/

/-- The modulation code of a flow target (R131). -/
def modulationCode (target : Int) : Int := clamp 0 Config.modulationMax (divRound ((target - 2000) * 16383) 7000)

/-- The computed target (R130). -/
def computedTarget (c : FiringSettings) (umax : Int) : Int := c.fmin + divRound (umax * (c.fmax - c.fmin)) 4096

/-- The heating target under a rate ceiling (R130). -/
def heatingUnder (c : FiringSettings) (ceiling : Option Int) (computed : Int) : Int :=
  match ceiling with
  | none => computed
  | some limit => if computed ≤ limit then computed else max limit c.fmin

/-- The flow target that the heating target and the hot-water call give (R131). -/
def flowTargetOf (target heating : Int) (call : Bool) (priority : Option Nat) : Int :=
  if call then
    match priority with
    | some _ => target
    | none => max heating target
  else heating

/-- Form the flow target and the modulation code (R131). Outside FIRING the target is absent and the code 0, and
nothing is formed. -/
def formFlow (s : State) : State :=
  if s.firing.state = .firing then
    match s.firing.heating with
    | none => s
    | some h =>
      let t := flowTargetOf s.settings.hotWater.target h s.firing.call s.firing.priority
      modFiring (fun f => { f with flowTarget := some t, code := modulationCode t }) s
  else s

/-- Form the heating target, and the flow target from it (R130, R131). -/
def formHeating (s : State) : State :=
  if s.firing.state = .firing then
    formFlow (modFiring (fun f => { f with
      heating := some (heatingUnder s.settings.firing f.ceiling (computedTarget s.settings.firing f.umax)) }) s)
  else s

/-! ## Entry to and exit from the states -/

/-- Entry to FIRING (R124): the pump event before the burner event on the way up (R121). -/
def enterFiring (s : State) : State :=
  let s := setBurner true (setPump true s)
  let s := modFiring (fun f => { f with
    state := .firing
    minOn := startTimer s.settings.firing.minOn
    flameWait := if s.inputs.flame then none else some 0
    pathWait := none
    overrun := none
    ceiling := some (s.settings.firing.fmin + 200) }) s
  releaseAnyHold (formHeating s)

/-- Entry to IDLE, WAIT_PATH or BLOCKED: the path-wait timer starts on entry to WAIT_PATH, is left alone by a stay in it,
and stops outside it (R123). -/
def enterQuiet (state : FiringState) (s : State) : State :=
  modFiring (fun f => { f with
    state := state
    overrun := none
    pathWait :=
      if state = .waitPath then (if f.state = .waitPath then f.pathWait else some 0) else none }) s

/-- The state selection taken in IDLE, WAIT_PATH and BLOCKED (R122). -/
def select (s : State) : State :=
  if selection s = .firing then enterFiring s else enterQuiet (selection s) s

/-- The selection where IDLE, WAIT_PATH or BLOCKED stands; the other states are left by their own rules (R122). -/
def selectQuiet (s : State) : State :=
  match s.firing.state with
  | .idle | .waitPath | .blocked => select s
  | .firing | .overrun | .lockout => s

/-- What every passage out of FIRING does (R126, R127). -/
def leaveFiring (s : State) : State :=
  modFiring (fun f => { f with
    minOff := startTimer s.settings.firing.minOff
    flowTarget := none
    code := 0
    heating := none
    ceiling := none
    minOn := none
    flameWait := none }) (setBurner false s)

/-- The overrun expiry (R128). Where releasing the hold set takes the hot-water path away, the selection follows that
event too (R122). -/
def endOverrun (s : State) : State :=
  if selection s = .firing then enterFiring s
  else selectQuiet (enterQuiet (selection s) (releaseHold (setPump false s)))

/-- Start the pump's run-on with its hold set (R128, R129). -/
def startOverrun (s : State) : State :=
  let s := modFiring (fun f => { f with state := .overrun, overrun := startTimer s.settings.firing.overrun }) s
  if s.settings.firing.bypass then s else fixHold s

/-- Entry to OVERRUN (R128): a setting of 0 ends it at once. -/
def enterOverrun (s : State) : State :=
  if s.settings.firing.overrun = 0 then endOverrun (startOverrun s) else startOverrun s

/-- Whether FIRING must be left now for OVERRUN (R126). -/
def mustStop (s : State) : Bool :=
  !s.firing.pathExists || !unobstructed s || (!s.firing.anyCall && s.firing.minOn.isNone)

/-- What an event that can change the call, the path or the permission brings about, in each state (R122, R126, R128). -/
def settle (s : State) : State :=
  match s.firing.state with
  | .idle | .waitPath | .blocked => select s
  | .overrun => if selection s = .firing then enterFiring s else s
  | .firing => if mustStop s then enterOverrun (leaveFiring s) else s
  | .lockout => s

/-! ## Lockout -/

/-- The causes of a lockout (R134). -/
inductive LockoutReason where
  | highLimit
  | boilerFault
deriving DecidableEq, Repr

/-- Whether a reason is in the set of a record. -/
def Lockout.has (l : Lockout) : LockoutReason → Bool
  | .highLimit => l.highLimit
  | .boilerFault => l.boilerFault

/-- The record with a reason added. -/
def Lockout.add (l : Lockout) : LockoutReason → Lockout
  | .highLimit => { l with highLimit := true }
  | .boilerFault => { l with boilerFault := true }

/-- The record written at entry (R134). -/
def lockoutRecord (reason : LockoutReason) (s : State) : Lockout :=
  Lockout.add ⟨false, false, s.clock.now, if s.firing.flowKnown then s.firing.flow else none⟩ reason

/-- The flow is hot enough to keep the pump on in LOCKOUT (R134, R135). -/
def flowHot (s : State) : Bool :=
  s.firing.flowKnown && (s.firing.flow.map fun t => decide (s.settings.firing.highLimit - 1000 ≤ t)).getD false

/-- The flow temperature trips the high limit (R132). -/
def trips (s : State) : Bool :=
  s.firing.flowKnown && (s.firing.flow.map fun t => decide (s.settings.firing.highLimit < t)).getD false

/-- Fix a fresh hold set where the pump is ON without a bypass; release any hold set otherwise (R134). -/
def holdForLockout (s : State) : State :=
  if s.firing.pump && !s.settings.firing.bypass then fixHold s else releaseAnyHold s

/-- Entry to LOCKOUT (R134). -/
def enterLockout (reason : LockoutReason) (s : State) : State :=
  let s := if s.firing.state = .firing then leaveFiring s else s
  let s := modFiring (fun f => { f with
    state := .lockout
    lockout := some (lockoutRecord reason s)
    minOn := none
    overrun := none
    pathWait := none
    flameWait := none
    flowTarget := none
    heating := none
    ceiling := none
    code := 0 }) s
  let s := setPump (flowHot s) s
  postBoth .lockout (raise .lockoutOn (holdForLockout s))

/-- A cause arises: it enters LOCKOUT, or in LOCKOUT adds its reason if the set lacks it, with LOCKOUT posted to both
ports again (R132, R133, R135). -/
def lockOut (reason : LockoutReason) (s : State) : State :=
  if s.firing.state = .lockout then
    match s.firing.lockout with
    | none => s
    | some l =>
      if l.has reason then s
      else postBoth .lockout (modFiring (fun f => { f with lockout := some (l.add reason) }) s)
  else enterLockout reason s

/-- The high limit tested (R132). -/
def testHighLimit (s : State) : State := if trips s then lockOut .highLimit s else s

/-- The peak follows a VALID or HELD flow temperature above it (R135). -/
def Lockout.follow (l : Lockout) (known : Bool) (flow : Option Int) : Lockout :=
  if known then
    match flow, l.peak with
    | some t, some p => if p < t then { l with peak := some t } else l
    | some t, none => { l with peak := some t }
    | none, _ => l
  else l

/-- What a publication does in LOCKOUT beside the trip: the peak, and the pump's stop (R135). -/
def lockoutPublication (s : State) : State :=
  let s := modFiring (fun f => { f with lockout := f.lockout.map fun l => l.follow f.flowKnown f.flow }) s
  if s.firing.pump && !flowHot s then releaseHold (setPump false s) else s

/-- A publication reaches the controller (R73): the flow temperature is copied, the trip tested, and in LOCKOUT the peak
and the pump, in every other state the permission, examined (R119, R132, R135). -/
def takePublication (s : State) : State :=
  let s := modFiring (fun f => { f with
    flow := s.capture.publication.flow, flowStatus := s.capture.publication.flowStatus }) s
  if s.firing.state = .lockout then lockoutPublication (testHighLimit s)
  else if trips s then lockOut .highLimit s
  else settle s

/-! ## Demand update and flow-path report -/

/-- The rate ceiling that a demand update sets in FIRING (R130): the heating target `stood` plus 200. Where none stood, the
controller has entered FIRING in the same hand-over, and the ceiling of that entry stands. -/
def ceilingAfter (stood ceiling : Option Int) : Option Int :=
  match stood with
  | some h => some (h + 200)
  | none => ceiling

/-- The demand update reaches the controller (R118): in FIRING the rate ceiling becomes the heating target as it stood
before the update was handed on, plus 200, and the heating target is formed (R130). `stood` is that heating target: where
the report that the update causes is taken first, it is the one before the report, so that the heating target comes out
the same in either order as R118 says (log entry 25). -/
def takeDemand (stood : Option Int) (d : Demand) (s : State) : State :=
  let s := modFiring (fun f => { f with
    demand := d
    ceiling := if f.state = .firing then ceilingAfter stood f.ceiling else f.ceiling }) s
  settle (formHeating s)

/-- A flow-path report reaches the controller (R118). -/
def takeReport (r : PathReport) (s : State) : State :=
  settle (formHeating (modFiring (fun f => { f with report := r }) s))

/-! ## The hot-water call -/

/-- The mode's own condition (R137). -/
def ownCondition (s : State) : Bool :=
  match s.settings.hotWater.mode with
  | .off => false
  | .follow => s.inputs.request
  | .pulse => false
  | .gate => s.inputs.request && s.firing.schedule

/-- Whether the hot-water call is to be PRESENT (R137). -/
def callWanted (s : State) : Bool :=
  s.settings.hotWater.mode != .off && (ownCondition s || s.firing.timedCall.isSome)

/-- A call start (R137): DHW_ON, a priority period under ABSOLUTE (R140), the diverter (R139), the flow target (R131). -/
def startCall (s : State) : State :=
  formFlow (setDiverter (modFiring (fun f => { f with
    call := true, priority := if s.settings.hotWater.absolute then some 0 else none }) (raise .dhwOn s)))

/-- A call end (R137): DHW_OFF, the priority period ends with it (R140), and the diverter follows (R139). The diverter is
turned OFF here, before the state selection takes the call's end: where that event itself ends FIRING, the hold set fixed
then leaves the diverter out (DESIGN CHOICE, log entry 31). -/
def endCall (s : State) : State :=
  formFlow (setDiverter (modFiring (fun f => { f with call := false, priority := none }) (raise .dhwOff s)))

/-- Derive the hot-water call from its causes; a start or an end is an event of the state selection (R122, R137). The
diverter follows the call first and the state afterwards: no rule gives the order of the two (R129, R139; DESIGN CHOICE,
log entry 31). -/
def deriveCall (s : State) : State :=
  if callWanted s && !s.firing.call then settle (startCall s)
  else if !callWanted s && s.firing.call then settle (endCall s)
  else s

/-- Set the timed call (R138). -/
def setTimedCall (seconds : Nat) (s : State) : State :=
  deriveCall (modFiring (fun f => { f with timedCall := some seconds }) s)

/-- A priority period ends; the flow target is formed again (R140). -/
def endPriority (s : State) : State := formFlow (modFiring (fun f => { f with priority := none }) s)

/-- The hot-water schedule state handed on by the program store, when it has changed (R18). -/
def takeSchedule (on : Bool) (s : State) : State :=
  if s.firing.schedule = on then s else deriveCall (modFiring (fun f => { f with schedule := on }) s)

end Sys2Proof.Machine
end

