-- ==== Sys2Proof/Machine/Resolution.lean ====
section
/-!
DEFINITION. From switch points to effective setpoints: evaluating a list (R17), the scheduled results (R18, R19), the
resolution of the effective setpoint (R54, R55), the expiry and eviction of override slots (R44, R50 to R53), the change
of active bank (R29) and silent re-evaluation (R22).
-/

namespace Sys2Proof.Machine

/-! ## Evaluating a list -/

/-- The entry with the greatest start among those considered (R17). -/
def latest (considered : SwitchPoint → Bool) (l : List SwitchPoint) : Option SwitchPoint :=
  l.foldl (fun best p =>
    if considered p then
      match best with
      | none => some p
      | some b => if b.start ≤ p.start then some p else some b
    else best) none

/-- Step k of the search back through the week from day d and minute m (R17): the day searched, the entries considered
there, and the one taken with its occurrence day. -/
def searchStep (l : List SwitchPoint) (d m k : Nat) : Option Entry :=
  let day := (d + 7 - k) % 7
  let considered (p : SwitchPoint) : Bool :=
    p.holds day && (if k = 0 then decide (p.start ≤ m) else if k = 7 then decide (m < p.start) else true)
  (latest considered l).map fun p => ⟨p, day⟩

/-- The effective entry of a list at a day and minute (R17): the first of the eight steps that finds a switch point. -/
def evaluate (l : List SwitchPoint) (d m : Nat) : Option Entry :=
  (List.range 8).findSome? (searchStep l d m)

/-- Two effective entries are the same (R17): the same switch point, by day set and start, on the same occurrence day.
An effective entry and no effective entry are always different. -/
def sameEntry : Option Entry → Option Entry → Bool
  | none, none => true
  | some a, some b =>
    decide (a.point.days = b.point.days) && decide (a.point.start = b.point.start) && decide (a.day = b.day)
  | none, some _ => false
  | some _, none => false

/-- The switch point of a list that starts at a day and minute (R20). -/
def startingAt (l : List SwitchPoint) (d m : Nat) : Option SwitchPoint :=
  l.find? fun p => p.holds d && decide (p.start = m)

/-- The list that serves a zone (R14). -/
def zoneList (z : Fin 16) : Fin 17 := z.castSucc

/-- A list of the active bank. -/
def activeList (s : State) (l : Fin 17) : List SwitchPoint := (s.program.banks.get s.program.active).lists.get l

/-- A zone's scheduled target (R18, R19): the remembered effective entry's target, or the base setpoint where there is
none. -/
def scheduledTarget (s : State) (z : Fin 16) : Target :=
  match s.program.remembered.get (zoneList z) with
  | some e => e.point.target
  | none => .temp (s.settings.zones.get z).base

/-- The hot-water schedule state (R18, R19): ON where the remembered effective entry of list 16 has the target ON. -/
def hotWaterSchedule (s : State) : Bool :=
  match s.program.remembered.get hotWaterList with
  | some e => decide (e.point.target = .on)
  | none => false

/-! ## The effective setpoint -/

/-- A zone's slot, if it has one (R39). -/
def slotOf (s : State) (z : Fin 16) : Option Slot := s.overrides.slots.find? fun o => o.zone = z

/-- The basis of an enabled zone (R54, step 2). -/
def basis (s : State) (z : Fin 16) : Option Int :=
  match slotOf s z with
  | some o => o.setpoint
  | none =>
    if s.clock.valid then (scheduledTarget s z).setpoint else some (s.settings.zones.get z).base

/-- The effective setpoint of a zone (R54). -/
def effectiveSetpoint (s : State) (z : Fin 16) : Option Int :=
  let c := s.settings.zones.get z
  if c.enabled then
    match basis s z with
    | none => some c.frost
    | some b => some (max b c.frost)
  else none

/-- Resolve every zone's effective setpoint again (R55). -/
def resolve (s : State) : State :=
  { s with overrides := { s.overrides with effective := Tab.ofFn (effectiveSetpoint s) } }

/-- Hand the scheduled results on (R18): the effective setpoints are resolved and the firing controller takes the
hot-water schedule state if it has changed. -/
def handOn (s : State) : State := takeSchedule (hotWaterSchedule s) (resolve s)

/-! ## The slots -/

/-- The set holding one zone. -/
def zoneSet (z : Fin 16) : ZoneSet := single 16 z.val

/-- The slots without the slot of a zone (R40). -/
def withoutZone (slots : List Slot) (z : Fin 16) : List Slot := slots.filter fun o => o.zone ≠ z

/-- Replace the slots and resolve (R55). -/
def putSlots (slots : List Slot) (s : State) : State :=
  resolve { s with overrides := { s.overrides with slots := slots } }

/-- Post OVERRIDE_ENDED to the origin port of each slot that has expired. -/
def postEnded (ended : List Slot) (s : State) : State :=
  ended.foldl (fun s o => post o.origin (.overrideEnded (zoneSet o.zone)) s) s

/-- Expire every slot that satisfies p (R50 to R53): it is removed and its origin port is told. -/
def expire (p : Slot → Bool) (s : State) : State :=
  postEnded (s.overrides.slots.filter p) (putSlots (s.overrides.slots.filter fun o => !p o) s)

/-- Whether a slot is of kind NEXT. -/
def Slot.isNext (o : Slot) : Bool := decide (o.kind = .next)

/-- Whether a slot is a HOLD. -/
def Slot.isHold (o : Slot) : Bool := decide (o.kind = .hold)

/-- A SWITCH_CROSS of a zone reaches the table: a NEXT slot of the zone expires (R50). -/
def expireCrossed (z : Fin 16) (s : State) : State := expire (fun o => o.isNext && decide (o.zone = z)) s

/-- A change of active bank reaches the table: every NEXT slot expires (R51). -/
def expireNext (s : State) : State := expire Slot.isNext s

/-- An UNTIL slot's kind with its minutes remaining replaced; the other kinds as they are. -/
def Kind.withRemaining (k : Kind) (f : Nat → Nat) : Kind :=
  match k with
  | .next => .next
  | .untilTime finish r => .untilTime finish (f r)
  | .hold => .hold

/-- An UNTIL slot whose minutes remaining have reached 0 (R52). -/
def Slot.runOut (o : Slot) : Bool :=
  match o.kind with
  | .untilTime _ r => decide (r = 0)
  | .next => false
  | .hold => false

/-- The table's minute event (R52): every UNTIL slot's minutes remaining falls by one, and those at 0 expire. -/
def countDown (s : State) : State :=
  expire Slot.runOut
    (putSlots (s.overrides.slots.map fun o => { o with kind := o.kind.withRemaining fun r => r - 1 }) s)

/-- Minutes remaining after a jump from one time to another, the shorter way round (R53). -/
def afterJump (previous now : WeekTime) (remaining : Nat) : Int :=
  let f := minutesAhead previous now
  if f ≤ Config.halfWeek then (remaining : Int) - f
  else (remaining : Int) + (Config.minutesPerWeek - f : Nat)

/-- Whether a jump carries a slot outside its window (R53). -/
def Slot.jumpedOut (previous now : WeekTime) (o : Slot) : Bool :=
  match o.kind with
  | .untilTime _ r => !within 1 Config.minutesPerWeek (afterJump previous now r)
  | .next => false
  | .hold => false

/-- The table's jump-marked re-evaluation (R53): slots carried outside their window expire, the others move by the jump.
A set from an INVALID clock has no previous time and changes no slot. -/
def jumpSlots (previous : Option WeekTime) (now : WeekTime) (s : State) : State :=
  match previous with
  | none => s
  | some from_ =>
    let moved := expire (Slot.jumpedOut from_ now) s
    putSlots (moved.overrides.slots.map fun o =>
      { o with kind := o.kind.withRemaining fun r => (afterJump from_ now r).toNat }) moved

/-! ## Re-evaluation and the change of active bank -/

/-- Replace the remembered effective entries of the lists that satisfy p by what evaluation finds now; nothing while the
clock is INVALID (R19, R22). -/
def reevaluate (p : Fin 17 → Bool) (s : State) : State :=
  if s.clock.valid then
    { s with program := { s.program with
        remembered := Tab.ofFn fun l =>
          if p l then evaluate (activeList s l) s.clock.day s.clock.minute
          else s.program.remembered.get l } }
  else s

/-- Silent re-evaluation of the lists that satisfy p (R22). -/
def silently (p : Fin 17 → Bool) (s : State) : State := handOn (reevaluate p s)

/-- Make a bank active. -/
def setActive (b : Fin 4) (s : State) : State := { s with program := { s.program with active := b } }

/-- Replace the timed-program record. -/
def setTimed (t : Option Timed) (s : State) : State := { s with program := { s.program with timed := t } }

/-- Post BANK_CHANGED: to the other port for a command, to both for a timed return (R29). -/
def postBankChanged (cause : Option Port) (s : State) : State :=
  match cause with
  | some p => post p.other .bankChanged s
  | none => postBoth .bankChanged s

/-- A change of active bank, if the bank differs from the active one (R29, R51). The matrix takes BANK_CHANGE before,
between or after the events that the new schedule makes the firing controller raise, as the turns say (R149). -/
def changeBank (order : Order) (cause : Option Port) (b : Fin 4) (s : State) : State :=
  if b = s.program.active then s
  else
    let s := raise .bankChange (postBankChanged cause (setActive b s))
    takeInTurns order.turns (expireNext (silently (fun _ => true) s))

end Sys2Proof.Machine
end

