-- ==== Sys2Proof/Machine/Capture.lean ====
section
/-!
DEFINITION. The capture unit (R58 to R77): the glitch filter and the timing of periods, the window and its expiry, remote
reports, the selection of zone temperatures, lost marks and the publication.
-/

namespace Sys2Proof.Machine

/-! ## Edges and periods -/

/-- A period judged (R62): counted, rejected, or discarded once the count or the rejects stand at 4095. -/
def Channel.judge (c : Channel) (period : Nat) : Channel :=
  if Config.periodMin ≤ period ∧ period ≤ Config.periodMax then
    if c.count < Config.windowLimit then { c with sum := c.sum + period, count := c.count + 1 } else c
  else if c.rejects < Config.windowLimit then { c with rejects := c.rejects + 1 }
  else c

/-- The channel back in IDLE with its timer stopped (R61, R63). The rules give a stopped timer no count; it holds 0 here,
and starts at 0 again on entry to TIMING (DESIGN CHOICE, log entry 28). -/
def Channel.toIdle (c : Channel) : Channel := { c with timing := false, timer := 0 }

/-- The timer of a TIMING channel advances by the microseconds that pass without an accepted edge; past 65,535 it has timed
out on the way (R60, R61). At 65,535 exactly an edge and the timeout fall together, and whichever comes is taken first
(R61). -/
def Channel.advance (c : Channel) (elapsed : Nat) : Channel :=
  if c.timing then
    if Config.timerLimit < c.timer + elapsed then c.toIdle else { c with timer := c.timer + elapsed }
  else c

/-- An accepted edge (R60): it starts TIMING, or yields the timer's value as a period and restarts the timer. -/
def Channel.accept (c : Channel) : Channel :=
  if c.timing then { c.judge c.timer with timer := 0 } else { c with timing := true, timer := 0 }

/-- The filtered level follows the raw level (R59): an edge of the set kind is an accepted edge, one of the other kind is
passed over. -/
def Channel.follow (c : Channel) (falling : Bool) : Channel :=
  if c.filtered = c.raw then c
  else
    let d := { c with filtered := c.raw, held := 0 }
    if c.raw = falling then d else d.accept

/-- The raw level stands against the filtered level, and the glitch filter waits (R59). -/
def Channel.waits (c : Channel) : Bool := c.raw != c.filtered

/-- The microseconds for which the raw level has still to hold (R59). -/
def Channel.wait (c : Channel) (cfg : ChannelSettings) : Nat := cfg.filter - c.held

/-- Microseconds that end before the wait of the glitch filter does. -/
def Channel.hold (c : Channel) (n : Nat) : Channel :=
  { c.advance n with held := if c.waits then c.held + n else c.held }

/-- Microseconds that pass with the raw level as it stands (R59 to R61). Where the raw level comes to have held for the
filter time, the filtered level follows it at that moment, and the rest of the time passes after it. -/
def Channel.elapse (c : Channel) (cfg : ChannelSettings) (n : Nat) : Channel :=
  if c.waits ∧ c.wait cfg ≤ n then
    ((c.advance (c.wait cfg)).follow cfg.falling).advance (n - c.wait cfg)
  else c.hold n

/-- The raw level as it stands after an event of the input: a new level starts the wait of the glitch filter afresh
(R59). -/
def Channel.setRaw (c : Channel) (level : Bool) : Channel :=
  if c.raw = level then c else { c with raw := level, held := 0 }

/-- The capture channels changed at one index. -/
def modChannel (ch : Fin 18) (f : Channel → Channel) (s : State) : State :=
  { s with capture := { s.capture with channels := s.capture.channels.modify ch f } }

/-- Microseconds pass on one channel (R59 to R61). -/
def channelElapses (ch : Fin 18) (n : Nat) (s : State) : State :=
  modChannel ch (fun c => c.elapse (s.settings.capture.get ch) n) s

/-- The raw input line at a new level. -/
def setRaw (ch : Fin 18) (level : Bool) (s : State) : State := modChannel ch (fun c => c.setRaw level) s

/-- A change of the raw level (R59), `elapsed` microseconds after the channel's last event: it starts the wait of the glitch
filter, or with a filter of 0 µs is at once a change of the filtered level. A raw level that returns before the wait is
over leaves the filtered level as it was. -/
def rawInputBlock (ch : Fin 18) (level : Bool) (elapsed : Nat) (s : State) : State :=
  channelElapses ch 0 (setRaw ch level (channelElapses ch elapsed s))

/-- The microseconds pass that lead to an accepted edge (R59, R60): where the raw level has held for the filter time by
then, the filtered level changes; otherwise the wait goes on. -/
def acceptedEdgeBlock (ch : Fin 18) (elapsed : Nat) (s : State) : State := channelElapses ch elapsed s

/-- A TIMING channel whose timer stands at 65,535 has its timeout (R61). -/
def Channel.expire (c : Channel) : Channel :=
  if c.timing ∧ Config.timerLimit ≤ c.timer then c.toIdle else c

/-- The timeout of a TIMING channel (R61): the microseconds pass up to the count of 65,535. Where the glitch filter's wait
is over before that, its edge is taken on the way, and an accepted edge leaves no timeout to take. Where the two fall
together the timeout is taken first. -/
def Channel.timeOut (c : Channel) (cfg : ChannelSettings) : Channel :=
  if c.timing then
    let n := Config.timerLimit - c.timer
    (if c.wait cfg < n then c.elapse cfg n else c.hold n).expire
  else c

/-- The timeout of a TIMING channel (R61). -/
def timeoutBlock (ch : Fin 18) (s : State) : State :=
  modChannel ch (fun c => c.timeOut (s.settings.capture.get ch)) s

/-! ## Remote reports -/

/-- A report one capture second older (R68). -/
def Report.older (r : Report) : Report := { r with age := min Config.ageLimit (r.age + 1) }

/-- A report is fresh at or below the staleness setting in seconds (R68). -/
def Report.fresh (r : Report) (staleness : Nat) : Bool := decide (r.age ≤ staleness * 60)

/-- Each capture second every present report ages (R64, R68). -/
def captureSecondBlock (s : State) : State :=
  { s with capture := { s.capture with
      reports := Tab.ofFn fun z => (s.capture.reports.get z).map Report.older
      seconds := (s.capture.seconds + 1) % 10 } }

/-- TEMP REPORT (R67). -/
def tempReportBlock (zone value : Int) (s : State) : State × Response :=
  match index 16 zone with
  | none => (s, refuse .range)
  | some z =>
    if within Config.tempMin Config.tempMax value then
      ({ s with capture := { s.capture with reports := s.capture.reports.set z (some ⟨value, 0⟩) } },
        .ok [flag (decide ((s.settings.zones.get z).mode ≠ .localOnly))])
    else (s, refuse .range)

/-! ## The window expiry -/

/-- A window is usable with four periods or more and no more rejects than periods (R64). -/
def Channel.usable (c : Channel) : Bool := decide (4 ≤ c.count) && decide (c.rejects ≤ c.count)

/-- The temperature of a usable window (R65). -/
def Channel.temperature (c : Channel) (offset : Int) : Int :=
  clamp Config.tempMin Config.tempMax (divRound ((divRound c.sum c.count - 10000) * 5) 2 + offset)

/-- The status after an unusable window, given the run after it (R66). -/
def ChannelStatus.afterUnusable (status : ChannelStatus) (run : Nat) : ChannelStatus :=
  match status with
  | .never => .never
  | .valid => .held
  | .held => if run = 3 then .noSignal else .held
  | .noSignal => .noSignal

/-- Whether a channel of a status has a temperature (R66). -/
def ChannelStatus.hasTemperature : ChannelStatus → Bool
  | .valid | .held => true
  | .never | .noSignal => false

/-- A channel's status and temperature after its window is judged (R65, R66). -/
def Channel.judgeWindow (c : Channel) (offset : Int) : Channel :=
  if c.usable then { c with last := some (c.temperature offset), status := .valid, run := 0 }
  else
    let run := min 3 (c.run + 1)
    let status := c.status.afterUnusable run
    { c with run := run, status := status, last := if status.hasTemperature then c.last else none }

/-- The window closed (R64, step 1). -/
def Channel.closeWindow (c : Channel) (offset : Int) : Channel :=
  { c.judgeWindow offset with lastCount := c.count, lastRejects := c.rejects, sum := 0, count := 0, rejects := 0 }

/-- A zone's temperature from its channel (R70); no channel is as status NONE. -/
def fromChannel (c : Option Channel) : ZoneTemp :=
  match c with
  | none => blankZoneTemp
  | some c =>
    match c.status with
    | .valid => ⟨c.last, .valid, .channel⟩
    | .held => ⟨c.last, .held, .channel⟩
    | .never => blankZoneTemp
    | .noSignal => blankZoneTemp

/-- The fresh report of a zone, if it has one (R68, R70). -/
def freshReport (c : ZoneSettings) (r : Option Report) : Option Report := r.filter fun r => r.fresh c.staleness

/-- The zone temperature of a fresh report (R70). -/
def fromReport (r : Report) : ZoneTemp := ⟨some r.value, .valid, .remote⟩

/-- The selection of a zone's temperature (R70). -/
def selectTemperature (c : ZoneSettings) (channel : Option Channel) (r : Option Report) : ZoneTemp :=
  match c.mode with
  | .localOnly => fromChannel channel
  | .remote => ((freshReport c r).map fromReport).getD blankZoneTemp
  | .remotePreferred => ((freshReport c r).map fromReport).getD (fromChannel channel)

/-- The flow temperature and status from the flow channel (R73). -/
def flowFrom (c : Channel) : Option Int × TempStatus :=
  match c.status with
  | .valid => (c.last, .valid)
  | .held => (c.last, .held)
  | .never => (none, .invalid)
  | .noSignal => (none, .invalid)

/-- The channels with their windows closed (R64, step 1). -/
def closeWindows (s : State) : Tab 18 Channel :=
  Tab.ofFn fun c => (s.capture.channels.get c).closeWindow (s.settings.capture.get c).offset

/-- The zone temperatures selected from the given channels (R64, step 2). -/
def selectAll (s : State) (channels : Tab 18 Channel) : Tab 16 ZoneTemp :=
  Tab.ofFn fun z =>
    selectTemperature (s.settings.zones.get z) ((s.settings.zones.get z).sensor.map channels.get)
      (s.capture.reports.get z)

/-- Whether a zone has come to be enabled without a temperature (R72): its lost mark stands or is set. -/
def lostNow (s : State) (temps : Tab 16 ZoneTemp) (z : Fin 16) : Bool :=
  (s.settings.zones.get z).enabled && decide ((temps.get z).status = .invalid)

/-- The zones that raise SENSOR_LOST at this expiry (R72): lost now with their mark clear. -/
def newlyLost (s : State) (temps : Tab 16 ZoneTemp) : ZoneSet :=
  setOf fun z => lostNow s temps z && !s.capture.lost.getLsbD z.val

/-- The publication of the selected temperatures (R73). -/
def publish (s : State) (channels : Tab 18 Channel) (temps : Tab 16 ZoneTemp) : Publication where
  zones := temps
  flow := (flowFrom (channels.get s.settings.firing.flowChannel)).1
  flowStatus := (flowFrom (channels.get s.settings.firing.flowChannel)).2

/-- Step 3 of the expiry: SENSOR_LOST for each newly lost zone and one ZONE_SENSOR for them all (R72). -/
def reportLost (first : List (Fin 16)) (zones : ZoneSet) (s : State) : State :=
  if zones = 0 then s else postBoth (.zoneSensor zones) (raiseEach .sensorLost (arranged first zones) s)

/-- The window expiry (R64): windows closed, temperatures selected, losses raised, results published, and the
publication handed to the firing controller (R73). The events of step 3 reach the matrix before the publication of step 4
makes the controller raise any (log entry 18). -/
def expireWindow (order : Order) (s : State) : State :=
  let channels := closeWindows s
  let temps := selectAll s channels
  let lost := newlyLost s temps
  let s := { s with capture := { s.capture with
    channels := channels
    lost := setOf fun z => lostNow s temps z
    publication := publish s channels temps } }
  takePublication (takeRaised (reportLost order.indices lost s))

/-! ## Reading a channel -/

/-- The code of a channel status (R74). -/
def ChannelStatus.code : ChannelStatus → Int
  | .never => 0
  | .valid => 1
  | .held => 2
  | .noSignal => 3

/-- CAPTURE GET (R74). -/
def captureGetView (channel : Int) (s : State) : Response :=
  match index 18 channel with
  | none => refuse .range
  | some ch =>
    let c := s.capture.channels.get ch
    let cfg := s.settings.capture.get ch
    .ok [num c.status.code, flag c.last.isSome, num (c.last.getD 0), flag c.timing, count c.run, count c.lastCount,
      count c.lastRejects, flag cfg.falling, count cfg.filter, num cfg.offset]

/-! ## Meanings -/

/-- TEMP REPORT (R67). -/
def execTempReport (p : Port) (zone value : Int) (s : State) : Host.Outcome State Fault Refusal :=
  command (.tempReport p zone value) p (tempReportBlock zone value) s

/-- CAPTURE GET (R74). -/
def execCaptureGet (p : Port) (channel : Int) (s : State) : Host.Outcome State Fault Refusal :=
  command (.captureGet p channel) p (reading (captureGetView channel)) s

/-- A change of a sensor input's raw level (R59). A level that the line already has is no change. Without power only the
line's level changes. -/
def execRawInputChange (ch : Fin 18) (level : Bool) (elapsed : Nat) (s : State) : Host.Outcome State Fault Refusal :=
  if s.powered then event (rawInputBlock ch level elapsed) s else .next (setRaw ch level s)

/-- The raw level comes to have held for the filter time (R59, R60, R62). -/
def execAcceptedEdge (ch : Fin 18) (elapsed : Nat) (s : State) : Host.Outcome State Fault Refusal :=
  event (acceptedEdgeBlock ch elapsed) s

/-- The timer of a TIMING channel reaches 65,535 µs (R61). -/
def execTimeout (ch : Fin 18) (s : State) : Host.Outcome State Fault Refusal := event (timeoutBlock ch) s

/-- A capture second (R64, R68). -/
def execCaptureSecond (s : State) : Host.Outcome State Fault Refusal := event captureSecondBlock s

/-- The window expiry of every tenth capture second (R64). -/
def execWindowExpiry (s : State) : Host.Outcome State Fault Refusal := event (withOrder expireWindow) s

end Sys2Proof.Machine
end

