-- ==== Sys2Proof/Machine/Firing.lean ====
section
/-!
DEFINITION. The firing controller's commands and events (R116 to R143): INHIBIT, LOCKOUT CLEAR, DHW BOOST, the edges of
its four inputs, and the expiries of its timers. An expiry row is the expiry itself: it acts while its timer runs, and a
stopped timer has none.
-/

namespace Sys2Proof.Machine

/-! ## Commands -/

/-- The two inhibit flags on a port, the text port's first (R120). -/
def inhibitFields (s : State) : List Field := [flag s.firing.inhibitText, flag s.firing.inhibitWire]

/-- One port's inhibit flag (R120). -/
def setInhibit (p : Port) (on : Bool) (s : State) : State :=
  modFiring (fun f =>
    match p with
    | .text => { f with inhibitText := on }
    | .wire => { f with inhibitWire := on }) s

/-- INHIBIT (R120): the flag, then the selection or the end of firing that the change of permission gives. -/
def inhibitBlock (p : Port) (value : Int) (s : State) : State × Response :=
  if within 0 1 value then
    let t := settle (setInhibit p (decide (value = 1)) s)
    (t, .ok (inhibitFields t))
  else (s, refuse .range)

/-- HIGH_LIMIT is resolved (R136): VALID, not HELD, and below high limit − 1000. -/
def highLimitResolved (s : State) : Bool :=
  decide (s.firing.flowStatus = .valid) &&
    (s.firing.flow.map fun t => decide (t < s.settings.firing.highLimit - 1000)).getD false

/-- Every reason of a lockout is resolved (R136). -/
def resolved (l : Lockout) (s : State) : Bool :=
  (!l.highLimit || highLimitResolved s) && (!l.boilerFault || !s.inputs.fault)

/-- An accepted LOCKOUT CLEAR (R136). -/
def endLockout (p : Port) (s : State) : State :=
  let s := releaseAnyHold (setPump false s)
  let s := raise .lockoutOff (modFiring (fun f => { f with lockout := none }) s)
  select (post p.other .lockout (modFiring (fun f => { f with state := .idle }) s))

/-- LOCKOUT CLEAR (R136). -/
def lockoutClearBlock (p : Port) (s : State) : State × Response :=
  if s.firing.state = .lockout then
    match s.firing.lockout with
    | some l => if resolved l s then (endLockout p s, .ok [num 1]) else (s, refuse .notReady)
    | none => (endLockout p s, .ok [num 1])
  else (s, .ok [num 0])

/-- DHW BOOST (R138): the minutes, then the mode. -/
def dhwBoostBlock (minutes : Int) (s : State) : State × Response :=
  if within 1 120 minutes then
    if s.settings.hotWater.mode = .off then (s, refuse .notReady)
    else (setTimedCall (minutes.toNat * 60) s, .ok [num minutes])
  else (s, refuse .range)

/-! ## Input lines -/

/-- The flame input at a new level. -/
def setFlame (on : Bool) (s : State) : State := { s with inputs := { s.inputs with flame := on } }

/-- The boiler fault input at a new level. -/
def setFaultInput (on : Bool) (s : State) : State := { s with inputs := { s.inputs with fault := on } }

/-- The interlock input at a new level. -/
def setInterlock (closed : Bool) (s : State) : State := { s with inputs := { s.inputs with interlock := closed } }

/-- The hot-water request input at a new level. -/
def setRequest (on : Bool) (s : State) : State := { s with inputs := { s.inputs with request := on } }

/-- A flame edge (R125): an assertion in FIRING stops the flame-wait timer. -/
def flameBlock (asserted : Bool) (s : State) : State :=
  if asserted ∧ s.firing.state = .firing then modFiring (fun f => { f with flameWait := none }) s else s

/-- A boiler fault edge (R133): an assertion starts the fault-persistence timer, a deassertion stops it. -/
def faultBlock (asserted : Bool) (s : State) : State :=
  modFiring (fun f => { f with faultTimer := if asserted then some 0 else none }) s

/-- A hot-water request edge (R137): in PULSE an assertion sets the timed call; otherwise the call is derived again. -/
def requestBlock (asserted : Bool) (s : State) : State :=
  if asserted ∧ s.settings.hotWater.mode = .pulse then setTimedCall (s.settings.hotWater.pulse * 60) s
  else deriveCall s

/-- An edge acts where the level is new, and not otherwise. -/
def onEdge (old new : Bool) (block : State → State) : State → State := if old = new then id else block

/-! ## Timers -/

/-- The min-on expiry (R126): with no call FIRING ends. -/
def minOnBlock (s : State) : State :=
  if s.firing.minOn.isSome then settle (modFiring (fun f => { f with minOn := none }) s) else s

/-- The min-off expiry (R119, R127): the permission it restores is followed. -/
def minOffBlock (s : State) : State :=
  if s.firing.minOff.isSome then settle (modFiring (fun f => { f with minOff := none }) s) else s

/-- The overrun expiry (R128). -/
def overrunBlock (s : State) : State :=
  if s.firing.state = .overrun ∧ s.firing.overrun.isSome then
    endOverrun (modFiring (fun f => { f with overrun := none }) s)
  else s

/-- The path-wait timer reaches 600 s (R123). -/
def pathWaitBlock (s : State) : State :=
  if s.firing.pathWait.isSome then
    postBoth (.noPath s.firing.demand.calling) (modFiring (fun f => { f with pathWait := none }) s)
  else s

/-- The flame-wait timer reaches 120 s (R125). -/
def flameWaitBlock (s : State) : State :=
  if s.firing.flameWait.isSome then postBoth .noFlame (modFiring (fun f => { f with flameWait := none }) s) else s

/-- The boiler fault persists (R133). The timer stops until the input is asserted again. -/
def faultPersistenceBlock (s : State) : State :=
  if s.firing.faultTimer.isSome then lockOut .boilerFault (modFiring (fun f => { f with faultTimer := none }) s) else s

/-- The timed call reaches 0 (R138). -/
def timedCallBlock (s : State) : State :=
  if s.firing.timedCall.isSome then deriveCall (modFiring (fun f => { f with timedCall := none }) s) else s

/-- The elapsed time of a priority period reaches the max priority time (R140); 0 is unlimited. -/
def priorityBlock (s : State) : State :=
  if s.firing.priority.isSome ∧ s.settings.hotWater.maxPriority ≠ 0 then endPriority s else s

/-- The diverter has stood ON for its open time (R139): the hot-water path exists. -/
def diverterOpenBlock (s : State) : State :=
  if s.firing.diverter = true ∧ s.firing.dhwPath = false then
    settle (modFiring (fun f => { f with
      dhwPath := true, diverterOn := max f.diverterOn s.settings.hotWater.openTime }) s)
  else s

/-! ## Meanings -/

/-- INHIBIT (R120). -/
def execInhibit (p : Port) (value : Int) (s : State) : Host.Outcome State Fault Refusal :=
  command (.inhibit p value) p (inhibitBlock p value) s

/-- LOCKOUT CLEAR (R136). -/
def execLockoutClear (p : Port) (s : State) : Host.Outcome State Fault Refusal :=
  command (.lockoutClear p) p (lockoutClearBlock p) s

/-- DHW BOOST (R138). -/
def execDhwBoost (p : Port) (minutes : Int) (s : State) : Host.Outcome State Fault Refusal :=
  command (.dhwBoost p minutes) p (dhwBoostBlock minutes) s

/-- An edge of the flame input (R125). -/
def execFlameEdge (asserted : Bool) (s : State) : Host.Outcome State Fault Refusal :=
  lineEvent (setFlame asserted) (onEdge s.inputs.flame asserted (flameBlock asserted)) s

/-- An edge of the boiler fault input (R133). -/
def execBoilerFaultEdge (asserted : Bool) (s : State) : Host.Outcome State Fault Refusal :=
  lineEvent (setFaultInput asserted) (onEdge s.inputs.fault asserted (faultBlock asserted)) s

/-- An edge of the interlock input (R119, R126). -/
def execInterlockEdge (closed : Bool) (s : State) : Host.Outcome State Fault Refusal :=
  lineEvent (setInterlock closed) (onEdge s.inputs.interlock closed settle) s

/-- An edge of the hot-water request input (R137). -/
def execHotWaterRequestEdge (asserted : Bool) (s : State) : Host.Outcome State Fault Refusal :=
  lineEvent (setRequest asserted) (onEdge s.inputs.request asserted (requestBlock asserted)) s

/-- The min-on timer expires (R126). -/
def execMinOnExpiry (s : State) : Host.Outcome State Fault Refusal := event minOnBlock s

/-- The min-off timer expires (R127). -/
def execMinOffExpiry (s : State) : Host.Outcome State Fault Refusal := event minOffBlock s

/-- The overrun timer expires (R128). -/
def execOverrunExpiry (s : State) : Host.Outcome State Fault Refusal := event overrunBlock s

/-- The path-wait timer reaches 600 s (R123). -/
def execPathWaitExpiry (s : State) : Host.Outcome State Fault Refusal := event pathWaitBlock s

/-- The flame-wait timer reaches 120 s (R125). -/
def execFlameWaitExpiry (s : State) : Host.Outcome State Fault Refusal := event flameWaitBlock s

/-- The fault-persistence timer reaches 10 s (R133). -/
def execFaultPersistenceExpiry (s : State) : Host.Outcome State Fault Refusal := event faultPersistenceBlock s

/-- The timed call reaches 0 (R138). -/
def execTimedCallExpiry (s : State) : Host.Outcome State Fault Refusal := event timedCallBlock s

/-- A priority period reaches the max priority time (R140). -/
def execPriorityExpiry (s : State) : Host.Outcome State Fault Refusal := event priorityBlock s

/-- The diverter has stood ON for its open time (R139). -/
def execDiverterOpen (s : State) : Host.Outcome State Fault Refusal := event diverterOpenBlock s

end Sys2Proof.Machine
end

