-- ==== Sys2Proof/Machine/Matrix.lean ====
section
/-!
DEFINITION. The link matrix's commands (R150, R151): the direct writes of the auxiliary lines and the two reads. How a
source event acts stands in Flags.lean.
-/

namespace Sys2Proof.Machine

/-- The lines in LINKED mode as a set (R150). -/
def linkedLines (s : State) : LineSet := setOf s.settings.linked.get

/-- The line states and modes on a port (R150, R151). -/
def lineFields (s : State) : List Field := [num (maskField s.links.lines), num (maskField (linkedLines s))]

/-- A line set field: values outside 0 to 255 are refused RANGE (R150). -/
def lineSetOf (v : Int) : Option LineSet := if within 0 255 v then some (BitVec.ofInt 8 v) else none

/-- The line states replaced. -/
def setLines (lines : LineSet) (s : State) : State := { s with links := { s.links with lines := lines } }

/-- A direct write of the lines of a set, LINKED and MASTER alike (R150). -/
def writeLines (f : LineSet → LineSet → LineSet) (lines : Int) (s : State) : State × Response :=
  match lineSetOf lines with
  | none => (s, refuse .range)
  | some m =>
    let t := setLines (f s.links.lines m) s
    (t, .ok (lineFields t))

/-- LINE SET (R150). -/
def lineSetBlock (lines : Int) (s : State) : State × Response := writeLines (fun l m => l ||| m) lines s

/-- LINE CLEAR (R150). -/
def lineClearBlock (lines : Int) (s : State) : State × Response := writeLines (fun l m => l &&& ~~~m) lines s

/-- LINE TOGGLE (R150). -/
def lineToggleBlock (lines : Int) (s : State) : State × Response := writeLines (fun l m => l ^^^ m) lines s

/-- LINE GET (R151). -/
def lineGetView (s : State) : Response := .ok (lineFields s)

/-- The code of a binding (R146). -/
def Binding.code : Binding → Int
  | .nothing => 0
  | .set => 1
  | .clear => 2
  | .toggle => 3

/-- An event channel's parameter on a port: 16 for ANY (R145). -/
def parameterField (p : Option (Fin 16)) : Field := count ((p.map Fin.val).getD 16)

/-- The eight binding fields of a channel (R151). -/
def bindingFields (s : State) (e : Fin 8) : List Field :=
  (List.finRange 8).map fun line => num ((s.settings.bindings.get e).get line).code

/-- LINK GET (R151). -/
def linkGetView (channel : Int) (s : State) : Response :=
  match index 8 channel with
  | none => refuse .range
  | some e =>
    let c := s.settings.events.get e
    .ok ([flag c.enabled, count c.kind.code, parameterField c.parameter] ++ bindingFields s e ++
      [count (s.links.counts.get e)])

/-! ## Meanings -/

/-- LINE SET (R150). -/
def execLineSet (p : Port) (lines : Int) (s : State) : Host.Outcome State Fault Refusal :=
  command (.lineSet p lines) p (lineSetBlock lines) s

/-- LINE CLEAR (R150). -/
def execLineClear (p : Port) (lines : Int) (s : State) : Host.Outcome State Fault Refusal :=
  command (.lineClear p lines) p (lineClearBlock lines) s

/-- LINE TOGGLE (R150). -/
def execLineToggle (p : Port) (lines : Int) (s : State) : Host.Outcome State Fault Refusal :=
  command (.lineToggle p lines) p (lineToggleBlock lines) s

/-- LINE GET (R151). -/
def execLineGet (p : Port) (s : State) : Host.Outcome State Fault Refusal :=
  command (.lineGet p) p (reading lineGetView) s

/-- LINK GET (R151). -/
def execLinkGet (p : Port) (channel : Int) (s : State) : Host.Outcome State Fault Refusal :=
  command (.linkGet p channel) p (reading (linkGetView channel)) s

end Sys2Proof.Machine
end

