-- ==== Sys2Proof/Machine/NoticeUnit.lean ====
section
/-!
DEFINITION. The notice unit's commands (R174, R175): the write of a port's mask, and the read that clears a port's record.
How a post acts stands in Flags.lean.
-/

namespace Sys2Proof.Machine

/-- A scope set as NOTICE READ returns it: 0 where its kind is not pending (R175). -/
def scopeField {n : Nat} (r : PortNotices) (kind : Nat) (set : BitVec n) : Field :=
  num (if r.kinds.getLsbD kind then maskField set else 0)

/-- The eight fields of NOTICE READ (R175). -/
def noticeFields (r : PortNotices) : List Field :=
  [num (maskField r.kinds), scopeField r 3 r.overrideChanged, scopeField r 4 r.overrideEnded,
    scopeField r 5 r.zoneSensor, scopeField r 6 r.frost, scopeField r 9 r.noPath, scopeField r 7 r.valveFault,
    scopeField r 14 r.bankLost]

/-- NOTICE READ (R175): the record is returned and cleared; the mask stays. -/
def noticeReadBlock (p : Port) (s : State) : State × Response :=
  ({ s with notices := s.notices.put p (emptyNotices (s.notices.of p).mask) }, .ok (noticeFields (s.notices.of p)))

/-- A port's record under a new mask (R174). -/
def PortNotices.withMask (r : PortNotices) (mask : KindSet) : PortNotices := { r with mask := mask }

/-- NOTICE MASK (R174). -/
def noticeMaskBlock (p : Port) (mask : Int) (s : State) : State × Response :=
  if within 0 65535 mask then
    let r := (s.notices.of p).withMask (BitVec.ofInt 16 mask)
    ({ s with notices := s.notices.put p r }, .ok [num mask, flag r.attention])
  else (s, refuse .range)

/-! ## Meanings -/

/-- NOTICE READ (R175). -/
def execNoticeRead (p : Port) (s : State) : Host.Outcome State Fault Refusal :=
  command (.noticeRead p) p (noticeReadBlock p) s

/-- NOTICE MASK (R174). -/
def execNoticeMask (p : Port) (mask : Int) (s : State) : Host.Outcome State Fault Refusal :=
  command (.noticeMask p mask) p (noticeMaskBlock p mask) s

end Sys2Proof.Machine
end

