-- ==== Sys2Proof/Machine/Overrides.lean ====
section
/-!
DEFINITION. The override table's commands (R39 to R49): placing, holding, releasing and reading overrides, with eviction
in LRU order.
-/

namespace Sys2Proof.Machine

/-- Tell a slot's origin port that the other port has written or removed it (R43, R46, R48). -/
def postChangedBy (p : Port) (o : Slot) (s : State) : State :=
  if o.origin = p then s else post o.origin (.overrideChanged (zoneSet o.zone)) s

/-- The slot that eviction picks: the lowest in LRU order whose kind is not HOLD (R44). -/
def victim (slots : List Slot) : Option Slot := slots.reverse.find? fun o => !o.isHold

/-- Whether a creating command is refused FULL: all eight slots are occupied and none can be evicted (R42, R44). -/
def tableFull (s : State) : Bool :=
  decide (Config.slotCount ≤ s.overrides.slots.length) && (victim s.overrides.slots).isNone

/-- The field of the evicted zone: 16 when none was evicted (R42). -/
def evictedField (z : Option (Fin 16)) : Field :=
  match z with
  | some z => count z.val
  | none => num 16

/-- The zone that creating a slot evicts, if any (R44). -/
def evicts (s : State) : Option (Fin 16) :=
  if Config.slotCount ≤ s.overrides.slots.length then (victim s.overrides.slots).map Slot.zone else none

/-- Evict the victim, telling its origin port whichever port commands (R44). -/
def evict (s : State) : State :=
  match victim s.overrides.slots with
  | some v => post v.origin (.overrideChanged (zoneSet v.zone)) (putSlots (withoutZone s.overrides.slots v.zone) s)
  | none => s

/-- Make room for a new slot where the table is full (R44). -/
def makeRoom (s : State) : State := if Config.slotCount ≤ s.overrides.slots.length then evict s else s

/-- A slot enters, or moves to, the top (R40). -/
def putOnTop (o : Slot) (s : State) : State := putSlots (o :: withoutZone s.overrides.slots o.zone) s

/-- The slot that a command of port p writes (R43, R44, R46, R47). -/
def writtenSlot (p : Port) (z : Fin 16) (sp : Option Int) (k : Kind) (s : State) : Slot where
  zone := z
  setpoint := sp
  kind := k
  origin := p
  created := s.clock.now

/-- Write a zone's slot: in place and to the top where the zone has one (R43, R46), otherwise as a new slot at the top,
with eviction where the table is full (R44, R47). -/
def writeSlot (p : Port) (z : Fin 16) (sp : Option Int) (k : Kind) (s : State) : State × Response :=
  match slotOf s z with
  | some o =>
    (postChangedBy p o (putOnTop (writtenSlot p z sp k s) s), .ok [num (setpointField sp), num 16])
  | none =>
    if tableFull s then (s, refuse .full)
    else (putOnTop (writtenSlot p z sp k s) (makeRoom s), .ok [num (setpointField sp), evictedField (evicts s)])

/-- The end fields of OVR SET, both present and in range (R42). -/
def endOf (endDay endMinute : Option Int) : Option WeekTime :=
  match endDay, endMinute with
  | some d, some m =>
    match index 7 d, index 1440 m with
    | some d, some m => some ⟨d.val, m.val⟩
    | _, _ => none
  | _, _ => none

/-- OVR SET (R42): ranges, clock, room. The end fields of NEXT and HOLD are not looked at. -/
def ovrSetBlock (p : Port) (zone setpoint kind : Int) (endDay endMinute : Option Int) (s : State) : State × Response :=
  match index 16 zone with
  | none => (s, refuse .range)
  | some z =>
    if kind = 0 then writeSlot p z (setpointOf setpoint) .next s
    else if kind = 2 then writeSlot p z (setpointOf setpoint) .hold s
    else if kind = 1 then
      match endOf endDay endMinute, s.clock.now with
      | none, _ => (s, refuse .range)
      | some _, none => (s, refuse .clock)
      | some t, some now => writeSlot p z (setpointOf setpoint) (.untilTime t (distanceToEnd now t)) s
    else (s, refuse .range)

/-- The setpoint that OVR HOLD stores (R46, R47): the given one; the slot's own; or the scheduled target as it stands. -/
def heldSetpoint (s : State) (z : Fin 16) (setpoint : Option Int) : Option Int :=
  match setpoint with
  | some v => setpointOf v
  | none =>
    match slotOf s z with
    | some o => o.setpoint
    | none => (scheduledTarget s z).setpoint

/-- OVR HOLD (R46, R47). -/
def ovrHoldBlock (p : Port) (zone : Int) (setpoint : Option Int) (s : State) : State × Response :=
  match index 16 zone with
  | none => (s, refuse .range)
  | some z => writeSlot p z (heldSetpoint s z setpoint) .hold s

/-- OVR RELEASE (R48). -/
def ovrReleaseBlock (p : Port) (zone : Int) (s : State) : State × Response :=
  match index 16 zone with
  | none => (s, refuse .range)
  | some z =>
    match slotOf s z with
    | some o => (postChangedBy p o (putSlots (withoutZone s.overrides.slots z) s), .ok [num 1])
    | none => (s, .ok [num 0])

/-- The kind of a slot on a port, with its end day, end minute and minutes remaining (R49). -/
def kindFields : Kind → List Field
  | .next => [num 0, num 0, num 0, num 0]
  | .untilTime finish remaining => [num 1, count finish.day, count finish.minute, count remaining]
  | .hold => [num 2, num 0, num 0, num 0]

/-- A slot's setpoint, kind, end, minutes remaining and origin (R49, R168). -/
def slotFields (o : Slot) : List Field :=
  [num (setpointField o.setpoint)] ++ kindFields o.kind ++ [num (portCode o.origin)]

/-- OVR LIST (R49). -/
def ovrListView (position : Option Int) (s : State) : Response :=
  match position with
  | none => .ok (count s.overrides.slots.length :: s.overrides.slots.map fun o => count o.zone.val)
  | some v =>
    match index 8 v with
    | none => refuse .range
    | some i =>
      match s.overrides.slots[i.val]? with
      | none => refuse .notFound
      | some o => .ok ([count o.zone.val] ++ slotFields o ++ timeFields o.created)

/-! ## Meanings -/

/-- OVR SET (R42 to R45). -/
def execOvrSet (p : Port) (zone setpoint kind : Int) (endDay endMinute : Option Int) (s : State) :
    Host.Outcome State Fault Refusal :=
  command (.ovrSet p zone setpoint kind endDay endMinute) p (ovrSetBlock p zone setpoint kind endDay endMinute) s

/-- OVR HOLD (R46, R47). -/
def execOvrHold (p : Port) (zone : Int) (setpoint : Option Int) (s : State) : Host.Outcome State Fault Refusal :=
  command (.ovrHold p zone setpoint) p (ovrHoldBlock p zone setpoint) s

/-- OVR RELEASE (R48). -/
def execOvrRelease (p : Port) (zone : Int) (s : State) : Host.Outcome State Fault Refusal :=
  command (.ovrRelease p zone) p (ovrReleaseBlock p zone) s

/-- OVR LIST (R49). -/
def execOvrList (p : Port) (position : Option Int) (s : State) : Host.Outcome State Fault Refusal :=
  command (.ovrList p position) p (reading (ovrListView position)) s

end Sys2Proof.Machine
end

