-- ==== Sys2Proof/Machine/Valves.lean ====
section
/-!
DEFINITION. The valve driver (R99 to R115): from delivered demand to duty, the drive cycle, the position estimate, the
states under both confirmations, faults, holds and the flow-path report.
-/

namespace Sys2Proof.Machine

/-! ## From demand to duty -/

/-- The duty that a delivered demand asks for (R101, step 1). -/
def dutyOf (delivered : Int) : Nat := (divRound (delivered * Config.cycleSeconds) 4096).toNat

/-- A nonzero duty clamped into the channel's minimum and maximum duty (R101, step 2). -/
def ValveSettings.clampDuty (c : ValveSettings) (d : Nat) : Nat :=
  if d = 0 then 0 else max c.minDuty (min c.maxDuty d)

/-- The demand duty under a demand update (R101). -/
def ValveSettings.demandDuty (c : ValveSettings) (d : Demand) : Nat :=
  match c.zone with
  | none => 0
  | some z => c.clampDuty (dutyOf (d.delivered.get z))

/-- The hold duty (R102). -/
def ValveChannel.holdDuty (v : ValveChannel) (c : ValveSettings) : Nat := if v.hold then c.maxDuty else 0

/-- The output duty that the channel's fields give (R102). -/
def ValveChannel.dutyNow (v : ValveChannel) (c : ValveSettings) : Nat :=
  if v.state = .fault then 0 else max v.demandDuty (v.holdDuty c)

/-! ## The drive cycle -/

/-- The cycle stopped with the drive line OFF (R103). -/
def ValveChannel.stopCycle (v : ValveChannel) : ValveChannel :=
  { v with running := false, cycleTime := 0, appliedDuty := 0, drive := false }

/-- A new cycle at once under a duty (R103). -/
def ValveChannel.startCycle (v : ValveChannel) (duty : Nat) : ValveChannel :=
  { v with running := true, cycleTime := 0, appliedDuty := duty, drive := true }

/-- A change of output duty with its effect on the cycle (R103), and on the position estimate of a channel whose open or
close time is 0 (R104). -/
def ValveChannel.drivenAt (v : ValveChannel) (c : ValveSettings) (duty : Nat) : ValveChannel :=
  if v.outputDuty = 0 ∧ 0 < duty then
    { v.startCycle duty with
      outputDuty := duty, position := if c.openTime = 0 then Config.fullTravel else v.position }
  else if 0 < v.outputDuty ∧ duty = 0 then
    { v.stopCycle with outputDuty := 0, position := if c.closeTime = 0 then 0 else v.position }
  else { v with outputDuty := duty }

/-! ## States -/

/-- The state of a channel with output duty 0 (R105, R106). -/
def undriven (h : Nat) : ValveState := if h = 0 then .closed else .closing

/-- A SWITCH channel that is OPENING (R106): the confirm timer runs while h stands at 60,000. -/
def ValveChannel.waitForSwitch (v : ValveChannel) : ValveChannel :=
  { v with
    state := .opening
    confirmTimer :=
      if v.position = Config.fullTravel then
        (if v.state = .opening then some (v.confirmTimer.getD 0) else some 0)
      else none }

/-- A SWITCH channel enters OPEN (R106). -/
def ValveChannel.confirmOpen (v : ValveChannel) : ValveChannel :=
  { v with state := .opened, position := Config.fullTravel, confirmTimer := none }

/-- The state derived again from the output duty, h, the end switch and the confirmation (R105, R106). FAULT is left by
VALVE CLEAR alone (R108). -/
def ValveChannel.derive (v : ValveChannel) (c : ValveSettings) : ValveChannel :=
  if v.state = .fault then v
  else if v.outputDuty = 0 then { v with state := undriven v.position, confirmTimer := none }
  else
    match c.confirm with
    | .timer =>
      { v with state := if v.position = Config.fullTravel then .opened else .opening, confirmTimer := none }
    | .switch => if v.endSwitch then v.confirmOpen else v.waitForSwitch

/-- The output duty formed again, with every effect it has on the channel (R102 to R106). -/
def ValveChannel.redrive (v : ValveChannel) (c : ValveSettings) : ValveChannel :=
  (v.drivenAt c (v.dutyNow c)).derive c

/-- A channel enters FAULT (R108). -/
def ValveChannel.enterFault (v : ValveChannel) : ValveChannel :=
  { v.stopCycle with state := .fault, outputDuty := 0, position := 0, confirmTimer := none }

/-- The demand and output duty formed again from the driver's copy of the demand update (R100, R101). -/
def ValveChannel.recompute (v : ValveChannel) (c : ValveSettings) (d : Demand) : ValveChannel :=
  { v with demandDuty := c.demandDuty d }.redrive c

/-! ## The update -/

/-- The least number of steps of n that cover the full travel, as a step: 60,000 ÷ n rounded up (R104). -/
def travelStep (n : Nat) : Nat := (Config.fullTravel + n - 1) / n

/-- The position estimate after one update (R104). A channel in FAULT is not stepped. -/
def ValveChannel.step (v : ValveChannel) (c : ValveSettings) : ValveChannel :=
  if v.state = .fault then v
  else
    { v with position :=
        if 0 < v.outputDuty then
          (if c.openTime = 0 then Config.fullTravel else min Config.fullTravel (v.position + travelStep c.openTime))
        else if c.closeTime = 0 then 0
        else v.position - travelStep c.closeTime }

/-- The confirm timer of a channel that stays OPENING with the timer running (R106): it advances by one, and at 120 the
channel enters FAULT. -/
def ValveChannel.advanceConfirm (v : ValveChannel) (before : ValveChannel) : ValveChannel :=
  match before.confirmTimer, v.confirmTimer with
  | some _, some n =>
    if Config.confirmLimit ≤ n + 1 then v.enterFault else { v with confirmTimer := some (n + 1) }
  | _, _ => v

/-- One channel through one update (R104, R106, R110): the hold flag, the step of h, the state, the confirm timer. -/
def ValveChannel.update (v : ValveChannel) (c : ValveSettings) (held : Bool) : ValveChannel :=
  (((({ v with hold := held }.redrive c).step c).derive c).advanceConfirm v)

/-! ## The driver -/

/-- The driver's channels replaced. -/
def setChannels (channels : Tab 16 ValveChannel) (s : State) : State :=
  { s with valves := { s.valves with channels := channels } }

/-- One valve channel changed. -/
def modValve (ch : Fin 16) (f : ValveChannel → ValveChannel) (s : State) : State :=
  setChannels (s.valves.channels.modify ch f) s

/-- Whether a state provides a path (R111). -/
def ValveState.passes : ValveState → Bool
  | .opened | .closing => true
  | .closed | .opening | .fault => false

/-- Whether a channel assigned to a zone provides a path (R111). -/
def zoneHasPath (s : State) (z : Fin 16) : Bool :=
  (List.finRange 16).any fun v =>
    decide ((s.settings.valves.get v).zone = some z) && (s.valves.channels.get v).state.passes

/-- The flow-path report recomputed (R111). -/
def computeReport (s : State) : PathReport where
  path := setOf fun v => (s.valves.channels.get v).state.passes
  ready := setOf fun z => s.valves.demand.calling.getLsbD z.val && zoneHasPath s z

/-- The driver's record of the report it last handed on. -/
def setReport (r : PathReport) (s : State) : State := { s with valves := { s.valves with report := r } }

/-- Recompute the report and hand it to the firing controller if it differs from the one last handed on (R111). -/
def handReport (s : State) : State :=
  if computeReport s = s.valves.report then s else takeReport (computeReport s) (setReport (computeReport s) s)

/-- The demand update reaches the valve driver (R94, R101): its copy is replaced and every channel's duty formed. -/
def applyDemand (d : Demand) (s : State) : State :=
  { s with valves := { s.valves with
      demand := d
      channels := Tab.ofFn fun v => (s.valves.channels.get v).recompute (s.settings.valves.get v) d } }

/-- The channels of a set have entered FAULT (R108): one event each, and one notice for them all. -/
def reportFaults (first : List (Fin 16)) (faulted : ChannelSet) (s : State) : State :=
  if faulted = 0 then s else postBoth (.valveFault faulted) (raiseEach .valveFault (arranged first faulted) s)

/-- Every channel through one update (R104, R110). -/
def updatedChannels (s : State) : Tab 16 ValveChannel :=
  Tab.ofFn fun v =>
    (s.valves.channels.get v).update (s.settings.valves.get v) (s.valves.latestHold.getLsbD v.val)

/-- The channels that are in FAULT now and were not before. -/
def newFaults (before after : Tab 16 ValveChannel) : ChannelSet :=
  setOf fun v => decide ((before.get v).state ≠ .fault) && decide ((after.get v).state = .fault)

/-- Faults are reported and the report handed on (R108, R111). The driver and the controller act independently, so the
matrix may take VALVE_FAULT before, between or after the events that the report makes the controller raise (R149, log
entry 4). -/
def faultsThenReport (order : Order) (faulted : ChannelSet) (s : State) : State :=
  takeInTurns order.turns (handReport (reportFaults order.indices faulted s))

/-- The update of the driver's timebase (R104, R106, R110): its faults are reported, and its changes of state are handed
on as one report. -/
def valveUpdateBlock (order : Order) (s : State) : State :=
  faultsThenReport order (newFaults s.valves.channels (updatedChannels s)) (setChannels (updatedChannels s) s)

/-- One channel enters FAULT (R108). -/
def faultChannel (ch : Fin 16) (s : State) : State :=
  withOrder (fun order s => faultsThenReport order (single 16 ch.val) (modValve ch ValveChannel.enterFault s)) s

/-! ## Events and commands -/

/-- Whether the confirm timer of a channel runs: SWITCH, OPENING with h at 60,000 (R106). -/
def confirming (ch : Fin 16) (s : State) : Bool :=
  decide ((s.settings.valves.get ch).confirm = .switch) && decide ((s.valves.channels.get ch).state = .opening) &&
    (s.valves.channels.get ch).confirmTimer.isSome

/-- The confirm timer reaches 120 (R106). -/
def confirmTimeoutBlock (ch : Fin 16) (s : State) : State := if confirming ch s then faultChannel ch s else s

/-- The end-switch field records the level of the input (R107). -/
def setEndSwitch (ch : Fin 16) (closed : Bool) (s : State) : State :=
  modValve ch (fun v => { v with endSwitch := closed }) s

/-- What an end-switch edge does on a SWITCH channel (R107). -/
def endSwitchBlock (ch : Fin 16) (closed : Bool) (s : State) : State :=
  match (s.settings.valves.get ch).confirm with
  | .timer => s
  | .switch =>
    match (s.valves.channels.get ch).state, closed with
    | .opening, true => handReport (modValve ch ValveChannel.confirmOpen s)
    | .opened, false => faultChannel ch s
    | .opening, false => s
    | .opened, true => s
    | .closed, _ => s
    | .closing, _ => s
    | .fault, _ => s

/-- A new drive cycle starts (R103): the applied duty takes the output duty then in force. -/
def cycleStartBlock (ch : Fin 16) (s : State) : State :=
  modValve ch (fun v => if v.running then v.startCycle v.outputDuty else v) s

/-- The cycle time reaches the applied duty (R103): the drive line goes OFF, unless the applied duty is 63. -/
def driveLineOffBlock (ch : Fin 16) (s : State) : State :=
  modValve ch (fun v =>
    if v.running ∧ v.drive ∧ v.appliedDuty < Config.cycleSeconds then
      { v with cycleTime := v.appliedDuty, drive := false }
    else v) s

/-- A channel taken out of FAULT (R109). -/
def ValveChannel.cleared (v : ValveChannel) (c : ValveSettings) : ValveChannel :=
  { v with state := .closed, position := 0, confirmTimer := none }.redrive c

/-- VALVE CLEAR (R109). -/
def valveClearBlock (channel : Int) (s : State) : State × Response :=
  match index 16 channel with
  | none => (s, refuse .range)
  | some ch =>
    if (s.valves.channels.get ch).state = .fault then
      (handReport (modValve ch (fun v => v.cleared (s.settings.valves.get ch)) s), .ok [num 1])
    else (s, .ok [num 0])

/-- The code of a valve state (R112). -/
def ValveState.code : ValveState → Int
  | .closed => 0
  | .opening => 1
  | .opened => 2
  | .closing => 3
  | .fault => 4

/-- The code of a confirmation (R112). -/
def Confirm.code : Confirm → Int
  | .timer => 0
  | .switch => 1

/-- A zone assignment on a port: 16 for NONE (R112). -/
def zoneField (z : Option (Fin 16)) : Field := count ((z.map Fin.val).getD 16)

/-- VALVE GET (R112). -/
def valveGetView (channel : Int) (s : State) : Response :=
  match index 16 channel with
  | none => refuse .range
  | some ch =>
    let v := s.valves.channels.get ch
    let c := s.settings.valves.get ch
    .ok [zoneField c.zone, num v.state.code, count v.demandDuty, count v.outputDuty, count v.appliedDuty, flag v.hold,
      flag v.drive, count v.cycleTime, count v.position, flag v.endSwitch, count (v.confirmTimer.getD 0),
      flag v.state.passes, count c.minDuty, count c.maxDuty, count c.openTime, count c.closeTime, num c.confirm.code]

/-! ## Meanings -/

/-- VALVE CLEAR (R109). -/
def execValveClear (p : Port) (channel : Int) (s : State) : Host.Outcome State Fault Refusal :=
  command (.valveClear p channel) p (valveClearBlock channel) s

/-- VALVE GET (R112). -/
def execValveGet (p : Port) (channel : Int) (s : State) : Host.Outcome State Fault Refusal :=
  command (.valveGet p channel) p (reading (valveGetView channel)) s

/-- The update of the driver's timebase (R104). -/
def execValveUpdate (s : State) : Host.Outcome State Fault Refusal := event (withOrder valveUpdateBlock) s

/-- The confirm timeout of a channel (R106). -/
def execConfirmTimeout (ch : Fin 16) (s : State) : Host.Outcome State Fault Refusal :=
  event (confirmTimeoutBlock ch) s

/-- An edge of a channel's end switch (R107). A level that the input already has is no edge. -/
def execEndSwitchEdge (ch : Fin 16) (closed : Bool) (s : State) : Host.Outcome State Fault Refusal :=
  lineEvent (setEndSwitch ch closed)
    (if (s.valves.channels.get ch).endSwitch = closed then id else endSwitchBlock ch closed) s

/-- A new drive cycle of a channel (R103). -/
def execCycleStart (ch : Fin 16) (s : State) : Host.Outcome State Fault Refusal := event (cycleStartBlock ch) s

/-- The drive line of a channel goes OFF within its cycle (R103). -/
def execDriveLineOff (ch : Fin 16) (s : State) : Host.Outcome State Fault Refusal := event (driveLineOffBlock ch) s

end Sys2Proof.Machine
end

