-- ==== Sys2Proof/Machine/Regulator.lean ====
section
/-!
DEFINITION. The zone regulator (R78 to R98): the pass with its frost latches, its PI computation, the delivered demands,
the demand update and the calling events.
-/

namespace Sys2Proof.Machine

/-! ## The inputs of a pass -/

/-- A zone's inputs at step 3 of a pass (R82): the effective setpoint, and the temperature with its status. -/
structure ZoneInput where
  setpoint : Option Int
  temp : Option Int
  status : TempStatus
deriving DecidableEq, Repr

/-- The inputs of a zone, from the override table and the last publication (R82). -/
def zoneInput (s : State) (z : Fin 16) : ZoneInput where
  setpoint := s.overrides.effective.get z
  temp := (s.capture.publication.zones.get z).temp
  status := (s.capture.publication.zones.get z).status

/-- The temperature that a pass regulates to and examines the frost latch with: none under INVALID (R82). -/
def ZoneInput.known (i : ZoneInput) : Option Int :=
  match i.status with
  | .invalid => none
  | .valid => i.temp
  | .held => i.temp

/-! ## The computation of one zone -/

/-- The frost latch after its examination (R84). -/
def frostLatch (frost : Int) (latch : Bool) (temp : Option Int) : Bool :=
  match temp with
  | none => latch
  | some t => if t < frost - 50 then true else if frost + 100 ≤ t then false else latch

/-- The delivered demand of an enabled zone (R92). -/
def deliveredOf (latch priority : Bool) (demand : Int) : Int :=
  if latch then Config.fullDemand else if priority then 0 else demand

/-- A disabled zone's record (R83). Its calling field is brought up to date at step 6. -/
def ZoneRecord.disabled (r : ZoneRecord) (i : ZoneInput) : ZoneRecord :=
  { r with
    outcome := .disabled, integral := 0, demand := 0, delivered := 0, frost := false, lastError := 0, lastP := 0,
    lastIncrement := 0, setpointUsed := none, tempUsed := i.known, statusUsed := i.status }

/-- The record of an enabled zone without a temperature (R86). -/
def ZoneRecord.fallback (r : ZoneRecord) (c : ZoneSettings) (setpoint : Int) (i : ZoneInput) (priority : Bool) :
    ZoneRecord :=
  { r with
    outcome := .fallback, demand := c.fallback, delivered := deliveredOf r.frost priority c.fallback, lastError := 0,
    lastP := 0, lastIncrement := 0, setpointUsed := some setpoint, tempUsed := none, statusUsed := i.status }

/-- The error (R87). -/
def errorOf (setpoint temp : Int) : Int := clamp (-2000) 2000 (setpoint - temp)

/-- The proportional term (R87). -/
def proportional (e band : Int) : Int := divRound (e * 4096) band

/-- The integral increment (R88). -/
def increment (e band integralTime : Int) : Int :=
  if integralTime = 0 then 0 else divRound (e * 1048576) (band * integralTime)

/-- The provisional integral (R88, R89). -/
def provisional (integral inc integralTime : Int) : Int :=
  if integralTime = 0 then 0 else clamp 0 Config.integralMax (integral + inc)

/-- The provisional demand under an integral (R89). -/
def demandUnder (p integral : Int) : Int := p + divRound integral 256

/-- Conditional integration (R90): whether the provisional integral is discarded. -/
def discards (u inc : Int) : Bool :=
  (decide (Config.fullDemand < u) && decide (0 < inc)) || (decide (u < 0) && decide (inc < 0))

/-- The integral and the provisional demand after conditional integration (R89, R90). -/
def integrate (integral p inc integralTime : Int) : Int × Int :=
  let next := provisional integral inc integralTime
  if discards (demandUnder p next) inc then (integral, demandUnder p integral) else (next, demandUnder p next)

/-- The record of a regulated zone (R87 to R92). The integral stands still while priority is in force (R91). -/
def ZoneRecord.regulated (r : ZoneRecord) (c : ZoneSettings) (setpoint temp : Int) (i : ZoneInput) (priority : Bool) :
    ZoneRecord :=
  let e := errorOf setpoint temp
  let p := proportional e c.band
  let inc := increment e c.band c.integralTime
  let result := integrate r.integral p inc c.integralTime
  let u := clamp 0 Config.fullDemand result.2
  let latch := frostLatch c.frost r.frost (some temp)
  { r with
    outcome := .regulated, integral := if priority then r.integral else result.1, demand := u,
    delivered := deliveredOf latch priority u, frost := latch, lastError := e, lastP := p, lastIncrement := inc,
    setpointUsed := some setpoint, tempUsed := some temp, statusUsed := i.status }

/-- A zone's computation in step 4 of a pass (R80). -/
def ZoneRecord.compute (r : ZoneRecord) (c : ZoneSettings) (i : ZoneInput) (priority : Bool) : ZoneRecord :=
  match i.setpoint, i.known with
  | none, _ => r.disabled i
  | some sp, none => r.fallback c sp i priority
  | some sp, some t => r.regulated c sp t i priority

/-- A zone's calling state after step 6 (R93). -/
def ZoneRecord.recall (r : ZoneRecord) : ZoneRecord := { r with calling := decide (0 < r.delivered) }

/-! ## The pass -/

/-- The regulator's record of a zone. -/
def zoneRecord (s : State) (z : Fin 16) : ZoneRecord := s.regulator.zones.get z

/-- Steps 1, 2 and 4 of a pass, without what they raise (R80, R81): the pass count, priority-in-force and every zone. -/
def computedRegulator (s : State) : Regulator where
  zones := Tab.ofFn fun z =>
    (zoneRecord s z).compute (s.settings.zones.get z) (zoneInput s z) s.firing.priority.isSome
  timer := 0
  priorityInForce := s.firing.priority.isSome
  passCount := (s.regulator.passCount + 1) % 65536

/-- The regulator's records replaced. -/
def setRegulator (r : Regulator) (s : State) : State := { s with regulator := r }

/-- The frost event of one zone's computation, with its notice (R85). -/
def frostEvent (before after : Tab 16 ZoneRecord) (s : State) (z : Fin 16) : State :=
  match (before.get z).frost, (after.get z).frost with
  | false, true => postBoth (.frost (zoneSet z)) (raiseFor .frostOn z s)
  | true, false => raiseFor .frostOff z s
  | true, true => s
  | false, false => s

/-- The calling event of one zone at step 6 (R93). -/
def callEvent (before after : Tab 16 ZoneRecord) (s : State) (z : Fin 16) : State :=
  match (before.get z).calling, decide (0 < (after.get z).delivered) with
  | false, true => raiseFor .zoneCallOn z s
  | true, false => raiseFor .zoneCallOff z s
  | true, true => s
  | false, false => s

/-- Step 6 of a pass (R93): every zone's calling field, with its event, in ascending order. -/
def bringUpCalling (before after : Tab 16 ZoneRecord) (s : State) : State :=
  setRegulator { s.regulator with zones := Tab.ofFn fun z => (s.regulator.zones.get z).recall }
    ((List.finRange 16).foldl (callEvent before after) s)

/-- The demand update of a set of records (R94). -/
def demandUpdate (zones : Tab 16 ZoneRecord) : Demand where
  delivered := Tab.ofFn fun z => (zones.get z).delivered
  calling := setOf fun z => decide (0 < (zones.get z).delivered)

/-- Step 5 of a pass (R94, R118, R129): the demand update is taken by the valve driver and the firing controller, and the
report it causes by the controller, in the order that the step takes. The controller acts on each whole, at the event that
it is (R118, R122, R126), so a condition that stands only between the two can enter or end FIRING in one order and not in
the other, where R118 says that the state is the same in either order (DEDUCED, log entry 29). -/
def handDemand (order : PassOrder) (d : Demand) (s : State) : State :=
  let stood := s.firing.heating
  match order with
  | .controllerFirst => handReport (applyDemand d (takeDemand stood d s))
  | .driverFirst => handReport (takeDemand stood d (applyDemand d s))
  | .reportFirst => takeDemand stood d (handReport (applyDemand d s))

/-- A pass (R80): the frost events of step 4 reach the matrix before the demand update of step 5 is handed on; the calling
events of step 6 and the events that the update makes the firing controller raise come from blocks that act
independently, and the matrix takes them in turns (R149). -/
def passBlock (order : Order) (s : State) : State :=
  let before := s.regulator.zones
  let after := (computedRegulator s).zones
  let s := (List.finRange 16).foldl (frostEvent before after) (setRegulator (computedRegulator s) s)
  takeInTurns order.turns
    (bringUpCalling before after (handDemand order.pass (demandUpdate after) (takeRaised s)))

/-! ## Reading the regulator -/

/-- The code of a pass outcome (R95). -/
def PassOutcome.code : PassOutcome → Int
  | .disabled => 0
  | .fallback => 1
  | .regulated => 2

/-- The code of a temperature status (R95, R167, R168). -/
def TempStatus.code : TempStatus → Int
  | .invalid => 0
  | .valid => 1
  | .held => 2

/-- The seconds to the next pass (R95). -/
def secondsToPass (s : State) : Nat := 60 - s.regulator.timer

/-- REG GET (R95). The integral, P and the increment take two words each on the two-wire port (R165). -/
def regGetView (zone : Int) (s : State) : Response :=
  match index 16 zone with
  | none => refuse .range
  | some z =>
    let r := zoneRecord s z
    .ok [num r.outcome.code, num (setpointField r.setpointUsed), num (r.tempUsed.getD 0), num r.statusUsed.code,
      num r.lastError, .wide r.lastP, .wide r.lastIncrement, .wide r.integral, num r.demand, num r.delivered,
      flag r.frost, flag r.calling, flag s.regulator.priorityInForce, count s.regulator.passCount,
      count (secondsToPass s)]

/-! ## Meanings -/

/-- REG GET (R95). -/
def execRegGet (p : Port) (zone : Int) (s : State) : Host.Outcome State Fault Refusal :=
  command (.regGet p zone) p (reading (regGetView zone)) s

/-- The pass of a period expiry (R80). -/
def execPass (s : State) : Host.Outcome State Fault Refusal := event (withOrder passBlock) s

end Sys2Proof.Machine
end

