-- ==== Sys2Proof/Machine/Schedule.lean ====
section
/-!
DEFINITION. The program store's commands (R14 to R38): edits under a revision guard, reads, copies, the active bank and
timed programs, and the store's evaluation at the week clock's events (R20, R21, R32).
-/

namespace Sys2Proof.Machine

/-! ## The store at the clock's events -/

/-- The remembered effective entries replaced. -/
def setRemembered (next : Fin 17 → Option Entry) (s : State) : State :=
  { s with program := { s.program with remembered := Tab.ofFn next } }

/-- One zone crosses: SWITCH_CROSS is raised for the matrix and ends the zone's NEXT slot (R20, R50). -/
def crossZone (s : State) (z : Fin 16) : State := expireCrossed z (raiseFor .switchCross z s)

/-- Crossings are raised and the new results handed on (R20, R21). The zones cross in the order chosen, and the matrix
takes their events and those that the hot-water schedule state makes the firing controller raise in turns (R149). -/
def cross (order : Order) (crossed : Fin 17 → Bool) (next : Fin 17 → Option Entry) (s : State) : State :=
  let zones := arranged order.indices (setOf fun z => crossed (zoneList z))
  takeInTurns order.turns (zones.foldl crossZone (handOn (setRemembered next s)))

/-- The store's evaluation at a minute event (R20): a list crosses when one of its points starts at that day and minute;
on every other list the remembered entry stands. -/
def evaluateMinute (order : Order) (d m : Nat) (s : State) : State :=
  cross order (fun l => (startingAt (activeList s l) d m).isSome)
    (fun l =>
      match startingAt (activeList s l) d m with
      | some p => some ⟨p, d⟩
      | none => s.program.remembered.get l) s

/-- The store's evaluation at a jump-marked re-evaluation event (R21): a list crosses when its effective entry differs
from the remembered one. -/
def evaluateJump (order : Order) (d m : Nat) (s : State) : State :=
  cross order (fun l => !sameEntry (s.program.remembered.get l) (evaluate (activeList s l) d m))
    (fun l => evaluate (activeList s l) d m) s

/-- Whether a timed-program record returns at a minute event (R32). -/
def Timed.due (t : Timed) (m : Nat) : Bool := decide (t.days = 0) && decide (t.endMinute ≤ m)

/-- The program store's minute event (R20, R32): the timed return first; a return that changes the bank re-evaluates
silently and raises no crossing at that minute. -/
def storeMinute (order : Order) (d m : Nat) (s : State) : State :=
  match s.program.timed with
  | none => evaluateMinute order d m s
  | some t =>
    if t.due m then
      if t.returnBank = s.program.active then evaluateMinute order d m (setTimed none s)
      else changeBank order none t.returnBank (setTimed none s)
    else evaluateMinute order d m s

/-- The program store's midnight event (R32). -/
def storeMidnight (s : State) : State :=
  setTimed (s.program.timed.map fun t => { t with days := t.days - 1 }) s

/-! ## Edits -/

/-- The number of switch points in a bank's pool (R14). -/
def Bank.poolCount (b : Bank) : Nat := (b.lists.list.map List.length).sum

/-- A bank carries the saving marker while a save of it is in flight (R14, R177). -/
def saving (s : State) (b : Fin 4) : Bool :=
  match s.store.operation with
  | some ⟨.bank b' _, _⟩ => decide (b' = b)
  | some ⟨.config _, _⟩ => false
  | none => false

/-- The expected revision differs from the bank's (R23). -/
def isStale (s : State) (b : Fin 4) (revision : Option Int) : Bool :=
  match revision with
  | none => false
  | some r => r != ((s.program.banks.get b).revision : Int)

/-- A bank replaced in the program store. -/
def putBank (b : Fin 4) (bank : Bank) (s : State) : State :=
  { s with program := { s.program with banks := s.program.banks.set b bank } }

/-- The revision after a change (R23). -/
def nextRevision (r : Nat) : Nat := (r + 1) % 65536

/-- The accepted change to a bank's lists (R23). -/
def acceptChange (p : Port) (b : Fin 4) (lists : Lists) (s : State) : State :=
  post p.other .scheduleEdited
    (putBank b ⟨lists, nextRevision (s.program.banks.get b).revision, true⟩ s)

/-- Silent re-evaluation after a change to bank b, of the lists that satisfy q, where b is active (R22). -/
def afterEdit (b : Fin 4) (q : Fin 17 → Bool) (s : State) : State :=
  if b = s.program.active then silently q s else s

/-- One list of a bank replaced, as an accepted change with its silent re-evaluation (R22, R23). -/
def editList (p : Port) (b : Fin 4) (l : Fin 17) (points : List SwitchPoint) (s : State) : State :=
  afterEdit b (fun l' => decide (l' = l))
    (acceptChange p b ((s.program.banks.get b).lists.set l points) s)

/-- The revision field of a bank. -/
def revisionField (s : State) (b : Fin 4) : Field := count (s.program.banks.get b).revision

/-- A list of a bank. -/
def bankList (s : State) (b : Fin 4) (l : Fin 17) : List SwitchPoint := (s.program.banks.get b).lists.get l

/-- Whether a switch point stands before another in a list's order (R16). -/
def SwitchPoint.before (a b : SwitchPoint) : Bool :=
  decide (a.start < b.start) || (decide (a.start = b.start) && decide (lowestDay a.days < lowestDay b.days))

/-- The position a new switch point takes in a list (R16). -/
def placeFor (p : SwitchPoint) (l : List SwitchPoint) : Nat := (l.takeWhile fun q => q.before p).length

/-- The list with a new switch point in its place (R16). -/
def insertPoint (p : SwitchPoint) (l : List SwitchPoint) : List SwitchPoint :=
  (l.takeWhile fun q => q.before p) ++ p :: l.dropWhile fun q => q.before p

/-- Whether a list holds a point with the same start that shares a day (R16, R24). -/
def duplicates (l : List SwitchPoint) (p : SwitchPoint) : Bool :=
  l.any fun q => decide (q.start = p.start) && overlap q.days p.days

/-- Whether a point has exactly the given day set and start (R25). -/
def SwitchPoint.isAt (days : DaySet) (start : Nat) (q : SwitchPoint) : Bool :=
  decide (q.days = days) && decide (q.start = start)

/-- A start field (R24, R25). -/
def startOf (v : Int) : Option Nat := if within 0 1439 v then some v.toNat else none

/-- POINT ADD past its range checks: revision, duplicate, room, then the change (R23, R24). -/
def addPoint (p : Port) (b : Fin 4) (l : Fin 17) (point : SwitchPoint) (revision : Option Int) (s : State) :
    State × Response :=
  if isStale s b revision then (s, refuse .stale)
  else if duplicates (bankList s b l) point then (s, refuse .duplicate)
  else if Config.poolSize ≤ (s.program.banks.get b).poolCount then (s, refuse .full)
  else
    let t := editList p b l (insertPoint point (bankList s b l)) s
    (t, .ok [revisionField t b, count (placeFor point (bankList s b l))])

/-- POINT ADD (R24). -/
def pointAddBlock (p : Port) (bank list days start target : Int) (revision : Option Int) (s : State) :
    State × Response :=
  match index 4 bank, index 17 list, daySetOf days, startOf start with
  | some b, some l, some d, some m =>
    match targetOf l target with
    | some t => addPoint p b l ⟨d, m, t⟩ revision s
    | none => (s, refuse .range)
  | _, _, _, _ => (s, refuse .range)

/-- POINT DEL past its range checks (R23, R25). -/
def removePoint (p : Port) (b : Fin 4) (l : Fin 17) (days : DaySet) (start : Nat) (revision : Option Int) (s : State) :
    State × Response :=
  if isStale s b revision then (s, refuse .stale)
  else if (bankList s b l).any (SwitchPoint.isAt days start) then
    let t := editList p b l ((bankList s b l).eraseP (SwitchPoint.isAt days start)) s
    (t, .ok [revisionField t b])
  else (s, refuse .notFound)

/-- POINT DEL (R25). -/
def pointDelBlock (p : Port) (bank list days start : Int) (revision : Option Int) (s : State) : State × Response :=
  match index 4 bank, index 17 list, daySetOf days, startOf start with
  | some b, some l, some d, some m => removePoint p b l d m revision s
  | _, _, _, _ => (s, refuse .range)

/-- LIST CLEAR (R26). -/
def listClearBlock (p : Port) (bank list : Int) (revision : Option Int) (s : State) : State × Response :=
  match index 4 bank, index 17 list with
  | some b, some l =>
    if isStale s b revision then (s, refuse .stale)
    else
      let t := editList p b l [] s
      (t, .ok [revisionField t b, count (bankList s b l).length])
  | _, _ => (s, refuse .range)

/-- POINT GET (R27). -/
def pointGetView (bank list position : Int) (s : State) : Response :=
  match index 4 bank, index 17 list, index 256 position with
  | some b, some l, some i =>
    match (bankList s b l)[i.val]? with
    | some q =>
      .ok [num (maskField q.days), count q.start, num (targetField q.target), count (bankList s b l).length,
        revisionField s b]
    | none => refuse .notFound
  | _, _, _ => refuse .range

/-- BANK GET (R27). -/
def bankGetView (bank : Int) (s : State) : Response :=
  match index 4 bank with
  | some b =>
    .ok [revisionField s b, flag (s.program.banks.get b).dirty, count (s.program.banks.get b).poolCount,
      flag (saving s b), flag (decide (b = s.program.active))]
  | none => refuse .range

/-- BANK COPY (R28): range, revision of the destination, saving marker of the destination, then the change. -/
def bankCopyBlock (p : Port) (source destination : Int) (revision : Option Int) (s : State) : State × Response :=
  match index 4 source, index 4 destination with
  | some a, some b =>
    if isStale s b revision then (s, refuse .stale)
    else if saving s b then (s, refuse .busy)
    else
      let t := afterEdit b (fun _ => true) (acceptChange p b (s.program.banks.get a).lists s)
      (t, .ok [revisionField t b])
  | _, _ => (s, refuse .range)

/-! ## The active bank -/

/-- The active-bank field of a response (R30, R31, R33). -/
def activeField (s : State) : Field := count s.program.active.val

/-- BANK SELECT (R30). -/
def bankSelectBlock (p : Port) (bank : Int) (s : State) : State × Response :=
  match index 4 bank with
  | some b =>
    let t := withOrder (fun o s => changeBank o (some p) b (setTimed none s)) s
    (t, .ok [activeField t])
  | none => (s, refuse .range)

/-- BANK TIMED (R31): ranges, then the clock. -/
def bankTimedBlock (p : Port) (bank days endMinute : Int) (s : State) : State × Response :=
  match index 4 bank, startOf endMinute with
  | some b, some m =>
    if !within 1 99 days then (s, refuse .range)
    else if !s.clock.valid then (s, refuse .clock)
    else
      let t := withOrder (fun o s =>
        changeBank o (some p) b (setTimed (some ⟨b, s.program.active, days.toNat, m⟩) s)) s
      (t, .ok [activeField t])
  | _, _ => (s, refuse .range)

/-- BANK CANCEL (R33). -/
def bankCancelBlock (p : Port) (s : State) : State × Response :=
  match s.program.timed with
  | some r =>
    let t := withOrder (fun o s => changeBank o (some p) r.returnBank (setTimed none s)) s
    (t, .ok [activeField t])
  | none => (s, .ok [activeField s])

/-! ## Meanings -/

/-- POINT ADD (R24). -/
def execPointAdd (p : Port) (bank list days start target : Int) (revision : Option Int) (s : State) :
    Host.Outcome State Fault Refusal :=
  command (.pointAdd p bank list days start target revision) p
    (pointAddBlock p bank list days start target revision) s

/-- POINT DEL (R25). -/
def execPointDel (p : Port) (bank list days start : Int) (revision : Option Int) (s : State) :
    Host.Outcome State Fault Refusal :=
  command (.pointDel p bank list days start revision) p (pointDelBlock p bank list days start revision) s

/-- LIST CLEAR (R26). -/
def execListClear (p : Port) (bank list : Int) (revision : Option Int) (s : State) :
    Host.Outcome State Fault Refusal :=
  command (.listClear p bank list revision) p (listClearBlock p bank list revision) s

/-- POINT GET (R27). -/
def execPointGet (p : Port) (bank list position : Int) (s : State) : Host.Outcome State Fault Refusal :=
  command (.pointGet p bank list position) p (reading (pointGetView bank list position)) s

/-- BANK GET (R27). -/
def execBankGet (p : Port) (bank : Int) (s : State) : Host.Outcome State Fault Refusal :=
  command (.bankGet p bank) p (reading (bankGetView bank)) s

/-- BANK COPY (R28). -/
def execBankCopy (p : Port) (source destination : Int) (revision : Option Int) (s : State) :
    Host.Outcome State Fault Refusal :=
  command (.bankCopy p source destination revision) p (bankCopyBlock p source destination revision) s

/-- BANK SELECT (R30). -/
def execBankSelect (p : Port) (bank : Int) (s : State) : Host.Outcome State Fault Refusal :=
  command (.bankSelect p bank) p (bankSelectBlock p bank) s

/-- BANK TIMED (R31). -/
def execBankTimed (p : Port) (bank days endMinute : Int) (s : State) : Host.Outcome State Fault Refusal :=
  command (.bankTimed p bank days endMinute) p (bankTimedBlock p bank days endMinute) s

/-- BANK CANCEL (R33). -/
def execBankCancel (p : Port) (s : State) : Host.Outcome State Fault Refusal :=
  command (.bankCancel p) p (bankCancelBlock p) s

end Sys2Proof.Machine
end

