-- ==== Sys2Proof/Machine/WeekClock.lean ====
section
/-!
DEFINITION. The week clock (R4 to R13): CLOCK SET with its re-evaluation event, CLOCK GET, and the second boundary with
the minute and midnight events that the program store and the override table take.
-/

namespace Sys2Proof.Machine

/-- The clock record after an accepted set (R8). -/
def Clock.setTo (p : Port) (day minute second : Nat) : Clock where
  valid := true
  day := day
  minute := minute
  second := second
  origin := some p
  phase := some 0

/-- CLOCK SET (R7 to R9): the three ranges, then the record, the notice and the jump-marked re-evaluation event, whose
previous time is the clock's time just before the set. -/
def clockSetBlock (p : Port) (day minute second : Int) (s : State) : State × Response :=
  match index 7 day, index 1440 minute, index 60 second with
  | some d, some m, some sec =>
    let previous := s.clock.now
    let s := post p.other .clockChanged { s with clock := Clock.setTo p d.val m.val sec.val }
    let s := withOrder (fun o s => evaluateJump o d.val m.val s) s
    (jumpSlots previous ⟨d.val, m.val⟩ s, .ok [])
  | _, _, _ => (s, refuse .range)

/-- The five fields of CLOCK GET (R11). -/
def clockFields (c : Clock) : List Field :=
  [flag c.valid, count c.day, count c.minute, count c.second, num ((c.origin.map portCode).getD 0)]

/-- CLOCK GET (R11). -/
def clockGetView (s : State) : Response := .ok (clockFields s.clock)

/-- Whether the next second boundary is a minute boundary (R5). -/
def Clock.minuteEnds (c : Clock) : Bool := decide (c.second = 59)

/-- Whether the next second boundary is a midnight boundary (R5). -/
def Clock.dayEnds (c : Clock) : Bool := c.minuteEnds && decide (c.minute = 1439)

/-- The clock record after a second boundary (R5). -/
def Clock.tick (c : Clock) : Clock :=
  { c with
    second := if c.minuteEnds then 0 else c.second + 1
    minute := if c.minuteEnds then (if c.minute = 1439 then 0 else c.minute + 1) else c.minute
    day := if c.dayEnds then (c.day + 1) % 7 else c.day
    phase := some 0 }

/-- The minute event (R6): the program store and the override table take it. -/
def minuteEvent (order : Order) (s : State) : State :=
  countDown (storeMinute order s.clock.day s.clock.minute s)

/-- The second boundary (R5, R6): all three fields first, then the midnight event, then the minute event. An INVALID
clock has none. -/
def secondBoundaryBlock (s : State) : State :=
  if s.clock.valid then
    let t := { s with clock := s.clock.tick }
    if s.clock.minuteEnds then
      withOrder minuteEvent (if s.clock.dayEnds then storeMidnight t else t)
    else t
  else s

/-! ## Meanings -/

/-- CLOCK SET (R7, R8, R9). -/
def execClockSet (p : Port) (day minute second : Int) (s : State) : Host.Outcome State Fault Refusal :=
  command (.clockSet p day minute second) p (clockSetBlock p day minute second) s

/-- CLOCK GET (R11). -/
def execClockGet (p : Port) (s : State) : Host.Outcome State Fault Refusal :=
  command (.clockGet p) p (reading clockGetView) s

/-- The second boundary (R5, R6). -/
def execSecondBoundary (s : State) : Host.Outcome State Fault Refusal := event secondBoundaryBlock s

end Sys2Proof.Machine
end

