-- ==== Sys2Proof/Machine/Views.lean ====
section
/-!
DEFINITION. The records that the command ports gather from several blocks: IDENT (R169), STATUS (R167) and ZONE GET
(R168). None of them changes anything.
-/

namespace Sys2Proof.Machine

/-- IDENT (R169), given the carrying port. -/
def identView (p : Port) (s : State) : Response :=
  .ok [num Config.familyCode, num Config.partNumber, num Config.designRevision, num 16, num 18, num 16, num 4,
    count Config.poolSize, count Config.slotCount, num 8, num 8, num (portCode p), count s.wire.address,
    count s.settings.wireAddress]

/-! ## STATUS -/

/-- The timed-program record on a port (R167, positions 7 to 11). -/
def timedFields (t : Option Timed) : List Field :=
  match t with
  | none => [num 0, num 0, num 0, num 0, num 0]
  | some t => [num 1, count t.bank.val, count t.returnBank.val, count t.days, count t.endMinute]

/-- The code of a firing state (R167). -/
def FiringState.code : FiringState → Int
  | .idle => 0
  | .waitPath => 1
  | .blocked => 2
  | .firing => 3
  | .overrun => 4
  | .lockout => 5

/-- A presence field and a temperature, 0 when absent (R167). -/
def optionalFields (t : Option Int) : List Field := [flag t.isSome, num (t.getD 0)]

/-- The lockout record on a port (R167, positions 20 to 26). -/
def lockoutFields (l : Option Lockout) : List Field :=
  match l with
  | none => [num 0, num 0, num 0, num 0, num 0, num 0, num 0]
  | some l =>
    [num 1, num (bit l.highLimit + 2 * bit l.boilerFault)] ++ timeFields l.entry ++ optionalFields l.peak

/-- The store-busy field (R167, R177). -/
def busyField (o : Option Operation) : Field :=
  match o with
  | none => num 0
  | some ⟨.bank b _, _⟩ => count (b.val + 1)
  | some ⟨.config _, _⟩ => num 5

/-- The firing state and the lines (R167, positions 12 to 19). -/
def lineStatusFields (s : State) : List Field :=
  [num s.firing.state.code, flag s.firing.burner, flag s.firing.pump, flag s.inputs.flame, flag s.inputs.interlock,
    flag s.firing.diverter, flag s.firing.inhibitText, flag s.firing.inhibitWire]

/-- The hot-water call, the priority period, the timed call and the store (R167, positions 27 to 30). -/
def callStatusFields (s : State) : List Field :=
  [flag s.firing.call, flag s.firing.priority.isSome, count (s.firing.timedCall.getD 0), busyField s.store.operation]

/-- The flow temperature, the flow target and the modulation code (R167, positions 31 to 35). -/
def flowStatusFields (s : State) : List Field :=
  [num s.capture.publication.flowStatus.code, num (s.capture.publication.flow.getD 0)] ++
    optionalFields s.firing.flowTarget ++ [num s.firing.code]

/-- The 35 fields of STATUS (R167). -/
def statusFields (s : State) : List Field :=
  clockFields s.clock ++ [count s.program.active.val] ++ timedFields s.program.timed ++ lineStatusFields s ++
    lockoutFields s.firing.lockout ++ callStatusFields s ++ flowStatusFields s

/-- STATUS (R167). -/
def statusView (s : State) : Response := .ok (statusFields s)

/-! ## ZONE GET -/

/-- The code of a temperature source (R168). -/
def TempSource.code : TempSource → Int
  | .absent => 0
  | .channel => 1
  | .remote => 2

/-- A zone's slot on a port (R168, positions 6 to 12). -/
def slotPicture (o : Option Slot) : List Field :=
  match o with
  | none => [num 0, num 0, num 0, num 0, num 0, num 0, num 0]
  | some o => num 1 :: slotFields o

/-- ZONE GET (R168). -/
def zoneGetView (zone : Int) (s : State) : Response :=
  match index 16 zone with
  | none => refuse .range
  | some z =>
    let t := s.capture.publication.zones.get z
    let r := zoneRecord s z
    .ok ([flag (s.settings.zones.get z).enabled, num t.status.code, num (t.temp.getD 0), num t.source.code,
        num (targetField (scheduledTarget s z))] ++ slotPicture (slotOf s z) ++
      [num (setpointField (s.overrides.effective.get z)), num r.demand, num r.delivered, flag r.frost, flag r.calling,
        flag (s.valves.report.ready.getLsbD z.val)])

/-! ## Meanings -/

/-- IDENT (R169). -/
def execIdent (p : Port) (s : State) : Host.Outcome State Fault Refusal :=
  command (.ident p) p (reading (identView p)) s

/-- STATUS (R167). -/
def execStatus (p : Port) (s : State) : Host.Outcome State Fault Refusal :=
  command (.status p) p (reading statusView) s

/-- ZONE GET (R168). -/
def execZoneGet (p : Port) (zone : Int) (s : State) : Host.Outcome State Fault Refusal :=
  command (.zoneGet p zone) p (reading (zoneGetView zone)) s

end Sys2Proof.Machine
end

