-- ==== Sys2Proof/Machine/Ports.lean ====
section
/-!
DEFINITION. The two command ports (R155 to R166): the text port's characters, lines, keywords and response lines, and the
two-wire port's bus with its signs, bits and bytes, its frames and its response record.
-/

namespace Sys2Proof.Machine

/-! ## Words of a line -/

/-- The characters a port receives and sends, as numbers. -/
def lf : Nat := 10
def cr : Nat := 13
def space : Nat := 32

/-- The keywords of the catalogue with their codes (R155). -/
def keywords : List (List (List Char) × Nat) :=
  [([['I', 'D', 'E', 'N', 'T']], 0x01),
   ([['S', 'T', 'A', 'T', 'U', 'S']], 0x02),
   ([['Z', 'O', 'N', 'E'], ['G', 'E', 'T']], 0x03),
   ([['C', 'L', 'O', 'C', 'K'], ['S', 'E', 'T']], 0x10),
   ([['C', 'L', 'O', 'C', 'K'], ['G', 'E', 'T']], 0x11),
   ([['P', 'O', 'I', 'N', 'T'], ['A', 'D', 'D']], 0x20),
   ([['P', 'O', 'I', 'N', 'T'], ['D', 'E', 'L']], 0x21),
   ([['L', 'I', 'S', 'T'], ['C', 'L', 'E', 'A', 'R']], 0x22),
   ([['P', 'O', 'I', 'N', 'T'], ['G', 'E', 'T']], 0x23),
   ([['B', 'A', 'N', 'K'], ['G', 'E', 'T']], 0x24),
   ([['B', 'A', 'N', 'K'], ['C', 'O', 'P', 'Y']], 0x25),
   ([['B', 'A', 'N', 'K'], ['S', 'E', 'L', 'E', 'C', 'T']], 0x26),
   ([['B', 'A', 'N', 'K'], ['T', 'I', 'M', 'E', 'D']], 0x27),
   ([['B', 'A', 'N', 'K'], ['C', 'A', 'N', 'C', 'E', 'L']], 0x28),
   ([['B', 'A', 'N', 'K'], ['S', 'A', 'V', 'E']], 0x29),
   ([['B', 'A', 'N', 'K'], ['L', 'O', 'A', 'D']], 0x2A)] ++
  [([['O', 'V', 'R'], ['S', 'E', 'T']], 0x30),
   ([['O', 'V', 'R'], ['H', 'O', 'L', 'D']], 0x31),
   ([['O', 'V', 'R'], ['R', 'E', 'L', 'E', 'A', 'S', 'E']], 0x32),
   ([['O', 'V', 'R'], ['L', 'I', 'S', 'T']], 0x33),
   ([['T', 'E', 'M', 'P'], ['R', 'E', 'P', 'O', 'R', 'T']], 0x40),
   ([['C', 'A', 'P', 'T', 'U', 'R', 'E'], ['G', 'E', 'T']], 0x41),
   ([['R', 'E', 'G'], ['G', 'E', 'T']], 0x48),
   ([['V', 'A', 'L', 'V', 'E'], ['C', 'L', 'E', 'A', 'R']], 0x50),
   ([['V', 'A', 'L', 'V', 'E'], ['G', 'E', 'T']], 0x51),
   ([['I', 'N', 'H', 'I', 'B', 'I', 'T']], 0x60),
   ([['L', 'O', 'C', 'K', 'O', 'U', 'T'], ['C', 'L', 'E', 'A', 'R']], 0x61),
   ([['D', 'H', 'W'], ['B', 'O', 'O', 'S', 'T']], 0x62)] ++
  [([['L', 'I', 'N', 'E'], ['S', 'E', 'T']], 0x70),
   ([['L', 'I', 'N', 'E'], ['C', 'L', 'E', 'A', 'R']], 0x71),
   ([['L', 'I', 'N', 'E'], ['T', 'O', 'G', 'G', 'L', 'E']], 0x72),
   ([['L', 'I', 'N', 'E'], ['G', 'E', 'T']], 0x73),
   ([['L', 'I', 'N', 'K'], ['G', 'E', 'T']], 0x74),
   ([['N', 'O', 'T', 'I', 'C', 'E'], ['R', 'E', 'A', 'D']], 0x80),
   ([['N', 'O', 'T', 'I', 'C', 'E'], ['M', 'A', 'S', 'K']], 0x81),
   ([['P', 'A', 'R', 'A', 'M'], ['S', 'E', 'T']], 0x90),
   ([['P', 'A', 'R', 'A', 'M'], ['G', 'E', 'T']], 0x91),
   ([['C', 'O', 'N', 'F', 'I', 'G'], ['S', 'A', 'V', 'E']], 0x92),
   ([['S', 'O', 'F', 'T'], ['R', 'E', 'S', 'E', 'T']], 0x93)]

/-- A character in upper case, for the comparison of keywords (R157). -/
def upper (c : Nat) : Nat := if 97 ≤ c ∧ c ≤ 122 then c - 32 else c

/-- Whether a character may stand in a line (R157, check 2): letters, digits, spaces, "+" and "−". -/
def permittedCharacter (c : Nat) : Bool :=
  decide (65 ≤ upper c ∧ upper c ≤ 90) || decide (48 ≤ c ∧ c ≤ 57) || decide (c = space) || decide (c = 43) ||
    decide (c = 45)

/-- The words of a line, separated by one or more spaces; `word` is the word being read (R157). -/
def wordsFrom (word : List Nat) : List Nat → List (List Nat)
  | [] => if word = [] then [] else [word]
  | c :: rest =>
    if c = space then (if word = [] then wordsFrom [] rest else word :: wordsFrom [] rest)
    else wordsFrom (word ++ [c]) rest

/-- The words of a line (R157). -/
def wordsOf (line : List Nat) : List (List Nat) := wordsFrom [] line

/-- The words of a line after a keyword, if the line begins with it (R157, check 3). -/
def afterKeyword : List (List Char) → List (List Nat) → Option (List (List Nat))
  | [], rest => some rest
  | _ :: _, [] => none
  | k :: ks, w :: ws => if w.map upper = k.map Char.toNat then afterKeyword ks ws else none

/-- The code of a line's keyword and the words after it (R157, check 3). -/
def matchKeyword (words : List (List Nat)) : Option (Nat × List (List Nat)) :=
  keywords.findSome? fun entry => (afterKeyword entry.1 words).map fun rest => (entry.2, rest)

/-- The value of a row of digits; nothing where a character is no digit. -/
def digitsFrom (value : Nat) : List Nat → Option Nat
  | [] => some value
  | c :: rest => if 48 ≤ c ∧ c ≤ 57 then digitsFrom (value * 10 + (c - 48)) rest else none

/-- One to nine decimal digits (R157, check 4). -/
def digitsOf (w : List Nat) : Option Nat := if w.length = 0 ∨ 9 < w.length then none else digitsFrom 0 w

/-- A field of a line: an optional sign and the digits (R157, check 4). -/
def fieldOf (w : List Nat) : Option Int :=
  match w with
  | 43 :: ds => (digitsOf ds).map Int.ofNat
  | 45 :: ds => (digitsOf ds).map fun n => -(n : Int)
  | ds => (digitsOf ds).map Int.ofNat

/-- The fields of a line; nothing where a word is malformed (R157, check 4). -/
def fieldsOf : List (List Nat) → Option (List Int)
  | [] => some []
  | w :: ws =>
    match fieldOf w, fieldsOf ws with
    | some v, some vs => some (v :: vs)
    | _, _ => none

/-! ## Lines -/

/-- What a complete line comes to (R157). -/
inductive Judgement where
  | refused (w : ErrorWord)
  | command (c : Instr)
deriving DecidableEq, Repr

/-- The fields of a line under a keyword's code (R157, check 4). -/
def judgeFields (code : Nat) (words : List (List Nat)) : Judgement :=
  match fieldsOf words with
  | none => .refused .badForm
  | some fields =>
    match build .text code fields with
    | none => .refused .badForm
    | some c => .command c

/-- The keyword of a line (R157, check 3). -/
def judgeWords (words : List (List Nat)) : Judgement :=
  match matchKeyword words with
  | none => .refused .unknown
  | some (code, rest) => judgeFields code rest

/-- The characters of the line buffer as numbers. -/
def TextPort.line (t : TextPort) : List Nat := t.buffer.map BitVec.toNat

/-- A line without characters, or of spaces alone, with both marks clear: it produces no response (R156). -/
def TextPort.blank (t : TextPort) : Bool :=
  t.line.all (fun c => decide (c = space)) && !t.overlong && !t.badCharacter

/-- A complete line judged (R157). -/
def TextPort.judge (t : TextPort) : Judgement :=
  if t.overlong then .refused .tooLong
  else if t.badCharacter || !t.line.all permittedCharacter then .refused .badForm
  else judgeWords (wordsOf t.line)

/-- The text port changed. -/
def modText (f : TextPort → TextPort) (s : State) : State := { s with text := f s.text }

/-- A place joins the response queue (R159). -/
def addPlace (p : Place) (s : State) : State := modText (fun t => { t with places := t.places ++ [p] }) s

/-- A command is with its block (R159, R163). -/
def handOver (c : Instr) (s : State) : State := { s with handed := s.handed ++ [⟨c, true⟩] }

/-- A judged line takes a place, or is lost where all four are taken (R159). -/
def enqueue (j : Judgement) (s : State) : State :=
  if s.text.places.length < Config.queuePlaces then
    match j with
    | .refused w => addPlace (.ready (refuse w)) s
    | .command c => handOver c (addPlace (.waiting c) s)
  else post .text .portOverrun s

/-- The line buffer emptied and both marks cleared (R156). -/
def TextPort.empty (t : TextPort) : TextPort := { t with buffer := [], overlong := false, badCharacter := false }

/-- A CR completes the line (R156, R157, R159). -/
def completeLine (s : State) : State :=
  modText TextPort.empty (if s.text.blank then s else enqueue s.text.judge s)

/-- A received character (R156). -/
def textCharacterBlock (c : Byte) (framingError : Bool) (s : State) : State :=
  if framingError then modText (fun t => { t with badCharacter := true }) s
  else if c.toNat = lf then s
  else if c.toNat = cr then completeLine s
  else if s.text.buffer.length < Config.lineLength then modText (fun t => { t with buffer := t.buffer ++ [c] }) s
  else modText (fun t => { t with overlong := true }) s

/-! ## Response lines -/

/-- The spelling of an error word on the text port (R166). -/
def ErrorWord.spelled : ErrorWord → List Char
  | .range => ['R', 'A', 'N', 'G', 'E']
  | .busy => ['B', 'U', 'S', 'Y']
  | .full => ['F', 'U', 'L', 'L']
  | .notFound => ['N', 'O', 'T', 'F', 'O', 'U', 'N', 'D']
  | .duplicate => ['D', 'U', 'P', 'L', 'I', 'C', 'A', 'T', 'E']
  | .stale => ['S', 'T', 'A', 'L', 'E']
  | .clock => ['C', 'L', 'O', 'C', 'K']
  | .notReady => ['N', 'O', 'T', '_', 'R', 'E', 'A', 'D', 'Y']
  | .corrupt => ['C', 'O', 'R', 'R', 'U', 'P', 'T']
  | .unknown => ['U', 'N', 'K', 'N', 'O', 'W', 'N']
  | .length => ['L', 'E', 'N', 'G', 'T', 'H']
  | .badForm => ['S', 'Y', 'N', 'T', 'A', 'X']
  | .tooLong => ['L', 'O', 'N', 'G']

/-- The value of a field. -/
def Field.value : Field → Int
  | .word v => v
  | .wide v => v

/-- An integer in decimal, with a leading minus sign when negative (R158). -/
def decimal (v : Int) : List Char := if v < 0 then '-' :: Nat.toDigits 10 v.natAbs else Nat.toDigits 10 v.natAbs

/-- The characters of a response line before its CR and LF (R158). -/
def Response.characters : Response → List Char
  | .ok fields => ['O', 'K'] ++ fields.flatMap fun f => ' ' :: decimal f.value
  | .er w => ['E', 'R', ' '] ++ w.spelled

/-- A response line as it is sent (R158). -/
def Response.sent (r : Response) : List Byte :=
  (r.characters.map Char.toNat ++ [cr, lf]).map (BitVec.ofNat 8)

/-- The oldest place's response, once present, goes to the transmitter (R159). The row stands after the end of a character
that a soft reset has left on the line: that character is on the line no more when the response is (DESIGN CHOICE, log
entry 30). -/
def textSendBlock (s : State) : State :=
  match s.text.places with
  | .ready r :: rest => modText (fun t => { t with places := .sending r :: rest, transmitting := r.sent }) s
  | .waiting _ :: _ => s
  | .sending _ :: _ => s
  | [] => s

/-- What is on the transmit line has been sent to its end (R159): the place of a response that ends there is freed. After a
soft reset it is the last character of a response whose place is gone (R171). -/
def textSentBlock (s : State) : State :=
  match s.text.places with
  | .sending _ :: rest => modText (fun t => { t with places := rest, transmitting := [] }) s
  | .waiting _ :: _ => modText (fun t => { t with transmitting := [] }) s
  | .ready _ :: _ => modText (fun t => { t with transmitting := [] }) s
  | [] => modText (fun t => { t with transmitting := [] }) s

/-! ## Two-wire frames -/

/-- The two-wire port changed. -/
def modWire (f : WirePort → WirePort) (s : State) : State := { s with wire := f s.wire }

/-- The port is in progress (R163). -/
def WirePort.busy (w : WirePort) : Bool :=
  match w.record with
  | .inProgress _ _ => true
  | .statusRecord => false
  | .judged _ _ => false

/-- The write buffer emptied and the overlong mark cleared (R162). -/
def WirePort.discard (w : WirePort) : WirePort := { w with buffer := [], overlong := false }

/-- A 16-bit parameter from its two bytes, low byte first (R162). -/
def wordOf (lo hi : Byte) : Nat := lo.toNat + 256 * hi.toNat

/-- A 16-bit parameter read as a signed value (R165). -/
def signedWord (v : Nat) : Int := if v < 32768 then v else (v : Int) - 65536

/-- The k-th parameter of a code's frame (R165). -/
def parameterOf (code k : Nat) (v : Nat) : Int := if readUnsigned code k then v else signedWord v

/-- The parameters of a frame, from the k-th; nothing for an odd number of bytes (R162, R163). -/
def parametersFrom (code k : Nat) : List Byte → Option (List Int)
  | [] => some []
  | [_] => none
  | lo :: hi :: rest => (parametersFrom code (k + 1) rest).map fun vs => parameterOf code k (wordOf lo hi) :: vs

/-- The command of a frame; nothing for an odd number of bytes or a parameter count outside the range (R163, check 4). -/
def commandOf (code : Nat) (bytes : List Byte) : Option Instr :=
  (parametersFrom code 0 bytes).bind fun vs => build .wire code vs

/-- The response record replaced. -/
def setRecord (r : WireRecord) (s : State) : State := modWire (fun w => { w with record := r }) s

/-- A frame judged at a valid STOP (R163). -/
def judgeFrame (s : State) : State :=
  match s.wire.buffer with
  | [] => s
  | code :: bytes =>
    if s.wire.overlong then setRecord (.judged code (refuse .length)) s
    else if codes.contains code.toNat then
      match commandOf code.toNat bytes with
      | none => setRecord (.judged code (refuse .length)) s
      | some c => handOver c (setRecord (.inProgress code c) s)
    else setRecord (.judged code (refuse .unknown)) s

/-! ## The response record -/

/-- The two bytes of a word, low byte first (R164, R165). -/
def wordBytes (v : Int) : List Byte := [BitVec.ofInt 8 v, BitVec.ofInt 8 (v / 256)]

/-- The bytes of a field: one word, or two words with the low word first (R165). -/
def Field.bytes : Field → List Byte
  | .word v => wordBytes v
  | .wide v => wordBytes v ++ wordBytes (v / 65536)

/-- The status byte of an error word (R166). SYNTAX and LONG stand on the text port alone and have no code there. -/
def ErrorWord.code : ErrorWord → Nat
  | .range => 1
  | .busy => 2
  | .full => 3
  | .notFound => 4
  | .duplicate => 5
  | .stale => 6
  | .clock => 7
  | .notReady => 8
  | .corrupt => 9
  | .unknown => 10
  | .length => 11
  | .badForm => 255
  | .tooLong => 255

/-- The bytes of a response under the code echoed (R164). -/
def Response.bytes (code : Byte) : Response → List Byte
  | .ok fields => [0, code] ++ fields.flatMap Field.bytes
  | .er w => [BitVec.ofNat 8 w.code, code]

/-- The bytes of the response record (R163, R164). The status record is formed afresh at each read. -/
def recordBytes (s : State) : List Byte :=
  match s.wire.record with
  | .statusRecord => (statusView s).bytes 0x02
  | .inProgress code _ => [0xFE, code]
  | .judged code r => r.bytes code

/-! ## The bytes of a transfer -/

/-- The transfer under way replaced. -/
def carry (t : Option Carried) (w : WirePort) : WirePort := { w with bus := { w.bus with carried := t } }

/-- The port's role in the transfer under way. -/
def setRole (r : Role) (w : WirePort) : WirePort := carry (w.bus.carried.map fun t => { t with role := r }) w

/-- What the port has put on the bus since the last START. -/
def setTransfer (t : Transfer) (w : WirePort) : WirePort := { w with transfer := t }

/-- The seven address bits of an address byte (R160). -/
def addressOf (b : Byte) : Nat := b.toNat / 2

/-- The direction bit of an address byte: 1 is a read (R160). -/
def isRead (b : Byte) : Bool := b.getLsbD 0

/-- The address byte is there (R161): for another address the port takes no part; for its own it acknowledges a read, and
a write unless a command is in progress (R163). A write starts at an empty buffer, a read at the record's first byte, the
status record formed afresh (R164). -/
def takeAddress (b : Byte) (s : State) : State :=
  if addressOf b ≠ s.wire.address then modWire (setRole .absent) s
  else if isRead b then modWire (fun w => setTransfer ⟨true, [], []⟩ (setRole (.read (recordBytes s)) w)) s
  else if s.wire.busy then modWire (setRole .absent) s
  else modWire (fun w => setTransfer ⟨true, [], []⟩ (setRole .write w.discard)) s

/-- A data byte of a write (R162): bytes 0 to 23 are acknowledged, and a 25th marks the frame overlong. -/
def WirePort.takeByte (w : WirePort) (b : Byte) : WirePort :=
  if w.buffer.length < Config.frameLength then
    { w with buffer := w.buffer ++ [b], transfer := { w.transfer with acks := w.transfer.acks ++ [true] } }
  else { w with overlong := true, transfer := { w.transfer with acks := w.transfer.acks ++ [false] } }

/-- A byte of a read is returned (R164): the record from its first byte, 0xFF beyond its end. -/
def WirePort.giveByte (w : WirePort) (record : List Byte) : WirePort :=
  setTransfer { w.transfer with bytes := w.transfer.bytes ++ [record.getD w.transfer.bytes.length 0xFF] } w

/-- The eighth bit of a byte completes it (R160). -/
def takeByte (role : Role) (b : Byte) (s : State) : State :=
  match role with
  | .unaddressed => takeAddress b s
  | .write => modWire (fun w => w.takeByte b) s
  | .read record => modWire (fun w => w.giveByte record) s
  | .absent => s

/-- Eight bits as a byte, the most significant first (R160). -/
def byteOf (bits : List Bool) : Byte := BitVec.ofNat 8 (bits.foldl (fun n b => 2 * n + b.toNat) 0)

/-- A bit within a transfer (R160): eight bits make a byte, and a ninth follows each. -/
def takeBit (t : Carried) (b : Bool) (s : State) : State :=
  if t.bits.length < 7 then modWire (carry (some { t with bits := t.bits ++ [b] })) s
  else if t.bits.length = 7 then
    takeByte t.role (byteOf (t.bits ++ [b])) (modWire (carry (some { t with bits := t.bits ++ [b] })) s)
  else modWire (carry (some { t with bits := [] })) s

/-! ## The signs of the bus -/

/-- A transfer is ended without a valid STOP, by a repeated START or a bus error (R162, R163): its bytes are discarded and
nothing is executed. -/
def breakTransfer (t : Carried) (s : State) : State :=
  modWire (fun w => carry none (match t.role with | .write => w.discard | .unaddressed | .read _ | .absent => w)) s

/-- A valid STOP closes a transfer (R160, R163): a write that the port takes part in is judged, and its buffer emptied
(log entry 19). -/
def closeTransfer (t : Carried) (s : State) : State :=
  match t.role with
  | .write => modWire (fun w => carry none w.discard) (judgeFrame s)
  | .unaddressed | .read _ | .absent => modWire (carry none) s

/-- A START opens a transfer (R160). -/
def openTransfer (s : State) : State :=
  modWire (fun w => setTransfer noTransfer (carry (some ⟨.unaddressed, []⟩) w)) s

/-- The data line falls while the clock line is high (R160): a START, a repeated START, or within a byte a bus error,
which ends the transfer and opens none (log entry 26). In the high phase of a ninth bit the byte does not yet have its ninth
bit, and the sign is a bus error there too (DEDUCED, log entry 26). -/
def startSign (s : State) : State :=
  match s.wire.bus.carried with
  | none => openTransfer s
  | some t => if t.bits = [] then openTransfer (breakTransfer t s) else breakTransfer t s

/-- The data line rises while the clock line is high (R160): a valid STOP after a whole number of bytes, a bus error within
a byte, and in the high phase of a ninth bit, which the byte does not yet have (DEDUCED, log entry 26). -/
def stopSign (s : State) : State :=
  match s.wire.bus.carried with
  | none => s
  | some t => if t.bits = [] then closeTransfer t s else breakTransfer t s

/-- The clock line falls (R160): the level that the data line had while it was high is a bit of the transfer under way,
unless a START or a STOP has shown. -/
def bitTaken (b : Bus) (s : State) : State :=
  match b.carried with
  | none => s
  | some t => if b.marked then s else takeBit t b.data s

/-- The lines of the bus at new levels. A rise of the clock line begins a new high phase. -/
def setLevels (l : Levels) (w : WirePort) : WirePort :=
  { w with bus := { w.bus with
      clock := l.clock, data := l.data, marked := w.bus.marked && !(l.clock && !w.bus.clock) } }

/-- A START or a STOP has shown in this high phase. -/
def markSign (w : WirePort) : WirePort := { w with bus := { w.bus with marked := true } }

/-- The lines go to new levels (R160). -/
def takeLevels (l : Levels) (s : State) : State :=
  let old := s.wire.bus
  let s := modWire (setLevels l) s
  if old.clock then
    if l.clock then
      if old.data = l.data then s
      else if l.data then stopSign (modWire markSign s)
      else startSign (modWire markSign s)
    else bitTaken old s
  else s

/-- The lines go through levels one after the other. -/
def busBlock (levels : List Levels) (s : State) : State := levels.foldl (fun s l => takeLevels l s) s

/-- The levels of the lines are the masters' also where the part has no power: a transfer under way then goes past it. -/
def followLevels (levels : List Levels) (s : State) : State := levels.foldl (fun s l => modWire (setLevels l) s) s

/-- The lines of the bus go through levels. A part without power follows the levels alone (log entry 2). -/
def busEvent (levels : List Levels) (s : State) : Host.Outcome State Fault Refusal :=
  if s.powered then .next (withMatrix (busBlock levels) s) else .next (followLevels levels s)

/-! ## The levels of a transfer -/

/-- The levels that carry one bit (R160): the data line takes its level while the clock line is low. -/
def bitLevels (b : Bool) : List Levels := [⟨false, b⟩, ⟨true, b⟩, ⟨false, b⟩]

/-- The levels that carry a byte, most significant bit first, and its ninth bit (R160). -/
def byteLevels (b : Byte) (ninth : Bool) : List Levels :=
  ([7, 6, 5, 4, 3, 2, 1, 0].map fun k => b.getLsbD k).flatMap bitLevels ++ bitLevels ninth

/-- The levels of a START from a free bus, or of a repeated START (R160). -/
def startLevels : List Levels := [⟨false, true⟩, ⟨true, true⟩, ⟨true, false⟩, ⟨false, false⟩]

/-- The levels of a STOP (R160). -/
def stopLevels : List Levels := [⟨false, false⟩, ⟨true, false⟩, ⟨true, true⟩]

/-- The address byte of an address and a direction (R160). -/
def addressByte (address : BitVec 7) (read : Bool) : Byte := BitVec.ofNat 8 (2 * address.toNat + read.toNat)

/-- The levels of a transfer up to its last whole byte (R160): START, the address byte and the bytes that follow, each with
the level of its ninth bit. -/
def transferLevels (address : BitVec 7) (read ack : Bool) (bytes : List (Byte × Bool)) : List Levels :=
  startLevels ++ byteLevels (addressByte address read) ack ++ bytes.flatMap fun b => byteLevels b.1 b.2

/-! ## Meanings -/

/-- A received character of the text port (R156). -/
def execTextCharacter (c : Byte) (framingError : Bool) (s : State) : Host.Outcome State Fault Refusal :=
  event (textCharacterBlock c framingError) s

/-- The transmitter takes the response of the oldest place (R159). -/
def execTextResponseSend (s : State) : Host.Outcome State Fault Refusal := event textSendBlock s

/-- The response being sent has been sent whole (R159). -/
def execTextResponseSent (s : State) : Host.Outcome State Fault Refusal := event textSentBlock s

/-- The bus carries a write transfer (R160 to R163): what the port makes of the levels is read from the levels alone. -/
def execWriteTransfer (body sign : List Levels) (s : State) : Host.Outcome State Fault Refusal :=
  busEvent (body ++ sign) s

/-- The bus carries a read transfer (R160, R161, R164). -/
def execReadTransfer (body sign : List Levels) (s : State) : Host.Outcome State Fault Refusal :=
  busEvent (body ++ sign) s

/-- The bus carries a transfer that a repeated START ends, and what follows it (R160, R162). -/
def execRepeatedStart (body sign : List Levels) (s : State) : Host.Outcome State Fault Refusal :=
  busEvent (body ++ sign) s

/-- The bus carries a transfer that a bus error ends (R160, R163). -/
def execBusError (body sign : List Levels) (s : State) : Host.Outcome State Fault Refusal :=
  busEvent (body ++ sign) s

end Sys2Proof.Machine
end

