-- ==== Sys2Proof/Machine/Settings.lean ====
section
/-!
DEFINITION. The parameter table (R180): which setting a group, index and field name, how a written value is clamped and
which other settings it moves (R79, R100, R117, R145, R146), and what a write does in the owning block.
-/

namespace Sys2Proof.Machine

/-- The settings of the parameter table (R180). -/
inductive Param where
  | wireAddress
  | startupBank
  | enabled (z : Fin 16)
  | base (z : Fin 16)
  | frost (z : Fin 16)
  | band (z : Fin 16)
  | integralTime (z : Fin 16)
  | fallback (z : Fin 16)
  | sensor (z : Fin 16)
  | sourceMode (z : Fin 16)
  | staleness (z : Fin 16)
  | edge (c : Fin 18)
  | filter (c : Fin 18)
  | offset (c : Fin 18)
  | valveZone (v : Fin 16)
  | minDuty (v : Fin 16)
  | maxDuty (v : Fin 16)
  | valveOpen (v : Fin 16)
  | valveClose (v : Fin 16)
  | confirm (v : Fin 16)
  | minOn
  | minOff
  | overrun
  | highLimit
  | fmin
  | fmax
  | bypass
  | fallbackChannel
  | flowChannel
  | dhwMode
  | dhwTarget
  | dhwPulse
  | dhwPriority
  | dhwMaxPriority
  | dhwOpenTime
  | eventEnabled (e : Fin 8)
  | eventKind (e : Fin 8)
  | eventParameter (e : Fin 8)
  | binding (e : Fin 8) (line : Fin 8)
  | lineMode (line : Fin 8)
deriving DecidableEq, Repr

/-! ## The table -/

/-- Group 0, the device (R180). -/
def deviceParam (field : Int) : Option Param :=
  match field with
  | 0 => some .wireAddress
  | 1 => some .startupBank
  | _ => none

/-- Group 1, a zone (R180). -/
def zoneParam (z : Fin 16) (field : Int) : Option Param :=
  match field with
  | 0 => some (.enabled z)
  | 1 => some (.base z)
  | 2 => some (.frost z)
  | 3 => some (.band z)
  | 4 => some (.integralTime z)
  | 5 => some (.fallback z)
  | 6 => some (.sensor z)
  | 7 => some (.sourceMode z)
  | 8 => some (.staleness z)
  | _ => none

/-- Group 2, a capture channel (R180). -/
def captureParam (c : Fin 18) (field : Int) : Option Param :=
  match field with
  | 0 => some (.edge c)
  | 1 => some (.filter c)
  | 2 => some (.offset c)
  | _ => none

/-- Group 3, a valve channel, in the order of R99 (R180). -/
def valveParam (v : Fin 16) (field : Int) : Option Param :=
  match field with
  | 0 => some (.valveZone v)
  | 1 => some (.minDuty v)
  | 2 => some (.maxDuty v)
  | 3 => some (.valveOpen v)
  | 4 => some (.valveClose v)
  | 5 => some (.confirm v)
  | _ => none

/-- Group 4, firing, in the order of R117 (R180). -/
def firingParam (field : Int) : Option Param :=
  match field with
  | 0 => some .minOn
  | 1 => some .minOff
  | 2 => some .overrun
  | 3 => some .highLimit
  | 4 => some .fmin
  | 5 => some .fmax
  | 6 => some .bypass
  | 7 => some .fallbackChannel
  | 8 => some .flowChannel
  | _ => none

/-- Group 5, hot water, in the order of R117 (R180). -/
def hotWaterParam (field : Int) : Option Param :=
  match field with
  | 0 => some .dhwMode
  | 1 => some .dhwTarget
  | 2 => some .dhwPulse
  | 3 => some .dhwPriority
  | 4 => some .dhwMaxPriority
  | 5 => some .dhwOpenTime
  | _ => none

/-- Group 6, an event channel (R180). -/
def eventParam (e : Fin 8) (field : Int) : Option Param :=
  match field with
  | 0 => some (.eventEnabled e)
  | 1 => some (.eventKind e)
  | 2 => some (.eventParameter e)
  | _ => none

/-- Group 8, a line (R180). -/
def lineParam (line : Fin 8) (field : Int) : Option Param :=
  match field with
  | 0 => some (.lineMode line)
  | _ => none

/-- The setting that a group, an index and a field name; anything outside the table names none (R180). -/
def paramOf (group idx field : Int) : Option Param :=
  match group with
  | 0 => if idx = 0 then deviceParam field else none
  | 1 => (index 16 idx).bind fun z => zoneParam z field
  | 2 => (index 18 idx).bind fun c => captureParam c field
  | 3 => (index 16 idx).bind fun v => valveParam v field
  | 4 => if idx = 0 then firingParam field else none
  | 5 => if idx = 0 then hotWaterParam field else none
  | 6 => (index 8 idx).bind fun e => eventParam e field
  | 7 => (index 8 idx).bind fun e => (index 8 field).map fun line => .binding e line
  | 8 => (index 8 idx).bind fun line => lineParam line field
  | _ => none

/-- The group, index and field of the settings that a write of another can move (R100, R117). -/
def movedAddress : Param → Int × Int × Int
  | .minDuty v => (3, v.val, 1)
  | .maxDuty v => (3, v.val, 2)
  | .fmin => (4, 0, 4)
  | .fmax => (4, 0, 5)
  | .dhwTarget => (5, 0, 1)
  | _ => (0, 0, 0)

/-- The settings that a write of this one can move, in ascending order of group, index and field (R100, R117, R180). -/
def movable : Param → List Param
  | .minDuty v => [.maxDuty v]
  | .maxDuty v => [.minDuty v]
  | .highLimit => [.fmin, .fmax, .dhwTarget]
  | .fmax => [.fmin]
  | _ => []

/-! ## Codes of the settings -/

/-- A value clamped into 0..n, as an index (R117, R180). -/
def clampFin (n : Nat) (v : Int) : Fin (n + 1) := ⟨min n (clamp 0 n v).toNat, by omega⟩

/-- A value clamped into a range of natural numbers. -/
def clampNat (lo hi : Nat) (v : Int) : Nat := (clamp lo hi v).toNat

/-- The code of a source mode (R180). -/
def SourceMode.code : SourceMode → Int
  | .localOnly => 0
  | .remote => 1
  | .remotePreferred => 2

/-- A written source mode: an unknown value is LOCAL (R180). -/
def SourceMode.ofCode (v : Int) : SourceMode :=
  if v = 1 then .remote else if v = 2 then .remotePreferred else .localOnly

/-- The code of a hot-water mode (R117). -/
def DhwMode.code : DhwMode → Int
  | .off => 0
  | .follow => 1
  | .pulse => 2
  | .gate => 3

/-- A written hot-water mode: an unknown value is OFF (R117). -/
def DhwMode.ofCode (v : Int) : DhwMode :=
  if v = 1 then .follow else if v = 2 then .pulse else if v = 3 then .gate else .off

/-- A written binding, clamped into 0 to 3 (R146). -/
def Binding.ofCode (v : Int) : Binding :=
  if v ≤ 0 then .nothing else if v = 1 then .set else if v = 2 then .clear else .toggle

/-- A written integral time (R79). -/
def integralTimeOf (v : Int) : Int := if v ≤ 0 then 0 else clamp 5 240 v

/-- A written glitch filter: the smallest of 0, 2, 8 and 32 at or above the value (R180). -/
def filterOf (v : Int) : Nat := if v ≤ 0 then 0 else if v ≤ 2 then 2 else if v ≤ 8 then 8 else 32

/-- A written hot-water target (R117). -/
def dhwTargetOf (highLimit v : Int) : Int := min (clamp 5000 8000 v) (highLimit - 500)

/-! ## Reading a setting -/

/-- The value of a setting on a port (R180). -/
def Param.read (c : Settings) : Param → Int
  | .wireAddress => c.wireAddress
  | .startupBank => c.startupBank.val
  | .enabled z => bit (c.zones.get z).enabled
  | .base z => (c.zones.get z).base
  | .frost z => (c.zones.get z).frost
  | .band z => (c.zones.get z).band
  | .integralTime z => (c.zones.get z).integralTime
  | .fallback z => (c.zones.get z).fallback
  | .sensor z => ((c.zones.get z).sensor.map Fin.val).getD 18
  | .sourceMode z => (c.zones.get z).mode.code
  | .staleness z => (c.zones.get z).staleness
  | .edge ch => bit (c.capture.get ch).falling
  | .filter ch => (c.capture.get ch).filter
  | .offset ch => (c.capture.get ch).offset
  | .valveZone v => ((c.valves.get v).zone.map Fin.val).getD 16
  | .minDuty v => (c.valves.get v).minDuty
  | .maxDuty v => (c.valves.get v).maxDuty
  | .valveOpen v => (c.valves.get v).openTime
  | .valveClose v => (c.valves.get v).closeTime
  | .confirm v => (c.valves.get v).confirm.code
  | .minOn => c.firing.minOn
  | .minOff => c.firing.minOff
  | .overrun => c.firing.overrun
  | .highLimit => c.firing.highLimit
  | .fmin => c.firing.fmin
  | .fmax => c.firing.fmax
  | .bypass => bit c.firing.bypass
  | .fallbackChannel => c.firing.fallbackChannel.val
  | .flowChannel => c.firing.flowChannel.val
  | .dhwMode => c.hotWater.mode.code
  | .dhwTarget => c.hotWater.target
  | .dhwPulse => c.hotWater.pulse
  | .dhwPriority => bit c.hotWater.absolute
  | .dhwMaxPriority => c.hotWater.maxPriority
  | .dhwOpenTime => c.hotWater.openTime
  | .eventEnabled e => bit (c.events.get e).enabled
  | .eventKind e => (c.events.get e).kind.code
  | .eventParameter e => ((c.events.get e).parameter.map Fin.val).getD 16
  | .binding e line => ((c.bindings.get e).get line).code
  | .lineMode line => bit (c.linked.get line)

/-! ## Writing a setting -/

/-- One zone's settings changed. -/
def Settings.modZone (c : Settings) (z : Fin 16) (f : ZoneSettings → ZoneSettings) : Settings :=
  { c with zones := c.zones.modify z f }

/-- One capture channel's settings changed. -/
def Settings.modCapture (c : Settings) (ch : Fin 18) (f : ChannelSettings → ChannelSettings) : Settings :=
  { c with capture := c.capture.modify ch f }

/-- One valve channel's settings changed. -/
def Settings.modValve (c : Settings) (v : Fin 16) (f : ValveSettings → ValveSettings) : Settings :=
  { c with valves := c.valves.modify v f }

/-- The firing settings changed. -/
def Settings.modFiring (c : Settings) (f : FiringSettings → FiringSettings) : Settings := { c with firing := f c.firing }

/-- The hot-water settings changed. -/
def Settings.modHotWater (c : Settings) (f : HotWaterSettings → HotWaterSettings) : Settings :=
  { c with hotWater := f c.hotWater }

/-- One event channel's settings changed. -/
def Settings.modEvent (c : Settings) (e : Fin 8) (f : EventSettings → EventSettings) : Settings :=
  { c with events := c.events.modify e f }

/-- A written minimum duty, with the maximum in step (R100). -/
def ValveSettings.writeMin (c : ValveSettings) (d : Nat) : ValveSettings :=
  { c with minDuty := d, maxDuty := max c.maxDuty d }

/-- A written maximum duty, with the minimum in step (R100). -/
def ValveSettings.writeMax (c : ValveSettings) (d : Nat) : ValveSettings :=
  { c with maxDuty := d, minDuty := min c.minDuty d }

/-- A stored Fmax, with Fmin in step (R117). -/
def FiringSettings.withFmax (c : FiringSettings) (v : Int) : FiringSettings :=
  { c with fmax := v, fmin := min c.fmin v }

/-- A written high limit, with Fmax, Fmin and the hot-water target in step (R117). -/
def Settings.writeHighLimit (c : Settings) (v : Int) : Settings :=
  { c with
    firing := { c.firing with highLimit := v }.withFmax (min c.firing.fmax (v - 500))
    hotWater := { c.hotWater with target := min c.hotWater.target (v - 500) } }

/-- A setting written: the value is clamped or mapped, never refused (R79, R100, R117, R145, R146, R180). -/
def Param.write (c : Settings) (v : Int) : Param → Settings
  | .wireAddress => { c with wireAddress := clampNat 8 119 v }
  | .startupBank => { c with startupBank := clampFin 3 v }
  | .enabled z => c.modZone z fun x => { x with enabled := truth v }
  | .base z => c.modZone z fun x => { x with base := storedSetpoint v }
  | .frost z => c.modZone z fun x => { x with frost := clamp 300 1000 (roundTen v) }
  | .band z => c.modZone z fun x => { x with band := clamp 50 1000 v }
  | .integralTime z => c.modZone z fun x => { x with integralTime := integralTimeOf v }
  | .fallback z => c.modZone z fun x => { x with fallback := clamp 0 Config.fullDemand v }
  | .sensor z => c.modZone z fun x => { x with sensor := index 18 v }
  | .sourceMode z => c.modZone z fun x => { x with mode := SourceMode.ofCode v }
  | .staleness z => c.modZone z fun x => { x with staleness := clampNat 5 120 v }
  | .edge ch => c.modCapture ch fun x => { x with falling := truth v }
  | .filter ch => c.modCapture ch fun x => { x with filter := filterOf v }
  | .offset ch => c.modCapture ch fun x => { x with offset := clamp (-500) 500 v }
  | .valveZone ch => c.modValve ch fun x => { x with zone := index 16 v }
  | .minDuty ch => c.modValve ch fun x => x.writeMin (clampNat 0 63 v)
  | .maxDuty ch => c.modValve ch fun x => x.writeMax (clampNat 0 63 v)
  | .valveOpen ch => c.modValve ch fun x => { x with openTime := clampNat 0 600 v }
  | .valveClose ch => c.modValve ch fun x => { x with closeTime := clampNat 0 600 v }
  | .confirm ch => c.modValve ch fun x => { x with confirm := if v = 0 then .timer else .switch }
  | .minOn => c.modFiring fun x => { x with minOn := clampNat 0 900 v }
  | .minOff => c.modFiring fun x => { x with minOff := clampNat 0 1800 v }
  | .overrun => c.modFiring fun x => { x with overrun := clampNat 0 900 v }
  | .highLimit => c.writeHighLimit (clamp 6000 9500 v)
  | .fmin => c.modFiring fun x => { x with fmin := clamp 2000 x.fmax v }
  | .fmax => c.modFiring fun x => x.withFmax (clamp 2000 (x.highLimit - 500) v)
  | .bypass => c.modFiring fun x => { x with bypass := truth v }
  | .fallbackChannel => c.modFiring fun x => { x with fallbackChannel := clampFin 15 v }
  | .flowChannel => c.modFiring fun x => { x with flowChannel := clampFin 17 v }
  | .dhwMode => c.modHotWater fun x => { x with mode := DhwMode.ofCode v }
  | .dhwTarget => c.modHotWater fun x => { x with target := dhwTargetOf c.firing.highLimit v }
  | .dhwPulse => c.modHotWater fun x => { x with pulse := clampNat 1 120 v }
  | .dhwPriority => c.modHotWater fun x => { x with absolute := decide (v = 1) }
  | .dhwMaxPriority => c.modHotWater fun x => { x with maxPriority := clampNat 0 120 v }
  | .dhwOpenTime => c.modHotWater fun x => { x with openTime := clampNat 0 120 v }
  | .eventEnabled e => c.modEvent e fun x => { x with enabled := truth v }
  | .eventKind e => c.modEvent e fun x => { x with kind := SourceKind.ofCode (clampNat 0 15 v) }
  | .eventParameter e => c.modEvent e fun x => { x with parameter := index 16 v }
  | .binding e line =>
    { c with bindings := c.bindings.modify e fun row => row.set line (Binding.ofCode v) }
  | .lineMode line => { c with linked := c.linked.set line (truth v) }

/-! ## What a write does in the owning block -/

/-- A write of a channel's edge or glitch filter (R63): back to IDLE, the filtered level at the raw level. -/
def Channel.restart (c : Channel) : Channel := { c.toIdle with filtered := c.raw, held := 0 }

/-- A written open time (R104): 0 takes h of a driven channel to 60,000 at once. -/
def ValveChannel.openAtOnce (v : ValveChannel) (c : ValveSettings) : ValveChannel :=
  if c.openTime = 0 ∧ 0 < v.outputDuty ∧ v.state ≠ .fault then
    { v with position := Config.fullTravel }.derive c
  else v

/-- A written close time (R104): 0 takes h of a channel that is not driven to 0 at once. -/
def ValveChannel.closeAtOnce (v : ValveChannel) (c : ValveSettings) : ValveChannel :=
  if c.closeTime = 0 ∧ v.outputDuty = 0 ∧ v.state ≠ .fault then { v with position := 0 }.derive c else v

/-- A valve channel changed by a setting write, with the report it gives (R100, R111). -/
def rewriteValve (v : Fin 16) (f : ValveChannel → ValveSettings → ValveChannel) (s : State) : State :=
  handReport (modValve v (fun x => f x (s.settings.valves.get v)) s)

/-- A write of the hot-water mode (R137): OFF stops any timed call, and the call is derived again. -/
def modeWritten (s : State) : State :=
  deriveCall
    (if s.settings.hotWater.mode = .off then modFiring (fun f => { f with timedCall := none }) s else s)

/-- A write of priority (R140): SHARED ends a running period. -/
def priorityWritten (s : State) : State :=
  if s.firing.priority.isSome && !s.settings.hotWater.absolute then endPriority s else s

/-- The max priority time is reached by the elapsed time of a running period (R140). -/
def priorityOver (s : State) : Bool :=
  match s.firing.priority with
  | none => false
  | some t => decide (s.settings.hotWater.maxPriority ≠ 0) && decide (s.settings.hotWater.maxPriority * 60 ≤ t)

/-- A write of the max priority time (R140). -/
def maxPriorityWritten (s : State) : State := if priorityOver s then endPriority s else s

/-- The diverter has stood ON for the open time, and the hot-water path does not exist yet (R139). -/
def pathDue (s : State) : Bool :=
  s.firing.diverter && !s.firing.dhwPath && decide (s.settings.hotWater.openTime ≤ s.firing.diverterOn)

/-- A write of the diverter open time (R139): it applies to the diverter-on time as it stands. -/
def openTimeWritten (s : State) : State :=
  if pathDue s then settle (modFiring (fun f => { f with dhwPath := true }) s) else s

/-- What a write does in the block that owns the setting, given the state with the setting written. -/
def Param.act : Param → State → State
  | .enabled _ | .base _ | .frost _ => resolve
  | .edge ch | .filter ch => modChannel ch Channel.restart
  | .valveZone v | .minDuty v | .maxDuty v => fun s => rewriteValve v (fun x c => x.recompute c s.valves.demand) s
  | .valveOpen v => rewriteValve v ValveChannel.openAtOnce
  | .valveClose v => rewriteValve v ValveChannel.closeAtOnce
  | .confirm v => rewriteValve v ValveChannel.derive
  | .highLimit => fun s => testHighLimit (formHeating s)
  | .fmin | .fmax => formHeating
  | .dhwTarget => formFlow
  | .dhwMode => modeWritten
  | .dhwPriority => priorityWritten
  | .dhwMaxPriority => maxPriorityWritten
  | .dhwOpenTime => openTimeWritten
  | .wireAddress | .startupBank | .band _ | .integralTime _ | .fallback _ | .sensor _ | .sourceMode _ | .staleness _
  | .offset _ | .minOn | .minOff | .overrun | .bypass | .fallbackChannel | .flowChannel | .dhwPulse | .eventEnabled _
  | .eventKind _ | .eventParameter _ | .binding _ _ | .lineMode _ => id

/-! ## PARAM SET and PARAM GET -/

/-- The settings that a write moved (R180). -/
def movedParams (before after : Settings) (q : Param) : List Param :=
  (movable q).filter fun r => decide (r.read before ≠ r.read after)

/-- A moved setting's group, index, field and new value (R180). -/
def movedFields (after : Settings) (q : Param) : List Field :=
  [num (movedAddress q).1, num (movedAddress q).2.1, num (movedAddress q).2.2, num (q.read after)]

/-- The response of PARAM SET (R180). -/
def writtenResponse (before after : Settings) (q : Param) : Response :=
  .ok ([num (q.read after), count (movedParams before after q).length] ++
    (movedParams before after q).flatMap (movedFields after))

/-- The configuration record replaced. -/
def setSettings (c : Settings) (s : State) : State := { s with settings := c }

/-- PARAM SET (R180). -/
def paramSetBlock (group idx field value : Int) (s : State) : State × Response :=
  match paramOf group idx field with
  | none => (s, refuse .range)
  | some q =>
    (q.act (setSettings (q.write s.settings value) s), writtenResponse s.settings (q.write s.settings value) q)

/-- PARAM GET (R180). -/
def paramGetView (group idx field : Int) (s : State) : Response :=
  match paramOf group idx field with
  | none => refuse .range
  | some q => .ok [num (q.read s.settings)]

/-! ## Meanings -/

/-- PARAM SET (R180). -/
def execParamSet (p : Port) (group idx field value : Int) (s : State) : Host.Outcome State Fault Refusal :=
  command (.paramSet p group idx field value) p (paramSetBlock group idx field value) s

/-- PARAM GET (R180). -/
def execParamGet (p : Port) (group idx field : Int) (s : State) : Host.Outcome State Fault Refusal :=
  command (.paramGet p group idx field) p (reading (paramGetView group idx field)) s

end Sys2Proof.Machine
end

