-- ==== Sys2Proof/Machine/StoreUnit.lean ====
section
/-!
DEFINITION. The settings store (R177 to R179) and the bank commands that use it (R34 to R36): the start of a save, its
completion, and the load of a bank.
-/

namespace Sys2Proof.Machine

/-- A stored bank's lists and checksum (R177). -/
def storedBank (s : State) (b : Fin 4) : Stored Lists := s.store.banks.get b

/-- The operation record replaced (R177). -/
def setOperation (o : Option Operation) (s : State) : State := { s with store := { s.store with operation := o } }

/-- A stored bank replaced. -/
def putStored (b : Fin 4) (x : Stored Lists) (s : State) : State :=
  { s with store := { s.store with banks := s.store.banks.set b x } }

/-- The stored configuration replaced. -/
def putStoredConfig (x : Stored Settings) (s : State) : State := { s with store := { s.store with config := x } }

/-- A RAM bank's dirty flag replaced. -/
def setDirty (b : Fin 4) (dirty : Bool) (s : State) : State :=
  putBank b { s.program.banks.get b with dirty := dirty } s

/-- BANK SAVE (R34): range, store, then the snapshot, the dirty flag and the operation record. -/
def bankSaveBlock (p : Port) (bank : Int) (s : State) : State × Response :=
  match index 4 bank with
  | none => (s, refuse .range)
  | some b =>
    if s.store.operation.isSome then (s, refuse .busy)
    else
      (setDirty b false (setOperation (some ⟨.bank b (s.program.banks.get b).lists, p⟩) s), .ok [])

/-- The accepted load of a bank (R36): the stored lists, the next revision, dirty CLEAR, and a silent re-evaluation where
the bank is active. -/
def loadBank (p : Port) (b : Fin 4) (s : State) : State :=
  afterEdit b (fun _ => true)
    (post p.other .scheduleEdited
      (putBank b ⟨(storedBank s b).content, nextRevision (s.program.banks.get b).revision, false⟩ s))

/-- BANK LOAD (R36): range, store, checksum. -/
def bankLoadBlock (p : Port) (bank : Int) (s : State) : State × Response :=
  match index 4 bank with
  | none => (s, refuse .range)
  | some b =>
    if s.store.operation.isSome then (s, refuse .busy)
    else if (storedBank s b).good then
      let t := loadBank p b s
      (t, .ok [revisionField t b])
    else (s, refuse .corrupt)

/-- CONFIG SAVE (R178). -/
def configSaveBlock (p : Port) (s : State) : State × Response :=
  if s.store.operation.isSome then (s, refuse .busy)
  else (setOperation (some ⟨.config s.settings, p⟩) s, .ok [])

/-- What a completion leaves in the store (R178): the snapshot under a good checksum, or a corrupt object. -/
def writeStored (object : SaveObject) (good : Bool) (s : State) : State :=
  match object with
  | .config snapshot => putStoredConfig (if good then ⟨snapshot, true⟩ else { s.store.config with good := false }) s
  | .bank b snapshot => putStored b (if good then ⟨snapshot, true⟩ else { storedBank s b with good := false }) s

/-- A failed bank save sets the bank's dirty flag (R35). -/
def markFailed (object : SaveObject) (s : State) : State :=
  match object with
  | .config _ => s
  | .bank b _ => setDirty b true s

/-- The completion of a save (R35, R178). -/
def completeSave (o : Operation) (good : Bool) (s : State) : State :=
  let s := setOperation none (writeStored o.object good s)
  if good then post o.port .saveDone s else post o.port .saveFail (markFailed o.object s)

/-- A completion finds the save in flight, if there is one (R178). -/
def saveCompletionBlock (good : Bool) (s : State) : State :=
  match s.store.operation with
  | none => s
  | some o => completeSave o good s

/-- Power that goes while a save is in flight leaves its object corrupt (R179). -/
def stopSave (s : State) : State :=
  match s.store.operation with
  | none => s
  | some o => setOperation none (writeStored o.object false s)

/-! ## Meanings -/

/-- BANK SAVE (R34). -/
def execBankSave (p : Port) (bank : Int) (s : State) : Host.Outcome State Fault Refusal :=
  command (.bankSave p bank) p (bankSaveBlock p bank) s

/-- BANK LOAD (R36). -/
def execBankLoad (p : Port) (bank : Int) (s : State) : Host.Outcome State Fault Refusal :=
  command (.bankLoad p bank) p (bankLoadBlock p bank) s

/-- CONFIG SAVE (R178). -/
def execConfigSave (p : Port) (s : State) : Host.Outcome State Fault Refusal :=
  command (.configSave p) p (configSaveBlock p) s

/-- The completion of the save in flight, with its outcome (R178). -/
def execSaveCompletion (good : Bool) (s : State) : Host.Outcome State Fault Refusal :=
  event (saveCompletionBlock good) s

end Sys2Proof.Machine
end

