-- ==== Sys2Proof/Machine/Power.lean ====
section
/-!
DEFINITION. Power and resets: what power loss takes (R179), the start at power-up and at the external reset input (R181
with R13, R38, R57, R76, R97, R114, R142, R153, R171, R176), and SOFT RESET, taken by every block (R182 with R77, R98,
R115, R143, R154, R171, R176).
-/

namespace Sys2Proof.Machine

/-! ## Power -/

/-- Every block blank and every output off, nothing loaded (R181, step 1): the stored objects, the levels of the input
lines and the model's own queues stay. -/
def blanked (s : State) : State :=
  { s with
    clock := blankClock
    program := blankProgram unwrittenStore.banks 0
    overrides := ⟨[], Tab.all none⟩
    capture := blankCapture s.capture.channels
    regulator := blankRegulator
    valves := blankValves s.valves.channels
    firing := blankFiring 0 false
    links := blankLinks
    notices := blankNotices
    settings := factorySettings
    text := blankText
    wire := blankWire s.wire.bus factorySettings.wireAddress
    handed := []
    answered := none }

/-- The stored configuration read (R181, step 2). -/
def loadConfiguration (s : State) : State :=
  if s.store.config.good then setSettings s.store.config.content s
  else postBoth .configLost (setSettings factorySettings s)

/-- The banks that cannot be read (R181, step 3). -/
def lostBanks (s : State) : BankSet := setOf fun b => !(storedBank s b).good

/-- The stored banks read and the startup bank made active (R181, steps 3 and 4). -/
def loadBanks (s : State) : State :=
  let s := { s with program := blankProgram s.store.banks s.settings.startupBank }
  if lostBanks s = 0 then s else postBoth (.bankLost (lostBanks s)) s

/-- The blocks take their settings (R181, step 5): the min-off timer and the fault-persistence timer (R142), the two-wire
address (R161), and the effective setpoints (R57). -/
def takeSettings (s : State) : State :=
  resolve { s with
    firing := blankFiring s.settings.firing.minOff s.inputs.fault
    wire := blankWire s.wire.bus s.settings.wireAddress }

/-- The start of the part (R181). A mode's own condition that holds at once then starts a hot-water call (R142). -/
def startPart (s : State) : State := deriveCall (takeSettings (loadBanks (loadConfiguration (blanked (stopSave s)))))

/-- The part under power. -/
def setPowered (on : Bool) (s : State) : State := { s with powered := on }

/-- Power goes (R179): a save in flight leaves its object corrupt, and nothing that is not stored remains. -/
def losePower (s : State) : State := setPowered false (blanked (stopSave s))

/-! ## Soft reset, block by block -/

/-- The capture unit restarts (R77); its last publication is not withdrawn. -/
def restartCapture (s : State) : State :=
  { s with capture := { blankCapture s.capture.channels with publication := s.capture.publication } }

/-- The regulator's running state cleared (R98). -/
def restartRegulator (s : State) : State := setRegulator blankRegulator s

/-- A valve channel at a soft reset (R115): the drive stops and the estimate is kept; FAULT stays. -/
def ValveChannel.restart (v : ValveChannel) : ValveChannel :=
  if v.state = .fault then { v with demandDuty := 0, hold := false }
  else
    { v.stopCycle with
      demandDuty := 0, hold := false, outputDuty := 0, state := undriven v.position, confirmTimer := none }

/-- The valve driver at a soft reset (R115); the latest hold set stays. -/
def restartDriver (s : State) : State :=
  { s with valves := { s.valves with
      channels := Tab.ofFn fun v => (s.valves.channels.get v).restart
      demand := blankDemand } }

/-- The firing controller's timers and copy that a soft reset clears in every state (R143). -/
def clearFiring (s : State) : State :=
  modFiring (fun f => { f with demand := blankDemand, minOn := none, pathWait := none, flameWait := none }) s

/-- A hold set without the diverter (R143): the diverter stays ON at a soft reset only in a hold set fixed afresh. -/
def HoldSet.withoutDiverter (h : HoldSet) : HoldSet := { h with diverter := false }

/-- The diverter leaves a hold set of before the soft reset; the valve channels of that set stay in it (R143, log
entry 27). -/
def dropHeldDiverter (s : State) : State := modFiring (fun f => { f with hold := f.hold.map HoldSet.withoutDiverter }) s

/-- What the firing state does at a soft reset (R143). -/
def restartStates (s : State) : State :=
  match s.firing.state with
  | .firing => startOverrun (leaveFiring s)
  | .lockout => if s.firing.pump && !s.settings.firing.bypass then fixHold s else s
  | .idle | .waitPath | .blocked | .overrun =>
    releaseAnyHold (setPump false (modFiring (fun f => { f with state := .idle, overrun := none }) s))

/-- The firing state at a soft reset, with a fresh hold set or none that has the diverter (R143). -/
def restartFiring (s : State) : State := restartStates (dropHeldDiverter s)

/-- The hot-water call cleared at a soft reset (R143); the diverter line then turns OFF unless a hold set has it. -/
def clearCall (s : State) : State :=
  let t := modFiring (fun f => { f with timedCall := none }) s
  if s.firing.call then endCall t else setDiverter t

/-- The mode's own condition taken again (R143). -/
def retakeCall (s : State) : State := if callWanted s then startCall s else s

/-- The driver's report after its soft reset is handed on if it differs (R115), and an overrun setting of 0 ends the
run-on at once (R128). The run-on ends only after the hot-water call has been cleared and taken again, so that PUMP_OFF
follows DHW_OFF and DHW_ON there; the rules give no order of the three (DESIGN CHOICE, log entry 15). -/
def settleReport (s : State) : State :=
  let s := modFiring (fun f => { f with report := computeReport s }) (setReport (computeReport s) s)
  if s.firing.state = .overrun ∧ s.firing.overrun.isNone then endOverrun s else s

/-- The matrix's own soft reset (R154). -/
def restartMatrix (s : State) : State := { s with links := blankLinks }

/-- The controller's soft reset, before the report and the selection that follow it (R143). BURNER_OFF from FIRING, or
PUMP_OFF from the other states, is raised before the DHW_OFF and DHW_ON of the call that is cleared and taken again; the rules
give no order of them (DESIGN CHOICE, log entry 15). -/
def restartController (s : State) : State := retakeCall (clearCall (restartFiring (clearFiring s)))

/-- The soft resets of the driver and the controller in either order (R115, R143), then the report and the selection. -/
def restartControl (driverFirst : Bool) (s : State) : State :=
  settle (settleReport
    (if driverFirst then restartController (restartDriver s) else restartDriver (restartController s)))

/-- Every event of the controller reaches the matrix before or after the matrix's own reset (R154): the first `early` of
them before it. -/
def takeAroundReset (early : Nat) (s : State) : State :=
  setRaised [] (takeEvents (s.raised.drop early) (restartMatrix (takeEvents (s.raised.take early) s)))

/-- The pending records emptied under their masks (R176). -/
def restartNotices (s : State) : State :=
  { s with notices := ⟨emptyNotices s.notices.text.mask, emptyNotices s.notices.wire.mask⟩ }

/-- The commands still with their blocks: their responses will be dropped (R171). The soft reset itself leaves the
list. -/
def dropHanded (c : Instr) (handed : List Handed) : List Handed :=
  (handed.eraseP fun h => decide (h.command = c)).map fun h => { h with live := false }

/-- The character of a response line that is on the line (R171): the one behind those already sent. Which it is depends
on the transmitter's time and is left open (log entry 4). -/
def onTheLine (sent : Nat) (line : List Byte) : List Byte := (line.drop sent).take 1

/-- The ports cleared, the two-wire address taken afresh, and the OK given on the carrying port (R161, R171). The character
on the line is completed, and a transfer under way is discarded. -/
def restartPorts (p : Port) (order : Order) (s : State) : State :=
  { s with
    handed := dropHanded (.softReset p) s.handed
    answered := some (p, .ok [])
    text := { blankText with
      places := match p with | .text => [.ready (.ok [])] | .wire => []
      transmitting := onTheLine order.onLine s.text.transmitting }
    wire := { blankWire s.wire.bus s.settings.wireAddress with
      record := match p with | .text => .statusRecord | .wire => .judged 0x93 (.ok []) } }

/-- SOFT RESET (R182): every block takes it as one event. -/
def softResetBlock (p : Port) (order : Order) (s : State) : State :=
  restartPorts p order
    (resolve (takeAroundReset order.matrixAt
      (restartControl order.driverFirst (restartNotices (restartRegulator (restartCapture s))))))

/-! ## Meanings -/

/-- Power comes (R181). -/
def execPowerUp (s : State) : Host.Outcome State Fault Refusal :=
  .next (withMatrix (fun s => setPowered true (startPart s)) s)

/-- The external reset input (R181); a part without power does nothing (log entry 2). -/
def execExternalReset (s : State) : Host.Outcome State Fault Refusal := event startPart s

/-- Power goes (R179). -/
def execPowerLoss (s : State) : Host.Outcome State Fault Refusal := event losePower s

/-- SOFT RESET (R182). -/
def execSoftReset (p : Port) (s : State) : Host.Outcome State Fault Refusal := event (withOrder (softResetBlock p)) s

end Sys2Proof.Machine
end

