-- ==== Sys2Proof/Machine/Dispatch.lean ====
section
/-!
DEFINITION. The meaning of every row of the table: one arm for each constructor of Instr, each one direct call.
-/

namespace Sys2Proof.Machine

/-- The effect of a command or event on everything but the queue. -/
def exec (i : Instr) (s : State) : Host.Outcome State Fault Refusal :=
  match i with
  | .powerUp => Sys2Proof.Machine.execPowerUp s
  | .externalReset => Sys2Proof.Machine.execExternalReset s
  | .powerLoss => Sys2Proof.Machine.execPowerLoss s
  | .textCharacter c framingError => Sys2Proof.Machine.execTextCharacter c framingError s
  | .textResponseSend => Sys2Proof.Machine.execTextResponseSend s
  | .textResponseSent => Sys2Proof.Machine.execTextResponseSent s
  | .writeTransfer body sign => Sys2Proof.Machine.execWriteTransfer body sign s
  | .readTransfer body sign => Sys2Proof.Machine.execReadTransfer body sign s
  | .repeatedStart body sign => Sys2Proof.Machine.execRepeatedStart body sign s
  | .busError body sign => Sys2Proof.Machine.execBusError body sign s
  | .ident p => Sys2Proof.Machine.execIdent p s
  | .status p => Sys2Proof.Machine.execStatus p s
  | .zoneGet p zone => Sys2Proof.Machine.execZoneGet p zone s
  | .clockSet p day minute second => Sys2Proof.Machine.execClockSet p day minute second s
  | .clockGet p => Sys2Proof.Machine.execClockGet p s
  | .secondBoundary => Sys2Proof.Machine.execSecondBoundary s
  | .pointAdd p bank list days start target revision => Sys2Proof.Machine.execPointAdd p bank list days start target revision s
  | .pointDel p bank list days start revision => Sys2Proof.Machine.execPointDel p bank list days start revision s
  | .listClear p bank list revision => Sys2Proof.Machine.execListClear p bank list revision s
  | .pointGet p bank list index => Sys2Proof.Machine.execPointGet p bank list index s
  | .bankGet p bank => Sys2Proof.Machine.execBankGet p bank s
  | .bankCopy p source destination revision => Sys2Proof.Machine.execBankCopy p source destination revision s
  | .bankSelect p bank => Sys2Proof.Machine.execBankSelect p bank s
  | .bankTimed p bank days endMinute => Sys2Proof.Machine.execBankTimed p bank days endMinute s
  | .bankCancel p => Sys2Proof.Machine.execBankCancel p s
  | .bankSave p bank => Sys2Proof.Machine.execBankSave p bank s
  | .bankLoad p bank => Sys2Proof.Machine.execBankLoad p bank s
  | .ovrSet p zone setpoint kind endDay endMinute => Sys2Proof.Machine.execOvrSet p zone setpoint kind endDay endMinute s
  | .ovrHold p zone setpoint => Sys2Proof.Machine.execOvrHold p zone setpoint s
  | .ovrRelease p zone => Sys2Proof.Machine.execOvrRelease p zone s
  | .ovrList p position => Sys2Proof.Machine.execOvrList p position s
  | .tempReport p zone value => Sys2Proof.Machine.execTempReport p zone value s
  | .captureGet p channel => Sys2Proof.Machine.execCaptureGet p channel s
  | .rawInputChange ch level elapsed => Sys2Proof.Machine.execRawInputChange ch level elapsed s
  | .acceptedEdge ch elapsed => Sys2Proof.Machine.execAcceptedEdge ch elapsed s
  | .timeout ch => Sys2Proof.Machine.execTimeout ch s
  | .captureSecond => Sys2Proof.Machine.execCaptureSecond s
  | .windowExpiry => Sys2Proof.Machine.execWindowExpiry s
  | .regGet p zone => Sys2Proof.Machine.execRegGet p zone s
  | .pass => Sys2Proof.Machine.execPass s
  | .valveClear p channel => Sys2Proof.Machine.execValveClear p channel s
  | .valveGet p channel => Sys2Proof.Machine.execValveGet p channel s
  | .valveUpdate => Sys2Proof.Machine.execValveUpdate s
  | .confirmTimeout ch => Sys2Proof.Machine.execConfirmTimeout ch s
  | .endSwitchEdge ch closed => Sys2Proof.Machine.execEndSwitchEdge ch closed s
  | .cycleStart ch => Sys2Proof.Machine.execCycleStart ch s
  | .driveLineOff ch => Sys2Proof.Machine.execDriveLineOff ch s
  | .inhibit p value => Sys2Proof.Machine.execInhibit p value s
  | .lockoutClear p => Sys2Proof.Machine.execLockoutClear p s
  | .dhwBoost p minutes => Sys2Proof.Machine.execDhwBoost p minutes s
  | .flameEdge asserted => Sys2Proof.Machine.execFlameEdge asserted s
  | .boilerFaultEdge asserted => Sys2Proof.Machine.execBoilerFaultEdge asserted s
  | .interlockEdge closed => Sys2Proof.Machine.execInterlockEdge closed s
  | .hotWaterRequestEdge asserted => Sys2Proof.Machine.execHotWaterRequestEdge asserted s
  | .minOnExpiry => Sys2Proof.Machine.execMinOnExpiry s
  | .minOffExpiry => Sys2Proof.Machine.execMinOffExpiry s
  | .overrunExpiry => Sys2Proof.Machine.execOverrunExpiry s
  | .pathWaitExpiry => Sys2Proof.Machine.execPathWaitExpiry s
  | .flameWaitExpiry => Sys2Proof.Machine.execFlameWaitExpiry s
  | .faultPersistenceExpiry => Sys2Proof.Machine.execFaultPersistenceExpiry s
  | .timedCallExpiry => Sys2Proof.Machine.execTimedCallExpiry s
  | .priorityExpiry => Sys2Proof.Machine.execPriorityExpiry s
  | .diverterOpen => Sys2Proof.Machine.execDiverterOpen s
  | .lineSet p lines => Sys2Proof.Machine.execLineSet p lines s
  | .lineClear p lines => Sys2Proof.Machine.execLineClear p lines s
  | .lineToggle p lines => Sys2Proof.Machine.execLineToggle p lines s
  | .lineGet p => Sys2Proof.Machine.execLineGet p s
  | .linkGet p channel => Sys2Proof.Machine.execLinkGet p channel s
  | .noticeRead p => Sys2Proof.Machine.execNoticeRead p s
  | .noticeMask p mask => Sys2Proof.Machine.execNoticeMask p mask s
  | .paramSet p group index field value => Sys2Proof.Machine.execParamSet p group index field value s
  | .paramGet p group index field => Sys2Proof.Machine.execParamGet p group index field s
  | .configSave p => Sys2Proof.Machine.execConfigSave p s
  | .saveCompletion good => Sys2Proof.Machine.execSaveCompletion good s
  | .softReset p => Sys2Proof.Machine.execSoftReset p s

end Sys2Proof.Machine
end

