-- ==== Sys2Proof/Machine/Timebase.lean ====
section
/-!
DEFINITION. What the part does while no command waits in the queue (log entry 5): commands that a port has handed to their
blocks are taken first, oldest first; then one second of the part's timebases passes, and every row of the table that
this second makes due is taken, in a fixed order.
-/

namespace Sys2Proof.Machine

/-! ## One second of the timebases -/

/-- A timer that counts the time passed. -/
def countUp (t : Option Nat) : Option Nat := t.map fun n => n + 1

/-- A timer that counts the time left. -/
def countLeft (t : Option Nat) : Option Nat := t.map fun n => n - 1

/-- The firing controller's timers one second on (R116). -/
def Firing.second (f : Firing) : Firing :=
  { f with
    minOn := countLeft f.minOn
    minOff := countLeft f.minOff
    overrun := countLeft f.overrun
    pathWait := countUp f.pathWait
    flameWait := countUp f.flameWait
    faultTimer := countUp f.faultTimer
    timedCall := countLeft f.timedCall
    priority := countUp f.priority
    diverterOn := if f.diverter then f.diverterOn + 1 else f.diverterOn }

/-- A drive cycle one second on (R103). -/
def ValveChannel.second (v : ValveChannel) : ValveChannel :=
  if v.running then { v with cycleTime := v.cycleTime + 1 } else v

/-- The microseconds of a second. -/
def secondMicros : Nat := 1000000

/-- Every timer one second on; what falls due is taken afterwards, row by row. The capture channels see their inputs stand
still for the second: a wait of the glitch filter ends in it, and a TIMING channel has its timeout (R59, R61). -/
def secondPasses (s : State) : State :=
  { s with
    capture := { s.capture with
      channels := Tab.ofFn fun c => (s.capture.channels.get c).elapse (s.settings.capture.get c) secondMicros }
    regulator := { s.regulator with timer := s.regulator.timer + 1 }
    valves := { s.valves with channels := Tab.ofFn fun v => (s.valves.channels.get v).second }
    firing := s.firing.second }

/-! ## What is due -/

/-- A row that is due when a condition holds. -/
def dueWhen (p : State → Bool) (i : Instr) (s : State) : Option Instr := if p s then some i else none

/-- A time-left timer has run out. -/
def ranOut (t : Option Nat) : Bool := decide (t = some 0)

/-- A time-passed timer has reached its limit. -/
def reached (limit : Nat) (t : Option Nat) : Bool := decide (limit ≤ t.getD 0)

/-- The applied duty of a channel's cycle is over while its line is ON (R103). -/
def lineDue (ch : Fin 16) (s : State) : Bool :=
  let v := s.valves.channels.get ch
  v.running && v.drive && decide (v.appliedDuty < Config.cycleSeconds) && decide (v.appliedDuty ≤ v.cycleTime)

/-- A channel's cycle is over (R103). -/
def cycleDue (ch : Fin 16) (s : State) : Bool :=
  let v := s.valves.channels.get ch
  v.running && decide (Config.cycleSeconds ≤ v.cycleTime)

/-- The oldest place of the response queue holds its response (R159). -/
def responseReady (s : State) : Bool :=
  match s.text.places with
  | .ready _ :: _ => true
  | .waiting _ :: _ => false
  | .sending _ :: _ => false
  | [] => false

/-- Something is on the transmit line (R159). -/
def lineBusy (s : State) : Bool := !s.text.transmitting.isEmpty

/-- The save in flight completes, at most 150 ms after its start, with an outcome that the manual leaves to the store
(R178, log entry 4). -/
def saveDue (s : State) : Option Instr := s.store.operation.map fun _ => .saveCompletion s.orders.next.saved

/-- The transmitter empties the response queue (R159): four lines at its rate take less than a second. -/
def drainRows : List (State → Option Instr) :=
  dueWhen lineBusy .textResponseSent ::
    (List.replicate Config.queuePlaces
      [dueWhen responseReady .textResponseSend, dueWhen lineBusy .textResponseSent]).flatten

/-- The rows of one second, in the order in which they are taken when they are due (DESIGN CHOICE, log entry 5). -/
def secondRows : List (State → Option Instr) :=
  saveDue :: drainRows ++
  [dueWhen (fun _ => true) .secondBoundary,
   dueWhen (fun _ => true) .captureSecond,
   dueWhen (fun s => decide (s.capture.seconds = 0)) .windowExpiry,
   dueWhen (fun s => ranOut s.firing.minOn) .minOnExpiry,
   dueWhen (fun s => ranOut s.firing.minOff) .minOffExpiry,
   dueWhen (fun s => ranOut s.firing.overrun) .overrunExpiry,
   dueWhen (fun s => reached Config.pathWaitLimit s.firing.pathWait) .pathWaitExpiry,
   dueWhen (fun s => reached Config.flameWaitLimit s.firing.flameWait) .flameWaitExpiry,
   dueWhen (fun s => reached Config.faultPersistence s.firing.faultTimer) .faultPersistenceExpiry,
   dueWhen (fun s => ranOut s.firing.timedCall) .timedCallExpiry,
   dueWhen priorityOver .priorityExpiry,
   dueWhen pathDue .diverterOpen,
   dueWhen (fun s => decide (60 ≤ s.regulator.timer)) .pass,
   dueWhen (fun _ => true) .valveUpdate] ++
  (List.finRange 16).map (fun ch => dueWhen (lineDue ch) (.driveLineOff ch)) ++
  (List.finRange 16).map (fun ch => dueWhen (cycleDue ch) (.cycleStart ch))

/-- Take a row after what went before, if it is due then. -/
def takeDue (before : Host.Outcome State Fault Refusal) (due : State → Option Instr) :
    Host.Outcome State Fault Refusal :=
  match before with
  | .next s =>
    match due s with
    | some i => exec i s
    | none => .next s
  | .fault r => .fault r
  | .refused r => .refused r

/-- One second of a part under power (log entry 5). -/
def second (s : State) : Host.Outcome State Fault Refusal := secondRows.foldl takeDue (.next (secondPasses s))

/-- A step on an empty queue (log entries 3 and 5): a part without power idles; a handed command is taken; otherwise one
second passes. -/
def idle (s : State) : Host.Outcome State Fault Refusal :=
  if s.powered then
    match s.handed with
    | h :: _ => exec h.command s
    | [] => second s
  else .next s

/-- A command put at the front of the queue. -/
def State.pushFront (s : State) (i : Instr) : State := { s with pending := i :: s.pending }

end Sys2Proof.Machine
end

