-- ==== Sys2Proof/Safety.lean ====
section
/-!
DEFINITION. The terms that statements about the part are made in: which parts of State a command leaves as they were, and
the conditions of the spec that hold between steps.
-/

namespace Sys2Proof.Machine

/-! ## What is left unchanged -/

/-- The parts of State. -/
inductive Part where
  | powered
  | clock
  | program
  | overrides
  | capture
  | regulator
  | valves
  | firing
  | inputs
  | links
  | notices
  | settings
  | store
  | text
  | wire
  | handed
  | answered
  | orders
  | raised
  | pending
deriving DecidableEq, Repr

/-- A part is the same in two states. -/
def Part.same (s t : State) : Part → Prop
  | .powered => t.powered = s.powered
  | .clock => t.clock = s.clock
  | .program => t.program = s.program
  | .overrides => t.overrides = s.overrides
  | .capture => t.capture = s.capture
  | .regulator => t.regulator = s.regulator
  | .valves => t.valves = s.valves
  | .firing => t.firing = s.firing
  | .inputs => t.inputs = s.inputs
  | .links => t.links = s.links
  | .notices => t.notices = s.notices
  | .settings => t.settings = s.settings
  | .store => t.store = s.store
  | .text => t.text = s.text
  | .wire => t.wire = s.wire
  | .handed => t.handed = s.handed
  | .answered => t.answered = s.answered
  | .orders => t.orders = s.orders
  | .raised => t.raised = s.raised
  | .pending => t.pending = s.pending

/-- Every part outside the list is the same in the second state as in the first. -/
def Keeps (changed : List Part) (s t : State) : Prop := ∀ part, part ∉ changed → part.same s t

/-- What the delivery of a response changes: the two ports, the commands with their blocks, and the answer. -/
def responseParts : List Part := [.text, .wire, .handed, .answered]

/-- What a passage of the firing controller changes within a step: the controller, the hold set written to the valve
driver, and the source events raised, which the matrix takes afterwards (R144). -/
def passageParts : List Part := [.firing, .valves, .raised]

/-- A valve driver that keeps everything but the hold set last written to it. -/
def OnlyHoldWritten (v w : Valves) : Prop :=
  w.channels = v.channels ∧ w.demand = v.demand ∧ w.report = v.report

/-- One capture channel is as given, and the rest of the capture unit as it was. -/
def ChannelAlone (ch : Fin 18) (w : Channel) (s t : State) : Prop :=
  t.capture = { s.capture with channels := s.capture.channels.set ch w }

/-! ## Source events, hold sets and overrides -/

/-- How many events, one for each index that satisfies p, a channel's parameter lets through (R145, R147). -/
def EventSettings.passed (e : EventSettings) (p : Fin 16 → Bool) : Nat :=
  ((List.finRange 16).filter fun z =>
    p z && decide (e.kind.hasParameter = false ∨ e.parameter = none ∨ e.parameter = some z)).length

/-- The matrix has taken one event of a kind for each index that satisfies p (index 0 alone stands for an event without a
parameter), and no other of that kind: the fire count of every enabled channel of the kind has risen by the events that
its parameter lets through, wrapping (R145, R147). -/
def EventsTaken (s t : State) (kind : SourceKind) (p : Fin 16 → Bool) : Prop :=
  ∀ e, (s.settings.events.get e).enabled = true → (s.settings.events.get e).kind = kind →
    ((s.settings.events.get e).passed p = 0 → t.links.counts.get e = s.links.counts.get e) ∧
    (0 < (s.settings.events.get e).passed p →
      t.links.counts.get e = (s.links.counts.get e + (s.settings.events.get e).passed p) % 65536)

/-- Whether a firing controller's line, hot-water call or LOCKOUT has changed between two states in the way that an event
of this kind tells (R121, R134, R136, R137). -/
def SourceKind.shown (s t : State) : SourceKind → Bool
  | .burnerOn => !s.firing.burner && t.firing.burner
  | .burnerOff => s.firing.burner && !t.firing.burner
  | .pumpOn => !s.firing.pump && t.firing.pump
  | .pumpOff => s.firing.pump && !t.firing.pump
  | .dhwOn => !s.firing.call && t.firing.call
  | .dhwOff => s.firing.call && !t.firing.call
  | .lockoutOn => decide (s.firing.state ≠ .lockout ∧ t.firing.state = .lockout)
  | .lockoutOff => decide (s.firing.state = .lockout ∧ t.firing.state ≠ .lockout)
  | .zoneCallOn | .zoneCallOff | .switchCross | .sensorLost | .frostOn | .frostOff | .bankChange | .valveFault => false

/-- The matrix has taken one event for each change of a line, of the hot-water call and of LOCKOUT, none where they stay,
and no event of another kind; where nothing has changed it is as it was (R121, R134, R136, R137, R144). -/
def ChangesTaken (s t : State) : Prop :=
  (∀ kind : SourceKind, EventsTaken s t kind fun z => decide (z = 0) && kind.shown s t) ∧
    ((∀ kind : SourceKind, kind.shown s t = false) → t.links = s.links)

/-- A notice with a set of sixteen is posted to both ports for the indices that satisfy p, where there are any: the kind is
pending, and its set holds them beside those that were pending (R173). -/
def ScopePosted (s t : State) (bit : Nat) (scope : PortNotices → BitVec 16) (p : Fin 16 → Bool) : Prop :=
  ∀ port,
    ((∀ z, p z = false) → (t.notices.of port).kinds.getLsbD bit = (s.notices.of port).kinds.getLsbD bit ∧
      scope (t.notices.of port) = scope (s.notices.of port)) ∧
    ((∃ z, p z = true) → (t.notices.of port).kinds.getLsbD bit = true ∧
      ∀ z : Fin 16, (scope (t.notices.of port)).getLsbD z.val = (p z ||
        ((s.notices.of port).kinds.getLsbD bit && (scope (s.notices.of port)).getLsbD z.val)))

/-- The valve channels of a hold set fixed from the states of the channels (R129): those OPENING, OPEN or CLOSING, or the
fallback overrun channel alone where there are none and the diverter line is OFF. -/
def FixedHold (fallback : Fin 16) (channels : Tab 16 ValveChannel) (diverter : Bool) (set : ChannelSet) : Prop :=
  ∀ v : Fin 16, set.getLsbD v.val =
    (decide ((channels.get v).state = .opening ∨ (channels.get v).state = .opened ∨ (channels.get v).state = .closing) ||
      (decide (v = fallback) && !diverter &&
        decide (∀ w, (channels.get w).state = .closed ∨ (channels.get w).state = .fault)))

/-- A hold set in force with its valve channels and its diverter, written to the valve driver (R110, R129). -/
def HoldInForce (t : State) (channels : ChannelSet → Prop) (diverter : Bool) : Prop :=
  ∃ h, t.firing.hold = some h ∧ t.valves.latestHold = h.channels ∧ channels h.channels ∧ h.diverter = diverter

/-- The commands that write an override with a given setpoint, and the kind they give it (R42, R45 to R47). NEXT and HOLD do
not look at their end fields; UNTIL needs a VALID clock. -/
def WritesOverride (p : Port) (z : Fin 16) (v : Int) (s : State) (i : Instr) (kind : Kind) : Prop :=
  (∃ d m, i = .ovrSet p z.val v 0 d m ∧ kind = .next) ∨ (∃ d m, i = .ovrSet p z.val v 2 d m ∧ kind = .hold) ∨
    (i = .ovrHold p z.val (some v) ∧ kind = .hold) ∨
    ∃ (day : Fin 7) (minute : Fin 1440), i = .ovrSet p z.val v 1 (some day.val) (some minute.val) ∧
      s.clock.valid = true ∧
      kind = .untilTime ⟨day.val, minute.val⟩ (distanceToEnd ⟨s.clock.day, s.clock.minute⟩ ⟨day.val, minute.val⟩)

/-- The setpoint that a command's field gives an override: 0 is OFF (R41). -/
def givenSetpoint (v : Int) : Option Int := if v = 0 then none else some (clamp 500 3000 (roundTen v))

/-- The minutes from the time at which a switch point began on a day to a day and minute, the way the week runs (R2, R17). -/
def minutesSince (day minute begun start : Nat) : Nat := (day * 1440 + minute + 10080 - (begun * 1440 + start)) % 10080

/-- What tells two effective entries apart: day set, start and occurrence day (R17). -/
def Entry.key (e : Entry) : DaySet × Nat × Nat := (e.point.days, e.point.start, e.day)

/-- The minutes remaining of an override after the clock has gone from one time to another, the shorter way round (R53). -/
def remainingAfter (previous now : WeekTime) (r : Nat) : Int :=
  if minutesAhead previous now ≤ 5040 then (r : Int) - minutesAhead previous now
  else (r : Int) + (10080 - minutesAhead previous now : Nat)

/-! ## The settings -/

/-- The value that PARAM SET stores for a written value, under the settings as they stood (R79, R100, R117, R145, R146,
R180). -/
def Param.stored (c : Settings) (v : Int) : Param → Int
  | .wireAddress => clamp 8 119 v
  | .startupBank => clamp 0 3 v
  | .base _ => clamp 500 3000 (10 * divRound v 10)
  | .frost _ => clamp 300 1000 (10 * divRound v 10)
  | .band _ => clamp 50 1000 v
  | .integralTime _ => if v ≤ 0 then 0 else clamp 5 240 v
  | .fallback _ => clamp 0 4096 v
  | .sensor _ => if 0 ≤ v ∧ v ≤ 17 then v else 18
  | .sourceMode _ => if v = 1 ∨ v = 2 then v else 0
  | .staleness _ => clamp 5 120 v
  | .filter _ => if v ≤ 0 then 0 else if v ≤ 2 then 2 else if v ≤ 8 then 8 else 32
  | .offset _ => clamp (-500) 500 v
  | .valveZone _ | .eventParameter _ => if 0 ≤ v ∧ v ≤ 15 then v else 16
  | .minDuty _ | .maxDuty _ => clamp 0 63 v
  | .valveOpen _ | .valveClose _ => clamp 0 600 v
  | .minOn | .overrun => clamp 0 900 v
  | .minOff => clamp 0 1800 v
  | .highLimit => clamp 6000 9500 v
  | .fmin => clamp 2000 c.firing.fmax v
  | .fmax => clamp 2000 (c.firing.highLimit - 500) v
  | .fallbackChannel | .eventKind _ => clamp 0 15 v
  | .flowChannel => clamp 0 17 v
  | .dhwMode => if v = 1 ∨ v = 2 ∨ v = 3 then v else 0
  | .dhwTarget => min (clamp 5000 8000 v) (c.firing.highLimit - 500)
  | .dhwPulse => clamp 1 120 v
  | .dhwPriority => if v = 1 then 1 else 0
  | .dhwMaxPriority | .dhwOpenTime => clamp 0 120 v
  | .binding _ _ => clamp 0 3 v
  | .enabled _ | .edge _ | .confirm _ | .bypass | .eventEnabled _ | .lineMode _ => if v = 0 then 0 else 1

/-- The parts of State, beside the record itself, that a PARAM SET of a setting can change (R180). -/
def Param.parts : Param → List Part
  | .enabled _ | .base _ | .frost _ => [.overrides]
  | .edge _ | .filter _ => [.capture]
  | .valveZone _ | .minDuty _ | .maxDuty _ | .valveOpen _ | .valveClose _ | .confirm _ | .dhwMode | .dhwOpenTime =>
    [.valves, .firing, .links]
  | .highLimit => [.valves, .firing, .links, .notices]
  | .fmin | .fmax | .dhwTarget | .dhwPriority | .dhwMaxPriority => [.firing]
  | .wireAddress | .startupBank | .band _ | .integralTime _ | .fallback _ | .sensor _ | .sourceMode _ | .staleness _
  | .offset _ | .minOn | .minOff | .overrun | .bypass | .fallbackChannel | .flowChannel | .dhwPulse | .eventEnabled _
  | .eventKind _ | .eventParameter _ | .binding _ _ | .lineMode _ => []

/-- A zone's settings lie in their ranges (R79, R180). -/
structure ZoneInRange (c : ZoneSettings) : Prop where
  base : 500 ≤ c.base ∧ c.base ≤ 3000 ∧ c.base % 10 = 0
  frost : 300 ≤ c.frost ∧ c.frost ≤ 1000 ∧ c.frost % 10 = 0
  band : 50 ≤ c.band ∧ c.band ≤ 1000
  integralTime : c.integralTime = 0 ∨ (5 ≤ c.integralTime ∧ c.integralTime ≤ 240)
  fallback : 0 ≤ c.fallback ∧ c.fallback ≤ 4096
  staleness : 5 ≤ c.staleness ∧ c.staleness ≤ 120

/-- A capture channel's settings lie in their ranges (R180). -/
structure ChannelInRange (c : ChannelSettings) : Prop where
  filter : c.filter = 0 ∨ c.filter = 2 ∨ c.filter = 8 ∨ c.filter = 32
  offset : -500 ≤ c.offset ∧ c.offset ≤ 500

/-- A valve channel's settings lie in their ranges, the minimum duty never above the maximum (R100). -/
structure ValveInRange (c : ValveSettings) : Prop where
  step : c.minDuty ≤ c.maxDuty
  duty : c.maxDuty ≤ 63
  openTime : c.openTime ≤ 600
  closeTime : c.closeTime ≤ 600

/-- The firing settings lie in their ranges (R117). -/
structure FiringInRange (c : FiringSettings) : Prop where
  minOn : c.minOn ≤ 900
  minOff : c.minOff ≤ 1800
  overrun : c.overrun ≤ 900
  limit : 6000 ≤ c.highLimit ∧ c.highLimit ≤ 9500
  fmin : 2000 ≤ c.fmin
  step : c.fmin ≤ c.fmax
  fmax : c.fmax ≤ c.highLimit - 500

/-- The hot-water settings lie in their ranges under a high limit (R117). -/
structure HotWaterInRange (c : HotWaterSettings) (highLimit : Int) : Prop where
  target : 5000 ≤ c.target ∧ c.target ≤ 8000
  limit : c.target ≤ highLimit - 500
  pulse : 1 ≤ c.pulse ∧ c.pulse ≤ 120
  maxPriority : c.maxPriority ≤ 120
  openTime : c.openTime ≤ 120

/-- Every setting of a configuration record lies in the range of the parameter table (R180). -/
structure SettingsInRange (c : Settings) : Prop where
  wireAddress : 8 ≤ c.wireAddress ∧ c.wireAddress ≤ 119
  zones : ∀ z, ZoneInRange (c.zones.get z)
  capture : ∀ ch, ChannelInRange (c.capture.get ch)
  valves : ∀ v, ValveInRange (c.valves.get v)
  firing : FiringInRange c.firing
  hotWater : HotWaterInRange c.hotWater c.firing.highLimit

/-- The configuration records that the part holds: in RAM, stored, and the snapshot of a save in flight. -/
def Holds (s : State) (c : Settings) : Prop :=
  c = s.settings ∨ c = s.store.config.content ∨
    ∃ o, s.store.operation = some o ∧ o.object = .config c

/-- Every configuration record that the part holds is in range (R180). -/
def SettingsKept (s : State) : Prop := ∀ c, Holds s c → SettingsInRange c

/-! ## Banks -/

/-- A target is one of its list (R15): OFF on every list, ON on list 16 alone, and on the zone lists a temperature of 500
to 3000 that is a multiple of 10. -/
def targetAllowed (l : Fin 17) : Target → Bool
  | .off => true
  | .on => decide (l = hotWaterList)
  | .temp c => decide (l ≠ hotWaterList ∧ 500 ≤ c ∧ c ≤ 3000 ∧ c % 10 = 0)

/-- A list is in the order of R16, no two of its points at the same start sharing a day, each with a day, a start within
the day and a target of its list (R15). -/
def ListInOrder (l : Fin 17) (points : List SwitchPoint) : Prop :=
  points.Pairwise (fun a b => a.before b = true ∧ (a.start = b.start → overlap a.days b.days = false)) ∧
    ∀ p ∈ points, p.days ≠ 0 ∧ p.start < 1440 ∧ targetAllowed l p.target = true

/-- The lists of a bank hold 256 points at most, each list in order (R14, R16). -/
def ListsInOrder (lists : Lists) : Prop :=
  (lists.list.map List.length).sum ≤ Config.poolSize ∧ ∀ l, ListInOrder l (lists.get l)

/-- The banks of lists that the part holds: in RAM, stored, and the snapshot of a save in flight. -/
def HoldsLists (s : State) (lists : Lists) : Prop :=
  (∃ b, lists = (s.program.banks.get b).lists) ∨ (∃ b, lists = (s.store.banks.get b).content) ∨
    ∃ o b, s.store.operation = some o ∧ o.object = .bank b lists

/-- Every bank that the part holds is in order, its targets in range (R14, R15, R16). -/
def BanksKept (s : State) : Prop := ∀ lists, HoldsLists s lists → ListsInOrder lists

/-! ## The clock and the override table -/

/-- The clock record lies in its ranges (R4). -/
def ClockInRange (c : Clock) : Prop := c.day < 7 ∧ c.minute < 1440 ∧ c.second < 60

/-- The minutes remaining of an UNTIL slot are the distance from the current time to its end (R39, R45); no slot is of
kind UNTIL while the clock is INVALID. -/
def SlotMeasured (c : Clock) (o : Slot) : Prop :=
  match o.kind with
  | .next => True
  | .hold => True
  | .untilTime finish remaining =>
    c.valid = true ∧ finish.day < 7 ∧ finish.minute < 1440 ∧
      remaining = distanceToEnd ⟨c.day, c.minute⟩ finish

/-- The override table: at most eight slots, one for a zone, each measured (R39, R40, R45, R52, R53). -/
def TableKept (s : State) : Prop :=
  ClockInRange s.clock ∧ s.overrides.slots.length ≤ Config.slotCount ∧
    (s.overrides.slots.map Slot.zone).Nodup ∧ ∀ o ∈ s.overrides.slots, SlotMeasured s.clock o

/-- Every zone's effective setpoint is the one that its inputs resolve to (R54, R55). -/
def SetpointsResolved (s : State) : Prop := ∀ z, s.overrides.effective.get z = effectiveSetpoint s z

/-! ## The regulator -/

/-- A zone's record lies in its ranges, calls while its delivered demand is above 0, and delivers nothing under priority
with its latch clear (R78, R91, R92, R93). -/
structure RecordKept (priority : Bool) (r : ZoneRecord) : Prop where
  integral : 0 ≤ r.integral ∧ r.integral ≤ 1048576
  demand : 0 ≤ r.demand ∧ r.demand ≤ 4096
  delivered : 0 ≤ r.delivered ∧ r.delivered ≤ 4096
  calling : r.calling = decide (0 < r.delivered)
  frost : r.frost = true → r.delivered = 4096
  priority : priority = true → r.frost = false → r.delivered = 0

/-- Every zone record is kept (R78, R91, R92, R93). -/
def RecordsKept (s : State) : Prop := ∀ z, RecordKept s.regulator.priorityInForce (s.regulator.zones.get z)

/-! ## The valve driver -/

/-- A duty is 0 or lies between a channel's minimum and maximum duty (R101, R102). -/
def DutyAllowed (c : ValveSettings) (d : Nat) : Prop := d = 0 ∨ (c.minDuty ≤ d ∧ d ≤ c.maxDuty)

/-- A channel's output duty is the greater of its demand duty and its hold duty, and 0 in FAULT; demand duty and output
duty are allowed and at most 63 (R101, R102). -/
structure DutyKept (c : ValveSettings) (v : ValveChannel) : Prop where
  output : v.outputDuty = if v.state = .fault then 0 else max v.demandDuty (if v.hold then c.maxDuty else 0)
  demandAllowed : DutyAllowed c v.demandDuty
  outputAllowed : DutyAllowed c v.outputDuty
  demandRange : v.demandDuty ≤ 63
  outputRange : v.outputDuty ≤ 63

/-- Every channel's duties are kept (R101, R102). -/
def DutiesKept (s : State) : Prop := ∀ v, DutyKept (s.settings.valves.get v) (s.valves.channels.get v)

/-- The cycle, the drive line and the position estimate of a channel as its output duty and its state have them (R99,
R103, R108). -/
structure ChannelKept (v : ValveChannel) : Prop where
  running : v.running = decide (0 < v.outputDuty)
  stopped : v.running = false → v.cycleTime = 0 ∧ v.appliedDuty = 0 ∧ v.drive = false
  fault : v.state = .fault → v.outputDuty = 0 ∧ v.position = 0 ∧ v.confirmTimer = none
  undriven : v.state ≠ .fault → v.outputDuty = 0 → v.state = undriven v.position
  driven : 0 < v.outputDuty → v.state = .opening ∨ v.state = .opened
  travel : v.position ≤ 60000

/-- Every channel is kept (R99, R103, R105, R106, R108). -/
def ChannelsKept (s : State) : Prop := ∀ v, ChannelKept (s.valves.channels.get v)

/-- The report last handed on is the one that the channels give, and the controller holds it, with the demand update
that the driver holds (R94, R111, R118). -/
def ReportsCurrent (s : State) : Prop :=
  s.valves.report = computeReport s ∧ s.firing.report = s.valves.report ∧ s.firing.demand = s.valves.demand

/-! ## The firing controller -/

/-- A call: a zone that calls is flow-ready, or the hot-water call is PRESENT (R118, R122). -/
def CallPresent (f : Firing) : Prop := f.demand.calling &&& f.report.ready ≠ 0 ∨ f.call = true

/-- A path: the report names a path channel, or the hot-water path exists (R119). -/
def PathPresent (f : Firing) : Prop := f.report.path ≠ 0 ∨ f.dhwPath = true

/-- Firing is permitted (R119). -/
def FiringAllowed (s : State) : Prop :=
  s.inputs.interlock = true ∧ s.firing.inhibitText = false ∧ s.firing.inhibitWire = false ∧ s.firing.minOff = none ∧
    (s.firing.flowStatus = .valid ∨ s.firing.flowStatus = .held)

/-- IDLE, WAIT_PATH and BLOCKED stand where the table of R122 has them. -/
structure Selected (s : State) : Prop where
  idle : s.firing.state = .idle → ¬CallPresent s.firing ∧ s.firing.demand.calling = 0
  waitPath : s.firing.state = .waitPath → CallPresent s.firing ∧ ¬PathPresent s.firing ∨
    ¬CallPresent s.firing ∧ s.firing.demand.calling ≠ 0
  blocked : s.firing.state = .blocked → CallPresent s.firing ∧ PathPresent s.firing ∧ ¬FiringAllowed s

/-- The burner and pump lines follow the firing state, FIRING stands only with the interlock closed, no inhibit flag set, a
known flow temperature and a path, in a part under power, and with a call unless the min-on timer runs (R119, R121, R126).
Under power IDLE, WAIT_PATH and BLOCKED stand where R122 has them, and the path-wait timer runs in WAIT_PATH alone
(R123). -/
structure LinesKept (s : State) : Prop where
  burner : s.firing.burner = true ↔ s.firing.state = .firing
  pump : s.firing.state = .firing ∨ s.firing.state = .overrun → s.firing.pump = true
  quiet : s.firing.state = .idle ∨ s.firing.state = .waitPath ∨ s.firing.state = .blocked → s.firing.pump = false
  safe : s.firing.state = .firing →
    s.powered = true ∧ s.inputs.interlock = true ∧ s.firing.inhibitText = false ∧ s.firing.inhibitWire = false ∧
      s.firing.flowStatus ≠ .invalid ∧ s.firing.pathExists = true
  called : s.firing.state = .firing → CallPresent s.firing ∨ s.firing.minOn.isSome = true
  selected : s.powered = true → Selected s
  waiting : s.firing.pathWait.isSome = true → s.firing.state = .waitPath

/-- A report that names a flow-ready zone names a path channel (R111). -/
def ReadyHasPath (r : PathReport) : Prop := r.ready ≠ 0 → r.path ≠ 0

/-- The hot-water call stands while its causes do, the diverter while the call or a hold set has it, the hot-water path
only while the diverter is ON, and a priority period only within a call (R137, R139, R140). -/
structure CallKept (s : State) : Prop where
  call : s.powered = true → s.firing.call = callWanted s
  schedule : s.firing.schedule = hotWaterSchedule s
  diverter : s.firing.diverter = (s.firing.call || s.firing.diverterHeld)
  path : s.firing.dhwPath = true → s.firing.diverter = true
  priority : s.firing.priority.isSome = true → s.firing.call = true

/-- The targets of a state: present in FIRING alone, the heating target within Fmax and the flow target at or below the
high limit minus 500 (R116, R130, R131). -/
structure TargetsKept (s : State) : Prop where
  heating : s.firing.state = .firing ↔ s.firing.heating.isSome = true
  target : s.firing.state = .firing ↔ s.firing.flowTarget.isSome = true
  least : ∀ h, s.firing.heating = some h → s.settings.firing.fmin ≤ h
  greatest : ∀ h, s.firing.heating = some h → h ≤ s.settings.firing.fmax
  limit : ∀ t, s.firing.flowTarget = some t → t ≤ s.settings.firing.highLimit - 500
  code : s.firing.state ≠ .firing → s.firing.code = 0

/-- The delivered demands that the controller and the driver hold lie in their range (R94). -/
def DemandInRange (d : Demand) : Prop := ∀ z, 0 ≤ d.delivered.get z ∧ d.delivered.get z ≤ 4096

/-- A lockout record stands in LOCKOUT alone, with a reason (R116, R134). -/
structure LockoutKept (s : State) : Prop where
  record : s.firing.state = .lockout ↔ s.firing.lockout.isSome = true
  reason : ∀ l, s.firing.lockout = some l → l.highLimit = true ∨ l.boilerFault = true

/-! ## The notices and the ports -/

/-- The seven scope sets of a port's record, in the order of NOTICE READ (R175), as masks. -/
def PortNotices.sets (r : PortNotices) : List Nat :=
  [r.overrideChanged.toNat, r.overrideEnded.toNat, r.zoneSensor.toNat, r.frost.toNat, r.noPath.toNat, r.valveFault.toNat,
    r.bankLost.toNat]

/-- The line buffer, the response queue and the write buffer stay within their sizes (R156, R159, R162); outside a write
transfer that the port takes part in, the write buffer is empty and its overlong mark clear (log entry 19). A byte under
way has at most eight bits (R160). -/
structure PortsKept (s : State) : Prop where
  line : s.text.buffer.length ≤ 64
  queue : s.text.places.length ≤ 4
  frame : s.wire.buffer.length ≤ 24
  idle : (∀ t, s.wire.bus.carried = some t → t.role ≠ .write) → s.wire.buffer = [] ∧ s.wire.overlong = false
  bits : ∀ t, s.wire.bus.carried = some t → t.bits.length ≤ 8

end Sys2Proof.Machine
end

