-- ==== Sys2Proof/WellFormed.lean ====
section
/-!
DEFINITION. Which commands a port can hand to a block (R155, R157, R165): a text field is a signed number of nine digits at
most, a two-wire field a 16-bit value, signed or unsigned as its place says, and an optional field stands only behind the
fields before it. The rows that are no command of the catalogue are well-formed as they stand.
-/

namespace Sys2Proof

open Sys2Proof.Machine

/-- A value that a text field can carry (R157). -/
def textFieldOk (v : Int) : Bool := decide (-999999999 ≤ v) && decide (v ≤ 999999999)

/-- A value that the k-th parameter of a code's frame can carry (R165). -/
def wireFieldOk (code k : Nat) (v : Int) : Bool :=
  if readUnsigned code k then decide (0 ≤ v) && decide (v ≤ 65535) else decide (-32768 ≤ v) && decide (v ≤ 32767)

/-- The parameters of a frame from the k-th on (R165). -/
def wireFieldsOk (code k : Nat) : List Int → Bool
  | [] => true
  | v :: vs => wireFieldOk code k v && wireFieldsOk code (k + 1) vs

/-- The fields of a command on its port. -/
def fieldsOk (p : Port) (code : Nat) (fields : List Int) : Bool :=
  match p with
  | .text => fields.all textFieldOk
  | .wire => wireFieldsOk code 0 fields

/-- The end minute of OVR SET stands only behind the end day (R155). -/
def trailingOk : Instr → Bool
  | .ovrSet _ _ _ _ endDay endMinute => endDay.isSome || endMinute.isNone
  | _ => true

/-- A command that a port can hand to its block. -/
def WellFormed (i : Instr) : Bool :=
  trailingOk i &&
    match spelling i with
    | none => true
    | some (p, code, fields) => fieldsOk p code fields

end Sys2Proof
end

