-- ==== Sys2Proof/Certificates/Slice0/Obligations.lean ====
section
/-!
DEFINITION. The statements for the provers. Every statement about a row says when the row answers a next state, what that
state holds, and which parts of State the row leaves as they were. A part that a statement names as changed and does not
describe further is left open by it. Where a statement rests on a choice of the model, its docstring names the log entry.
-/

open Sys2Proof Sys2Proof.Machine

/-! ## The queue, reset and the ports' spellings -/

/-- A step takes the command at the front of the queue and runs it with the queue's rest (R170). -/
def Obligations.StepRunsFrontOfQueue : Prop :=
  ∀ (i : Instr) (rest : List Instr) (s : State), s.pending = i :: rest → step s = exec i { s with pending := rest }

/-- No row and no step stops the part. On an empty queue a part without power idles, and a part under power takes the
oldest command that a port has handed to its block: the MODEL's choice, log entries 2, 3 and 5. -/
def Obligations.NoStepStopsThePart : Prop :=
  ∀ s : State,
    (∃ t, step s = .next t) ∧ (∀ i, ∃ t, exec i s = .next t) ∧
      (s.pending = [] → s.powered = false → step s = .next s) ∧
      (∀ h rest, s.pending = [] → s.powered = true → s.handed = h :: rest → step s = exec h.command s)

/-- What the spec states for power-up, in the state after reset: outputs OFF, clock INVALID, empty table, P0 active,
channels CLOSED, IDLE with the min-off timer running, masks full, nothing pending, ports empty (R13, R38, R57, R76, R97,
R114, R142, R153, R171, R176, R177, R181). The levels of the input lines are log entry 1's and no part of this. -/
def Obligations.ResetHoldsPowerUpValues : Prop :=
  let s := State.reset
  s.clock = ⟨false, 0, 0, 0, none, none⟩ ∧ s.overrides.slots = [] ∧ s.program.active = 0 ∧ s.program.timed = none ∧
    (∀ b, (s.program.banks.get b).revision = 0 ∧ (s.program.banks.get b).dirty = false ∧
      ∀ l, (s.program.banks.get b).lists.get l = []) ∧
    (∀ v, (s.valves.channels.get v).state = .closed ∧ (s.valves.channels.get v).outputDuty = 0 ∧
      (s.valves.channels.get v).drive = false ∧ (s.valves.channels.get v).position = 0) ∧
    (∀ z, (s.regulator.zones.get z).delivered = 0 ∧ (s.regulator.zones.get z).integral = 0) ∧
    (∀ c, (s.capture.channels.get c).status = .never ∧ (s.capture.channels.get c).timing = false) ∧
    s.firing.state = .idle ∧ s.firing.burner = false ∧ s.firing.pump = false ∧ s.firing.diverter = false ∧
    s.firing.code = 0 ∧ s.firing.flowTarget = none ∧ s.firing.minOff = some 300 ∧
    s.firing.inhibitText = false ∧ s.firing.inhibitWire = false ∧ s.firing.lockout = none ∧
    s.links.lines = 0 ∧ (∀ e, s.links.counts.get e = 0) ∧
    (∀ p, (s.notices.of p).kinds = 0 ∧ (s.notices.of p).mask = 0xFFFF ∧ (s.notices.of p).attention = false) ∧
    s.text.buffer = [] ∧ s.text.places = [] ∧ s.wire.record = .statusRecord ∧ s.wire.address = 0x2C ∧
    s.store.operation = none ∧ s.pending = []

/-- The conditions that every step keeps hold right after reset. -/
def Obligations.ConditionsHoldAfterReset : Prop :=
  let s := State.reset
  SettingsKept s ∧ BanksKept s ∧ TableKept s ∧ SetpointsResolved s ∧ RecordsKept s ∧ DutiesKept s ∧ ChannelsKept s ∧
    ReportsCurrent s ∧ LinesKept s ∧ CallKept s ∧ TargetsKept s ∧ DemandInRange s.firing.demand ∧
    ReadyHasPath s.firing.report ∧ LockoutKept s ∧ PortsKept s

/-- DECODE AND ENCODE AGREE on the two-wire port: the frame of a well-formed command, code byte and parameters low byte
first, stands for that command, whatever values its fields have within the 16 bits of the port (R155, R162, R165). -/
def Obligations.FrameStandsForItsCommand : Prop :=
  ∀ (i : Instr) (code : Nat) (fields : List Int),
    WellFormed i = true → spelling i = some (.wire, code, fields) →
      code < 256 ∧ commandOf code (fields.flatMap wordBytes) = some i

/-- DECODE AND ENCODE AGREE on the text port: a complete line of a well-formed command's keyword and its fields in
decimal, separated by single spaces, is judged to be that command (R155, R157). -/
def Obligations.LineStandsForItsCommand : Prop :=
  ∀ (i : Instr) (code : Nat) (fields : List Int),
    WellFormed i = true → spelling i = some (.text, code, fields) →
      ∃ words, (words, code) ∈ keywords ∧
        ∀ port : TextPort, port.overlong = false → port.badCharacter = false →
          port.line = List.intercalate [32] ((words ++ fields.map decimal).map fun w => w.map Char.toNat) →
            port.judge = .command i

/-! ## Power and resets -/

/-- What a start leaves in every block (R13, R38, R57, R76, R97, R114, R142, R153, R171, R176, R181), with or without a
save in flight: what of the store is good is loaded, everything else is at its power-up value. A mode's own condition that
holds at once starts a hot-water call (R142), which in FOLLOW is a request at the input; otherwise no call is made, the
controller stands in IDLE and the lines are OFF. The model's `powered` is log entry 2's, the count of a stopped capture
timer log entry 28's. -/
def Obligations.PowerUpLoadsStoredObjects : Prop :=
  ∀ (i : Instr) (s : State), (i = .powerUp ∨ (i = .externalReset ∧ s.powered = true)) →
    ∃ t, exec i s = .next t ∧
      Keeps [.powered, .clock, .program, .overrides, .capture, .regulator, .valves, .firing, .links, .notices, .settings,
        .store, .text, .wire, .handed, .answered] s t ∧
      (s.store.operation = none → t.store = s.store) ∧ t.store.operation = none ∧
      t.powered = true ∧ t.clock = ⟨false, 0, 0, 0, none, none⟩ ∧ t.overrides.slots = [] ∧ SetpointsResolved t ∧
      t.settings = (if t.store.config.good then t.store.config.content else factorySettings) ∧
      t.program.active = t.settings.startupBank ∧ t.program.timed = none ∧
      (∀ l, t.program.remembered.get l = none) ∧
      (∀ b, (t.program.banks.get b).revision = 0 ∧ (t.program.banks.get b).dirty = !(t.store.banks.get b).good ∧
        (t.program.banks.get b).lists =
          (if (t.store.banks.get b).good then (t.store.banks.get b).content else emptyLists)) ∧
      (∀ p, (t.notices.of p).mask = 0xFFFF ∧
        (∀ k : Fin 16, (t.notices.of p).kinds.getLsbD k.val = ((decide (k = 13) && !t.store.config.good) ||
          (decide (k = 14) && decide (∃ b, (t.store.banks.get b).good = false)))) ∧
        (t.notices.of p).sets.take 6 = [0, 0, 0, 0, 0, 0] ∧
        ∀ b : Fin 4, (t.notices.of p).bankLost.getLsbD b.val = !(t.store.banks.get b).good) ∧
      t.capture = blankCapture s.capture.channels ∧ t.regulator = blankRegulator ∧
      (∀ v, t.valves.channels.get v =
        ⟨0, false, 0, false, 0, 0, false, 0, .closed, none, (s.valves.channels.get v).endSwitch⟩) ∧
      t.valves.demand = blankDemand ∧ t.valves.report = ⟨0, 0⟩ ∧ t.valves.latestHold = 0 ∧
      t.firing.burner = false ∧ t.firing.pump = false ∧ t.firing.minOn = none ∧
      t.firing.minOff = (if t.settings.firing.minOff = 0 then none else some t.settings.firing.minOff) ∧
      t.firing.overrun = none ∧ t.firing.flameWait = none ∧
      t.firing.faultTimer = (if s.inputs.fault then some 0 else none) ∧ t.firing.heating = none ∧
      t.firing.ceiling = none ∧ t.firing.flowTarget = none ∧ t.firing.code = 0 ∧ t.firing.lockout = none ∧
      t.firing.inhibitText = false ∧ t.firing.inhibitWire = false ∧ t.firing.timedCall = none ∧
      t.firing.hold = none ∧ t.firing.demand = blankDemand ∧ t.firing.report = ⟨0, 0⟩ ∧ t.firing.flow = none ∧
      t.firing.flowStatus = .invalid ∧ t.firing.schedule = false ∧
      ((t.settings.hotWater.mode = .follow → s.inputs.request = false) →
        t.firing.state = .idle ∧ t.firing.call = false ∧ t.firing.diverter = false ∧ t.firing.dhwPath = false ∧
          t.firing.pathWait = none ∧ t.firing.priority = none ∧ t.links = ⟨0, Tab.all 0⟩) ∧
      (t.settings.hotWater.mode = .follow → s.inputs.request = true →
        (t.firing.state = .waitPath ∨ t.firing.state = .blocked) ∧ t.firing.call = true ∧ t.firing.diverter = true ∧
          t.firing.priority = (if t.settings.hotWater.absolute then some 0 else none)) ∧
      t.text = ⟨[], false, false, [], []⟩ ∧ t.wire.buffer = [] ∧ t.wire.overlong = false ∧
      t.wire.record = .statusRecord ∧ t.wire.address = t.settings.wireAddress ∧ t.wire.bus.carried = none ∧
      t.handed = []

/-- Power loss, and a start that follows without one, leave the object of a save in flight corrupt and the other stored
objects as they were (R179). Power loss drives every output off and keeps the store, the levels of the input lines and the
queue; nothing else remains of what was. R179 speaks of the stored objects and of what is not stored; the `powered` field
and the values that a part without power has in the meantime are the MODEL's, log entries 2 and 24, the count of a stopped
timer among them log entry 28's. -/
def Obligations.PowerLossKeepsOnlyTheStore : Prop :=
  ∀ s : State, s.powered = true →
    (∀ o, s.store.operation = some o → ∀ i, (i = .powerLoss ∨ i = .externalReset ∨ i = .powerUp) →
      ∃ t, exec i s = .next t ∧ t.store.operation = none ∧
        (∀ c, o.object = .config c → t.store.config.good = false ∧ t.store.banks = s.store.banks) ∧
        (∀ b lists, o.object = .bank b lists →
          (t.store.banks.get b).good = false ∧ t.store.config = s.store.config ∧
            ∀ b', b' ≠ b → t.store.banks.get b' = s.store.banks.get b')) ∧
    (∃ t, exec .powerLoss s = .next t ∧ t.powered = false ∧ (s.store.operation = none → t.store = s.store) ∧
      t.inputs = s.inputs ∧ t.orders = s.orders ∧ t.raised = s.raised ∧ t.pending = s.pending ∧
      t.clock = blankClock ∧ t.overrides = ⟨[], Tab.all none⟩ ∧ t.capture = blankCapture s.capture.channels ∧
      t.regulator = blankRegulator ∧ t.valves = blankValves s.valves.channels ∧ t.firing = blankFiring 0 false ∧
      t.links = blankLinks ∧ t.notices = blankNotices ∧ t.settings = factorySettings ∧
      t.program = blankProgram unwrittenStore.banks 0 ∧ t.text = blankText ∧ t.handed = [] ∧ t.answered = none ∧
      t.wire.record = .statusRecord ∧ t.wire.buffer = [] ∧
      t.wire.bus = { s.wire.bus with carried := none } ∧
      t.firing.burner = false ∧ t.firing.pump = false ∧ t.firing.diverter = false ∧ t.firing.code = 0 ∧
      t.links.lines = 0 ∧ t.text.transmitting = [] ∧ (∀ p, (t.notices.of p).attention = false) ∧
      ∀ v, (t.valves.channels.get v).drive = false)

/-- What SOFT RESET keeps and what it restarts in every block, the link matrix among them, and the ports after it, with the
OK on the carrying port (R57, R77, R98, R115, R143, R154, R161, R171, R176, R179, R182). Lines and counts show what the
matrix takes after its own reset and nothing of before (R154). The orders are log entry 15's; that a channel with a close
time of 0 keeps its estimate is log entry 16's (DEDUCED), that the OK is given in every state log entry 17's (DESIGN
CHOICE), and the count of a stopped capture timer log entry 28's (DESIGN CHOICE). -/
def Obligations.SoftResetKeepsAndRestarts : Prop :=
  ∀ (p : Port) (s : State), s.powered = true →
    ∃ t, exec (.softReset p) s = .next t ∧
      Keeps [.overrides, .capture, .regulator, .valves, .firing, .links, .notices, .text, .wire, .handed, .answered,
        .orders] s t ∧
      t.overrides.slots = s.overrides.slots ∧ SetpointsResolved t ∧
      t.regulator = blankRegulator ∧ t.capture.publication = s.capture.publication ∧ t.capture.lost = 0 ∧
      t.capture.seconds = 0 ∧ (∀ z, t.capture.reports.get z = none) ∧
      (∀ c, t.capture.channels.get c = blankChannel (s.capture.channels.get c).raw) ∧
      (∀ v, (t.valves.channels.get v).position = (s.valves.channels.get v).position ∧
        (t.valves.channels.get v).demandDuty = 0 ∧ (t.valves.channels.get v).hold = false ∧
        (t.valves.channels.get v).endSwitch = (s.valves.channels.get v).endSwitch ∧
        ((s.valves.channels.get v).state ≠ .fault →
          (t.valves.channels.get v).outputDuty = 0 ∧ (t.valves.channels.get v).drive = false ∧
          (t.valves.channels.get v).running = false ∧ (t.valves.channels.get v).appliedDuty = 0 ∧
          (t.valves.channels.get v).confirmTimer = none ∧
          (t.valves.channels.get v).state =
            (if (s.valves.channels.get v).position = 0 then .closed else .closing)) ∧
        ((s.valves.channels.get v).state = .fault → (t.valves.channels.get v).state = .fault)) ∧
      t.valves.demand = blankDemand ∧ t.valves.report = computeReport t ∧ t.firing.report = t.valves.report ∧
      t.firing.inhibitText = s.firing.inhibitText ∧ t.firing.inhibitWire = s.firing.inhibitWire ∧
      t.firing.faultTimer = s.firing.faultTimer ∧ t.firing.timedCall = none ∧ t.firing.demand = blankDemand ∧
      (∀ line : Fin 8, s.settings.linked.get line = false → t.links.lines.getLsbD line.val = false) ∧
      (∀ e, ((s.settings.events.get e).enabled = false ∨ (s.settings.events.get e).kind ∈
          [.zoneCallOn, .zoneCallOff, .switchCross, .sensorLost, .frostOn, .frostOff, .bankChange, .valveFault,
            .lockoutOn, .lockoutOff] → t.links.counts.get e = 0) ∧
        ((s.settings.events.get e).kind = .burnerOff → t.links.counts.get e ≤ 1)) ∧
      (s.firing.burner = false → s.firing.pump = false → s.firing.state ≠ .firing → s.firing.state ≠ .overrun →
        s.firing.call = false → (s.settings.hotWater.mode = .off ∨ s.settings.hotWater.mode = .pulse ∨
          s.inputs.request = false) → t.links.lines = 0 ∧ ∀ e, t.links.counts.get e = 0) ∧
      (∀ q, (t.notices.of q).kinds = 0 ∧ (t.notices.of q).sets = [0, 0, 0, 0, 0, 0, 0] ∧
        (t.notices.of q).mask = (s.notices.of q).mask) ∧
      t.text.buffer = [] ∧ t.text.overlong = false ∧ t.text.badCharacter = false ∧
      t.text.transmitting.length ≤ 1 ∧ (∀ c ∈ t.text.transmitting, c ∈ s.text.transmitting) ∧
      t.wire.buffer = [] ∧ t.wire.overlong = false ∧ t.wire.bus = { s.wire.bus with carried := none } ∧
      t.wire.address = s.settings.wireAddress ∧
      (p = .text → t.text.places = [.ready (.ok [])] ∧ t.wire.record = .statusRecord) ∧
      (p = .wire → t.text.places = [] ∧ t.wire.record = .judged 0x93 (.ok [])) ∧
      (∀ h ∈ t.handed, h.live = false)

/-- The firing state across SOFT RESET (R143). FIRING goes to OVERRUN with the burner OFF, the min-off timer from its
setting and a hold set of the channels as they stood before or stand after the driver's own reset (R115, R129), stated for
settings that allow no new firing at once; LOCKOUT stays with its record, with a fresh hold set where the pump is ON
without a bypass; the other states go to IDLE, stated for hot-water mode OFF. The diverter is ON afterwards for the
hot-water call or a fresh hold set alone; that the valve channels of an old set stay in it is log entry 27's. -/
def Obligations.SoftResetRestartsController : Prop :=
  ∀ (p : Port) (s : State), s.powered = true →
    (∃ t, exec (.softReset p) s = .next t ∧
      (t.firing.diverter = true → t.firing.call = true ∨
        (s.settings.firing.bypass = false ∧ s.firing.diverter = true ∧ ∃ h ∈ t.firing.hold, h.diverter = true))) ∧
    (s.firing.state = .lockout →
      ∃ t, exec (.softReset p) s = .next t ∧ t.firing.state = .lockout ∧ t.firing.lockout = s.firing.lockout ∧
        t.firing.pump = s.firing.pump ∧ t.firing.minOff = s.firing.minOff ∧
        (s.firing.pump = true → s.settings.firing.bypass = false →
          HoldInForce t (fun set =>
            FixedHold s.settings.firing.fallbackChannel s.valves.channels s.firing.diverter set ∨
              FixedHold s.settings.firing.fallbackChannel t.valves.channels s.firing.diverter set) s.firing.diverter) ∧
        (s.firing.pump = false ∨ s.settings.firing.bypass = true → t.firing.diverter = t.firing.call)) ∧
    (s.firing.state = .firing → 0 < s.settings.firing.minOff → 0 < s.settings.firing.overrun →
      ∃ t, exec (.softReset p) s = .next t ∧ t.firing.state = .overrun ∧ t.firing.burner = false ∧
        t.firing.pump = s.firing.pump ∧ t.firing.minOff = some s.settings.firing.minOff ∧
        t.firing.overrun = some s.settings.firing.overrun ∧ t.firing.flowTarget = none ∧ t.firing.code = 0 ∧
        (s.settings.firing.bypass = false →
          HoldInForce t (fun set =>
            FixedHold s.settings.firing.fallbackChannel s.valves.channels s.firing.diverter set ∨
              FixedHold s.settings.firing.fallbackChannel t.valves.channels s.firing.diverter set) s.firing.diverter)) ∧
    (s.firing.state = .idle ∨ s.firing.state = .waitPath ∨ s.firing.state = .blocked ∨ s.firing.state = .overrun →
      s.settings.hotWater.mode = .off →
      ∃ t, exec (.softReset p) s = .next t ∧ t.firing.state = .idle ∧ t.firing.pump = false ∧
        t.firing.hold = none ∧ t.firing.call = false ∧ t.firing.diverter = false ∧ t.firing.minOff = s.firing.minOff)

/-! ## The text port -/

/-- What each received character does (R156), with what a completed line comes to (R157, R159): a blank line gives
nothing; with a free place a refused line's response, or a command with its handing, takes it; with all four taken the
line is lost and PORT_OVERRUN posted to the text port. -/
def Obligations.CharactersFillAndCompleteLines : Prop :=
  ∀ (c : Byte) (s : State), s.powered = true →
    (∃ t, exec (.textCharacter c true) s = .next t ∧ Keeps [.text] s t ∧
      t.text = { s.text with badCharacter := true }) ∧
    (c = 10 → exec (.textCharacter c false) s = .next s) ∧
    (c ≠ 10 → c ≠ 13 → ∃ t, exec (.textCharacter c false) s = .next t ∧ Keeps [.text] s t ∧
      t.text = (if s.text.buffer.length < 64 then { s.text with buffer := s.text.buffer ++ [c] }
        else { s.text with overlong := true })) ∧
    (c = 13 → ∃ t, exec (.textCharacter c false) s = .next t ∧ Keeps [.text, .handed, .notices] s t ∧
      t.text.buffer = [] ∧ t.text.overlong = false ∧ t.text.badCharacter = false ∧
      t.text.transmitting = s.text.transmitting ∧
      ((∀ d ∈ s.text.buffer, d = 32) → s.text.overlong = false → s.text.badCharacter = false →
        t.text.places = s.text.places ∧ t.handed = s.handed ∧ t.notices = s.notices) ∧
      ((∃ d ∈ s.text.buffer, d ≠ 32) ∨ s.text.overlong = true ∨ s.text.badCharacter = true →
        4 ≤ s.text.places.length →
          t.text.places = s.text.places ∧ t.handed = s.handed ∧ t.notices.wire = s.notices.wire ∧
            t.notices.text = s.notices.text.take .portOverrun) ∧
      ((∃ d ∈ s.text.buffer, d ≠ 32) ∨ s.text.overlong = true ∨ s.text.badCharacter = true →
        s.text.places.length < 4 → t.notices = s.notices ∧
          (s.text.overlong = true → s.text.judge = .refused .tooLong) ∧
          (s.text.overlong = false → s.text.badCharacter = true → s.text.judge = .refused .badForm) ∧
          (∀ w, s.text.judge = .refused w → t.text.places = s.text.places ++ [.ready (.er w)] ∧ t.handed = s.handed) ∧
          (∀ i, s.text.judge = .command i →
            t.text.places = s.text.places ++ [.waiting i] ∧ t.handed = s.handed ++ [⟨i, true⟩])))

/-- The oldest place alone is sent, once its response is present, and freed when it has been sent (R159). A block's
response fills the first place that waits for it, or replaces the record of a two-wire port in progress with it (R163), and
is dropped where a soft reset has cleared its port meanwhile; the character that such a reset left on the line ends with
nothing more (R171). That a response taken while that character stands in the state has the line alone is log entry 30's
(DESIGN CHOICE). -/
def Obligations.ResponsesReachTheirPorts : Prop :=
  ∀ s : State,
    (∀ (r : Response) (rest : List Place), s.powered = true →
      (s.text.places = .ready r :: rest →
        ∃ t, exec .textResponseSend s = .next t ∧ Keeps [.text] s t ∧ t.text.places = .sending r :: rest ∧
          t.text.transmitting = (r.characters.map fun ch => BitVec.ofNat 8 ch.toNat) ++ [13, 10] ∧
          t.text.buffer = s.text.buffer) ∧
      (s.text.places = .sending r :: rest →
        ∃ t, exec .textResponseSent s = .next t ∧ Keeps [.text] s t ∧ t.text.places = rest ∧
          t.text.transmitting = [] ∧ t.text.buffer = s.text.buffer) ∧
      (∀ i, s.text.places = .waiting i :: rest → exec .textResponseSend s = .next s)) ∧
    (s.powered = true → (∀ r rest, s.text.places ≠ .sending r :: rest) →
      exec .textResponseSent s = .next { s with text := { s.text with transmitting := [] } }) ∧
    (∀ (i : Instr) (r : Response) (rest : List Handed), s.handed = ⟨i, true⟩ :: rest →
      (∀ before after, s.text.places = before ++ .waiting i :: after → Place.waiting i ∉ before →
        (deliver i .text r s).text.places = before ++ .ready r :: after ∧
          (deliver i .text r s).handed = rest ∧ Keeps [.text, .handed, .answered] s (deliver i .text r s)) ∧
      (∀ code, s.wire.record = .inProgress code i →
        (deliver i .wire r s).wire.record = .judged code r ∧
          (deliver i .wire r s).handed = rest ∧ Keeps [.wire, .handed, .answered] s (deliver i .wire r s))) ∧
    (∀ (i : Instr) (p : Port) (r : Response) (rest : List Handed), s.handed = ⟨i, false⟩ :: rest →
      (deliver i p r s).text = s.text ∧ (deliver i p r s).wire = s.wire ∧ (deliver i p r s).handed = rest)

/-! ## The two-wire port -/

/-- A write transfer on a free bus (R160), whatever levels its ninth bits have: to the address in use it is acknowledged
byte by byte, bytes 0 to 23, and judged check by check at a valid STOP (R161 to R163). One without data bytes, to another
address, or while a command is in progress leaves the record as it was. One that ends at a repeated START, or at a START or
a STOP within a byte, executes nothing; the repeated START opens the next transfer, the bus error opens none. That the
write buffer is empty after a judged frame is log entry 19's (DEDUCED), that a START within a byte opens no transfer log
entry 26's (DEDUCED). -/
def Obligations.WriteTransfersAreJudged : Prop :=
  ∀ (address : BitVec 7) (ack : Bool) (s : State), s.powered = true → s.wire.bus.carried = none →
    (∀ code ninth data bytes, data = (code, ninth) :: bytes → address.toNat = s.wire.address → s.wire.busy = false →
      ∃ t, exec (.writeTransfer (transferLevels address false ack data) stopLevels) s = .next t ∧
        Keeps [.wire, .handed] s t ∧ t.wire.address = s.wire.address ∧ t.wire.buffer = [] ∧ t.wire.overlong = false ∧
        t.wire.bus = ⟨true, true, true, none⟩ ∧ t.wire.transfer.addressAck = true ∧
        t.wire.transfer.acks.length = data.length ∧
        (∀ k, k < data.length → t.wire.transfer.acks[k]? = some (decide (k < 24))) ∧
        (24 < data.length → t.wire.record = .judged code (.er .length) ∧ t.handed = s.handed) ∧
        (data.length ≤ 24 → code.toNat ∉ codes →
          t.wire.record = .judged code (.er .unknown) ∧ t.handed = s.handed) ∧
        (data.length ≤ 24 → code.toNat ∈ codes → commandOf code.toNat (bytes.map Prod.fst) = none →
          t.wire.record = .judged code (.er .length) ∧ t.handed = s.handed) ∧
        (∀ i, data.length ≤ 24 → code.toNat ∈ codes → commandOf code.toNat (bytes.map Prod.fst) = some i →
          t.wire.record = .inProgress code i ∧ t.handed = s.handed ++ [⟨i, true⟩])) ∧
    (address.toNat = s.wire.address → s.wire.busy = false →
      ∃ t, exec (.writeTransfer (transferLevels address false ack []) stopLevels) s = .next t ∧ Keeps [.wire] s t ∧
        t.wire.record = s.wire.record ∧ t.wire.transfer.addressAck = true ∧ t.wire.bus.carried = none) ∧
    (∀ data, address.toNat ≠ s.wire.address ∨ s.wire.busy = true →
      ∃ t, exec (.writeTransfer (transferLevels address false ack data) stopLevels) s = .next t ∧
        Keeps [.wire] s t ∧ t.wire.record = s.wire.record ∧ t.wire.buffer = s.wire.buffer ∧
        t.wire.transfer = ⟨false, [], []⟩ ∧ t.wire.bus.carried = none) ∧
    (∀ data, s.wire.buffer = [] → s.wire.overlong = false →
      (∃ t, exec (.repeatedStart (transferLevels address false ack data) startLevels) s = .next t ∧
        Keeps [.wire] s t ∧ t.wire.record = s.wire.record ∧ t.wire.buffer = [] ∧ t.wire.overlong = false ∧
        t.wire.address = s.wire.address ∧ t.wire.bus.carried = some ⟨.unaddressed, []⟩) ∧
      (∀ bits sign, bits ≠ [] → bits.length ≤ 8 → (sign = startLevels ∨ sign = stopLevels) →
        ∃ t, exec (.busError (transferLevels address false ack data ++ bits.flatMap bitLevels) sign) s = .next t ∧
          Keeps [.wire] s t ∧ t.wire.record = s.wire.record ∧ t.wire.buffer = [] ∧ t.wire.overlong = false ∧
          t.wire.address = s.wire.address ∧ t.wire.bus.carried = none))

/-- A read transfer to the address in use, on a free bus, is acknowledged, also while a command is in progress; it returns
the record from its first byte, with 0xFF beyond its end, and does not change it (R160, R161, R163, R164). To another
address the port acknowledges and returns nothing. That one read returns the record of its address byte whole is log entry
26's (DEDUCED). -/
def Obligations.ReadTransferReturnsRecord : Prop :=
  ∀ (address : BitVec 7) (ack : Bool) (bytes : List (Byte × Bool)) (s : State), s.powered = true →
    s.wire.bus.carried = none →
    (address.toNat = s.wire.address →
      ∃ t, exec (.readTransfer (transferLevels address true ack bytes) stopLevels) s = .next t ∧ Keeps [.wire] s t ∧
        t.wire.record = s.wire.record ∧ t.wire.address = s.wire.address ∧ t.wire.bus.carried = none ∧
        t.wire.transfer.addressAck = true ∧ t.wire.transfer.bytes.length = bytes.length ∧
        (∀ code i k, s.wire.record = .inProgress code i → k < bytes.length →
          t.wire.transfer.bytes[k]? = some (if k = 0 then 0xFE else if k = 1 then code else 0xFF)) ∧
        (∀ code w k, s.wire.record = .judged code (.er w) → k < bytes.length →
          t.wire.transfer.bytes[k]? =
            some (if k = 0 then BitVec.ofNat 8 w.code else if k = 1 then code else 0xFF)) ∧
        (∀ code fields k, s.wire.record = .judged code (.ok fields) → k < bytes.length →
          t.wire.transfer.bytes[k]? = some (([0, code] ++ fields.flatMap Field.bytes).getD k 0xFF)) ∧
        (∀ k, s.wire.record = .statusRecord → k < bytes.length →
          t.wire.transfer.bytes[k]? = some (([0, 0x02] ++ (statusFields s).flatMap Field.bytes).getD k 0xFF))) ∧
    (address.toNat ≠ s.wire.address →
      ∃ t, exec (.readTransfer (transferLevels address true ack bytes) stopLevels) s = .next t ∧ Keeps [.wire] s t ∧
        t.wire.record = s.wire.record ∧ t.wire.transfer = ⟨false, [], []⟩)

/-! ## Commands that read -/

/-- IDENT, STATUS, ZONE GET and CLOCK GET return the fields of their tables and change nothing (R11, R167, R168, R169); a
zone outside 0 to 15 is refused RANGE. -/
def Obligations.PortReadsAnswerRecords : Prop :=
  ∀ (p : Port) (s : State), s.powered = true →
    (∃ t, exec (.ident p) s = .next t ∧ Keeps responseParts s t ∧
      t.answered = some (p, .ok (([75, 16, 1, 16, 18, 16, 4, 256, 8, 8, 8, if p = .text then 1 else 2,
        (s.wire.address : Int), (s.settings.wireAddress : Int)] : List Int).map Field.word))) ∧
    (∃ t, exec (.clockGet p) s = .next t ∧ Keeps responseParts s t ∧
      t.answered = some (p, .ok (([bit s.clock.valid, (s.clock.day : Int), (s.clock.minute : Int),
        (s.clock.second : Int), match s.clock.origin with | none => 0 | some .text => 1 | some .wire => 2]
          : List Int).map Field.word))) ∧
    (∃ t, exec (.status p) s = .next t ∧ Keeps responseParts s t ∧
      t.answered = some (p, .ok ((
        ([bit s.clock.valid, (s.clock.day : Int), (s.clock.minute : Int), (s.clock.second : Int),
          match s.clock.origin with | none => 0 | some .text => 1 | some .wire => 2, (s.program.active.val : Int)]
          : List Int) ++
        (match s.program.timed with
          | none => [0, 0, 0, 0, 0]
          | some r => [1, (r.bank.val : Int), (r.returnBank.val : Int), (r.days : Int), (r.endMinute : Int)]) ++
        [match s.firing.state with
          | .idle => 0 | .waitPath => 1 | .blocked => 2 | .firing => 3 | .overrun => 4 | .lockout => 5,
          bit s.firing.burner, bit s.firing.pump, bit s.inputs.flame, bit s.inputs.interlock, bit s.firing.diverter,
          bit s.firing.inhibitText, bit s.firing.inhibitWire] ++
        (match s.firing.lockout with
          | none => [0, 0, 0, 0, 0, 0, 0]
          | some l => [1, (if l.highLimit then 1 else 0) + (if l.boilerFault then 2 else 0), bit l.entry.isSome,
              ((l.entry.map WeekTime.day).getD 0 : Nat), ((l.entry.map WeekTime.minute).getD 0 : Nat),
              bit l.peak.isSome, l.peak.getD 0]) ++
        [bit s.firing.call, bit s.firing.priority.isSome, (s.firing.timedCall.getD 0 : Nat),
          match s.store.operation with
            | none => 0 | some ⟨.bank b _, _⟩ => (b.val : Int) + 1 | some ⟨.config _, _⟩ => 5,
          match s.capture.publication.flowStatus with | .invalid => 0 | .valid => 1 | .held => 2,
          s.capture.publication.flow.getD 0, bit s.firing.flowTarget.isSome, s.firing.flowTarget.getD 0,
          s.firing.code]).map Field.word)) ∧
      ∀ r, t.answered = some (p, r) → (r.bytes 0x02).length = 72) ∧
    (∀ zone : Int, zone < 0 ∨ 15 < zone → ∃ t, exec (.zoneGet p zone) s = .next t ∧ Keeps responseParts s t ∧
      t.answered = some (p, .er .range)) ∧
    (∀ z : Fin 16, ∃ t, exec (.zoneGet p z.val) s = .next t ∧ Keeps responseParts s t ∧
      t.answered = some (p, .ok ((
        ([bit (s.settings.zones.get z).enabled,
          match (s.capture.publication.zones.get z).status with | .invalid => 0 | .valid => 1 | .held => 2,
          (s.capture.publication.zones.get z).temp.getD 0,
          match (s.capture.publication.zones.get z).source with | .absent => 0 | .channel => 1 | .remote => 2,
          match scheduledTarget s z with | .off => 0 | .on => 1 | .temp c => c] : List Int) ++
        (match s.overrides.slots.find? fun o => o.zone = z with
          | none => [0, 0, 0, 0, 0, 0, 0]
          | some o => [1, o.setpoint.getD 0] ++
            (match o.kind with
              | .next => [0, 0, 0, 0]
              | .untilTime e r => [1, (e.day : Int), (e.minute : Int), (r : Int)]
              | .hold => [2, 0, 0, 0]) ++ [if o.origin = .text then 1 else 2]) ++
        [(s.overrides.effective.get z).getD 0, (s.regulator.zones.get z).demand, (s.regulator.zones.get z).delivered,
          bit (s.regulator.zones.get z).frost, bit (s.regulator.zones.get z).calling,
          bit (s.valves.report.ready.getLsbD z.val)]).map Field.word)))

/-- POINT GET, BANK GET and OVR LIST return what the program store and the override table hold and change nothing; values
outside their ranges are refused RANGE, positions beyond the count NOTFOUND (R27, R49). -/
def Obligations.ProgramAndTableReadsAnswer : Prop :=
  ∀ (p : Port) (b : Fin 4) (l : Fin 17) (n : Nat) (s : State), s.powered = true →
    (∀ q, n < 256 → ((s.program.banks.get b).lists.get l)[n]? = some q →
      ∃ t, exec (.pointGet p b.val l.val n) s = .next t ∧ Keeps responseParts s t ∧
        t.answered = some (p, .ok [.word q.days.toNat, .word q.start,
          .word (match q.target with | .off => 0 | .on => 1 | .temp c => c),
          .word ((s.program.banks.get b).lists.get l).length, .word (s.program.banks.get b).revision])) ∧
    (n < 256 → ((s.program.banks.get b).lists.get l).length ≤ n →
      ∃ t, exec (.pointGet p b.val l.val n) s = .next t ∧ Keeps responseParts s t ∧
        t.answered = some (p, .er .notFound)) ∧
    (∀ v w x : Int, v < 0 ∨ 3 < v ∨ w < 0 ∨ 16 < w ∨ x < 0 ∨ 255 < x →
      ∃ t, exec (.pointGet p v w x) s = .next t ∧ Keeps responseParts s t ∧ t.answered = some (p, .er .range)) ∧
    (∃ t, exec (.bankGet p b.val) s = .next t ∧ Keeps responseParts s t ∧
      t.answered = some (p, .ok [.word (s.program.banks.get b).revision, .word (bit (s.program.banks.get b).dirty),
        .word (((s.program.banks.get b).lists.list.map List.length).sum : Nat),
        .word (match s.store.operation with
          | some ⟨.bank b' _, _⟩ => if b' = b then 1 else 0
          | some ⟨.config _, _⟩ => 0
          | none => 0),
        .word (if b = s.program.active then 1 else 0)])) ∧
    (∀ v : Int, v < 0 ∨ 3 < v →
      ∃ t, exec (.bankGet p v) s = .next t ∧ Keeps responseParts s t ∧ t.answered = some (p, .er .range)) ∧
    (∃ t, exec (.ovrList p none) s = .next t ∧ Keeps responseParts s t ∧
      t.answered = some (p, .ok (.word s.overrides.slots.length ::
        s.overrides.slots.map fun o => .word o.zone.val))) ∧
    (∀ o, n < 8 → s.overrides.slots[n]? = some o →
      ∃ t, exec (.ovrList p (some n)) s = .next t ∧ Keeps responseParts s t ∧
        t.answered = some (p, .ok (([(o.zone.val : Int), o.setpoint.getD 0] ++
          (match o.kind with
            | .next => [0, 0, 0, 0]
            | .untilTime e r => [1, (e.day : Int), (e.minute : Int), (r : Int)]
            | .hold => [2, 0, 0, 0]) ++
          [if o.origin = .text then 1 else 2, bit o.created.isSome, ((o.created.map WeekTime.day).getD 0 : Nat),
            ((o.created.map WeekTime.minute).getD 0 : Nat)] : List Int).map Field.word))) ∧
    (n < 8 → s.overrides.slots.length ≤ n →
      ∃ t, exec (.ovrList p (some n)) s = .next t ∧ Keeps responseParts s t ∧ t.answered = some (p, .er .notFound)) ∧
    (∀ v : Int, v < 0 ∨ 7 < v →
      ∃ t, exec (.ovrList p (some v)) s = .next t ∧ Keeps responseParts s t ∧ t.answered = some (p, .er .range))

/-- CAPTURE GET, REG GET, VALVE GET, LINE GET and LINK GET return the fields of their tables and change nothing; an index
outside its range is refused RANGE (R74, R95, R112, R151). -/
def Obligations.UnitReadsAnswerRecords : Prop :=
  ∀ (p : Port) (s : State), s.powered = true →
    (∀ c : Fin 18, ∃ t, exec (.captureGet p c.val) s = .next t ∧ Keeps responseParts s t ∧
      t.answered = some (p, .ok [
        .word (match (s.capture.channels.get c).status with | .never => 0 | .valid => 1 | .held => 2 | .noSignal => 3),
        .word (bit (s.capture.channels.get c).last.isSome), .word ((s.capture.channels.get c).last.getD 0),
        .word (bit (s.capture.channels.get c).timing), .word (s.capture.channels.get c).run,
        .word (s.capture.channels.get c).lastCount, .word (s.capture.channels.get c).lastRejects,
        .word (bit (s.settings.capture.get c).falling), .word (s.settings.capture.get c).filter,
        .word (s.settings.capture.get c).offset])) ∧
    (∀ z : Fin 16, ∃ t, exec (.regGet p z.val) s = .next t ∧ Keeps responseParts s t ∧
      t.answered = some (p, .ok [
        .word (match (s.regulator.zones.get z).outcome with | .disabled => 0 | .fallback => 1 | .regulated => 2),
        .word ((s.regulator.zones.get z).setpointUsed.getD 0), .word ((s.regulator.zones.get z).tempUsed.getD 0),
        .word (match (s.regulator.zones.get z).statusUsed with | .invalid => 0 | .valid => 1 | .held => 2),
        .word (s.regulator.zones.get z).lastError, .wide (s.regulator.zones.get z).lastP,
        .wide (s.regulator.zones.get z).lastIncrement, .wide (s.regulator.zones.get z).integral,
        .word (s.regulator.zones.get z).demand, .word (s.regulator.zones.get z).delivered,
        .word (bit (s.regulator.zones.get z).frost), .word (bit (s.regulator.zones.get z).calling),
        .word (bit s.regulator.priorityInForce), .word s.regulator.passCount,
        .word ((60 - s.regulator.timer : Nat) : Int)])) ∧
    (∀ v : Fin 16, ∃ t, exec (.valveGet p v.val) s = .next t ∧ Keeps responseParts s t ∧
      t.answered = some (p, .ok [.word (((s.settings.valves.get v).zone.map Fin.val).getD 16 : Nat),
        .word (match (s.valves.channels.get v).state with
          | .closed => 0 | .opening => 1 | .opened => 2 | .closing => 3 | .fault => 4),
        .word (s.valves.channels.get v).demandDuty, .word (s.valves.channels.get v).outputDuty,
        .word (s.valves.channels.get v).appliedDuty, .word (bit (s.valves.channels.get v).hold),
        .word (bit (s.valves.channels.get v).drive), .word (s.valves.channels.get v).cycleTime,
        .word (s.valves.channels.get v).position, .word (bit (s.valves.channels.get v).endSwitch),
        .word ((s.valves.channels.get v).confirmTimer.getD 0 : Nat),
        .word (if (s.valves.channels.get v).state = .opened ∨ (s.valves.channels.get v).state = .closing then 1 else 0),
        .word (s.settings.valves.get v).minDuty, .word (s.settings.valves.get v).maxDuty,
        .word (s.settings.valves.get v).openTime, .word (s.settings.valves.get v).closeTime,
        .word (if (s.settings.valves.get v).confirm = .timer then 0 else 1)])) ∧
    (∃ t, exec (.lineGet p) s = .next t ∧ Keeps responseParts s t ∧
      ∃ modes : LineSet, t.answered = some (p, .ok [.word s.links.lines.toNat, .word modes.toNat]) ∧
        ∀ line : Fin 8, modes.getLsbD line.val = s.settings.linked.get line) ∧
    (∀ e : Fin 8, ∃ t, exec (.linkGet p e.val) s = .next t ∧ Keeps responseParts s t ∧
      t.answered = some (p, .ok ([.word (bit (s.settings.events.get e).enabled),
        .word (s.settings.events.get e).kind.code,
        .word (((s.settings.events.get e).parameter.map Fin.val).getD 16 : Nat)] ++
          ((List.finRange 8).map fun line => .word
            (match (s.settings.bindings.get e).get line with
              | .nothing => 0 | .set => 1 | .clear => 2 | .toggle => 3)) ++
          [.word (s.links.counts.get e)]))) ∧
    (∀ (n : Int) (i : Instr), (i = .captureGet p n ∧ (n < 0 ∨ 17 < n)) ∨ (i = .regGet p n ∧ (n < 0 ∨ 15 < n)) ∨
        (i = .valveGet p n ∧ (n < 0 ∨ 15 < n)) ∨ (i = .linkGet p n ∧ (n < 0 ∨ 7 < n)) →
      ∃ t, exec i s = .next t ∧ Keeps responseParts s t ∧ t.answered = some (p, .er .range))

/-! ## The clock -/

/-- An accepted CLOCK SET (R8): the record, the notice to the other port, the response without fields, and the effective
entries of every list found afresh (R21); a field out of range is refused RANGE and changes nothing (R7). The jump moves
or ends UNTIL overrides (R53) and a crossing ends NEXT ones (R50), each ended override being told to its origin port. The
entry that evaluation finds is the one that began last, and there is none for an empty list alone (R17). -/
def Obligations.ClockSetStoresTime : Prop :=
  (∀ (p : Port) (day minute second : Int) (s : State), s.powered = true →
    (0 ≤ day → day ≤ 6 → 0 ≤ minute → minute ≤ 1439 → 0 ≤ second → second ≤ 59 →
      ∃ t, exec (.clockSet p day minute second) s = .next t ∧
        Keeps (responseParts ++ [.clock, .program, .overrides, .valves, .firing, .links, .notices, .orders]) s t ∧
        t.clock = ⟨true, day.toNat, minute.toNat, second.toNat, some p, some 0⟩ ∧
        t.answered = some (p, .ok []) ∧ (t.notices.of p.other).kinds.getLsbD 0 = true ∧
        ((t.notices.of p).kinds.getLsbD 0 = (s.notices.of p).kinds.getLsbD 0) ∧
        t.program.banks = s.program.banks ∧ t.program.active = s.program.active ∧
        t.program.timed = s.program.timed ∧
        (∀ l, t.program.remembered.get l =
          evaluate ((s.program.banks.get s.program.active).lists.get l) day.toNat minute.toNat) ∧
        ∀ kept : Slot → Option Slot,
          (∀ o, kept o =
            match o.kind with
            | .hold => some o
            | .next => if (s.program.remembered.get (zoneList o.zone)).map Entry.key =
                (t.program.remembered.get (zoneList o.zone)).map Entry.key then some o else none
            | .untilTime e r =>
              if s.clock.valid then
                (if 1 ≤ remainingAfter ⟨s.clock.day, s.clock.minute⟩ ⟨day.toNat, minute.toNat⟩ r ∧
                    remainingAfter ⟨s.clock.day, s.clock.minute⟩ ⟨day.toNat, minute.toNat⟩ r ≤ 10080 then
                  some { o with kind := (.untilTime e
                    (remainingAfter ⟨s.clock.day, s.clock.minute⟩ ⟨day.toNat, minute.toNat⟩ r).toNat) }
                else none)
              else some o) →
          t.overrides.slots = s.overrides.slots.filterMap kept ∧
            ∀ o ∈ s.overrides.slots, kept o = none → (t.notices.of o.origin).kinds.getLsbD 4 = true ∧
              (t.notices.of o.origin).overrideEnded.getLsbD o.zone.val = true) ∧
    (day < 0 ∨ 6 < day ∨ minute < 0 ∨ 1439 < minute ∨ second < 0 ∨ 59 < second →
      ∃ t, exec (.clockSet p day minute second) s = .next t ∧ Keeps responseParts s t ∧
        t.answered = some (p, .er .range))) ∧
  ∀ (l : List SwitchPoint) (day minute : Nat), day < 7 → minute < 1440 → (∀ q ∈ l, q.start < 1440) →
    (evaluate l day minute = none ↔ ∀ q ∈ l, ∀ d < 7, q.days.getLsbD d = false) ∧
    ∀ e, evaluate l day minute = some e →
      e.point ∈ l ∧ e.day < 7 ∧ e.point.days.getLsbD e.day = true ∧
        ∀ q ∈ l, ∀ d < 7, q.days.getLsbD d = true →
          minutesSince day minute e.day e.point.start ≤ minutesSince day minute d q.start

/-- At a second boundary a VALID clock advances by one second, wrapping second, minute and day (R5), and nothing else
changes unless the minute does; an INVALID clock has no boundary (R4). -/
def Obligations.SecondBoundaryAdvancesClock : Prop :=
  ∀ s : State, s.powered = true →
    (s.clock.valid = false → exec .secondBoundary s = .next s) ∧
    (s.clock.valid = true → s.clock.second ≠ 59 →
      ∃ t, exec .secondBoundary s = .next t ∧ Keeps [.clock] s t ∧
        t.clock = { s.clock with second := s.clock.second + 1, phase := some 0 }) ∧
    (s.clock.valid = true → s.clock.second = 59 →
      ∃ t, exec .secondBoundary s = .next t ∧
        Keeps [.clock, .program, .overrides, .valves, .firing, .links, .notices, .orders] s t ∧
        t.clock.valid = true ∧ t.clock.second = 0 ∧ t.clock.origin = s.clock.origin ∧
        (s.clock.minute = 1439 → t.clock.minute = 0 ∧ t.clock.day = (s.clock.day + 1) % 7) ∧
        (s.clock.minute ≠ 1439 → t.clock.minute = s.clock.minute + 1 ∧ t.clock.day = s.clock.day))

/-- The minute event (R6, R18, R20, R29, R32, R50 to R52, R54), at a midnight boundary too: it carries the new day and
minute. At midnight a running timed program counts one day; where no days are left and the minute is at or past the end
minute it returns. Unless the return moves the active bank, a switch point that starts at the event's day and minute
becomes the remembered effective entry of its list, the other entries stand, and each crossing of a zone is one
SWITCH_CROSS and ends the zone's NEXT override. A return that moves it is one BANK_CHANGE, with BANK_CHANGED to both
ports, no SWITCH_CROSS, every entry evaluated in the return bank and every NEXT override at its end. UNTIL overrides count
down to their end in every case, and what has ended is told to its origin port. The setpoints are resolved, and the
hot-water schedule state follows the remembered entry of list 16. -/
def Obligations.MinuteEventMovesProgram : Prop :=
  ∀ (s : State) (day minute : Nat) (record : Option Timed) (returns moved : Bool), s.powered = true →
    s.clock.valid = true → s.clock.second = 59 →
    day = (if s.clock.minute = 1439 then (s.clock.day + 1) % 7 else s.clock.day) →
    minute = (if s.clock.minute = 1439 then 0 else s.clock.minute + 1) →
    record = (if s.clock.minute = 1439 then s.program.timed.map (fun r => { r with days := r.days - 1 })
      else s.program.timed) →
    (returns = true ↔ ∃ r ∈ record, r.days = 0 ∧ r.endMinute ≤ minute) →
    (moved = true ↔ returns = true ∧ ∃ r ∈ record, r.returnBank ≠ s.program.active) →
    ∃ t, exec .secondBoundary s = .next t ∧
      Keeps [.clock, .program, .overrides, .valves, .firing, .links, .notices, .orders] s t ∧
      OnlyHoldWritten s.valves t.valves ∧ t.clock.day = day ∧ t.clock.minute = minute ∧ t.clock.second = 0 ∧
      t.program.banks = s.program.banks ∧
      (returns = false → t.program.timed = record ∧ t.program.active = s.program.active) ∧
      (∀ r, record = some r → returns = true → t.program.timed = none ∧ t.program.active = r.returnBank) ∧
      (∀ p, (t.notices.of p).kinds.getLsbD 1 = (moved || (s.notices.of p).kinds.getLsbD 1)) ∧
      EventsTaken s t .bankChange (fun z => moved && decide (z = 0)) ∧
      (∀ r, record = some r → moved = true → ∀ l, t.program.remembered.get l =
        evaluate ((s.program.banks.get r.returnBank).lists.get l) day minute) ∧
      SetpointsResolved t ∧
      (t.firing.schedule = true ↔ ∃ e ∈ t.program.remembered.get 16, e.point.target = .on) ∧
      (t.firing.schedule = s.firing.schedule → t.firing = s.firing ∧ t.valves = s.valves) ∧
      ∀ starting : Fin 17 → Option SwitchPoint,
        (∀ l, starting l = ((s.program.banks.get s.program.active).lists.get l).find? (fun q =>
          q.days.getLsbD day && decide (q.start = minute))) →
        (moved = false → ∀ l, t.program.remembered.get l =
          match starting l with
          | some q => some ⟨q, day⟩
          | none => s.program.remembered.get l) ∧
        EventsTaken s t .switchCross (fun z => !moved && (starting (zoneList z)).isSome) ∧
        ∀ kept : Slot → Option Slot,
          (∀ o, kept o =
            match o.kind with
            | .hold => some o
            | .next => if moved || (starting (zoneList o.zone)).isSome then none else some o
            | .untilTime e r => if r ≤ 1 then none else some { o with kind := .untilTime e (r - 1) }) →
          t.overrides.slots = s.overrides.slots.filterMap kept ∧
            (∀ o ∈ s.overrides.slots, kept o = none → (t.notices.of o.origin).kinds.getLsbD 4 = true ∧
              (t.notices.of o.origin).overrideEnded.getLsbD o.zone.val = true) ∧
            ∀ p, (∀ o ∈ s.overrides.slots, o.origin = p → kept o ≠ none) →
              (t.notices.of p).kinds.getLsbD 4 = (s.notices.of p).kinds.getLsbD 4 ∧
                (t.notices.of p).overrideEnded = (s.notices.of p).overrideEnded

/-! ## The program store -/

/-- The four edits are accepted changes (R23), with no expected revision or with the bank's own: the bank's revision rises
by one, wrapping, the dirty flag is SET, SCHEDULE_EDITED goes to the other port, and the other banks stay. In the active
bank the entries of the changed lists are found afresh (R22). An edit whose expected revision differs from the bank's is
refused STALE and changes nothing; that a value outside 0 to 65,535 differs from every revision is log entry 12's
(DEDUCED). -/
def Obligations.EditsCountAsChanges : Prop :=
  ∀ (p : Port) (b : Fin 4) (l : Fin 17) (days : DaySet) (start : Nat) (target : Int) (s : State),
    s.powered = true → days ≠ 0 → start < 1440 →
      (∀ (i : Instr) (rev : Option Int), (rev = none ∨ rev = some ((s.program.banks.get b).revision : Int)) →
        (i = .pointAdd p b.val l.val days.toNat start target rev ∧ (targetOf l target).isSome = true ∧
            (∀ q ∈ (s.program.banks.get b).lists.get l, q.start = start → q.days &&& days = 0) ∧
            ((s.program.banks.get b).lists.list.map List.length).sum < 256 ∨
          i = .pointDel p b.val l.val days.toNat start rev ∧
            (∃ q ∈ (s.program.banks.get b).lists.get l, q.days = days ∧ q.start = start) ∨
          i = .listClear p b.val l.val rev ∨
          (∃ a : Fin 4, i = .bankCopy p a.val b.val rev ∧ saving s b = false)) →
        ∃ t fields, exec i s = .next t ∧
          Keeps (responseParts ++ [.program, .overrides, .valves, .firing, .links, .notices]) s t ∧
          t.answered = some (p, .ok (.word (((s.program.banks.get b).revision + 1) % 65536 : Nat) :: fields)) ∧
          (t.program.banks.get b).revision = ((s.program.banks.get b).revision + 1) % 65536 ∧
          (t.program.banks.get b).dirty = true ∧ (t.notices.of p.other).kinds.getLsbD 2 = true ∧
          t.notices.of p = s.notices.of p ∧ t.overrides.slots = s.overrides.slots ∧
          (SetpointsResolved s → SetpointsResolved t) ∧
          t.program.active = s.program.active ∧ t.program.timed = s.program.timed ∧
          (b ≠ s.program.active ∨ s.clock.valid = false → t.program.remembered = s.program.remembered) ∧
          (b = s.program.active → s.clock.valid = true → ∀ l',
            (l' = l ∨ (∃ a : Fin 4, i = .bankCopy p a.val b.val rev)) → t.program.remembered.get l' =
              evaluate ((t.program.banks.get b).lists.get l') s.clock.day s.clock.minute) ∧
          ∀ b', b' ≠ b → t.program.banks.get b' = s.program.banks.get b') ∧
      (∀ (r : Int) (i : Instr) (a : Fin 4), r ≠ (s.program.banks.get b).revision →
        (i = .pointAdd p b.val l.val days.toNat start target (some r) ∧ (targetOf l target).isSome = true ∨
          i = .pointDel p b.val l.val days.toNat start (some r) ∨ i = .listClear p b.val l.val (some r) ∨
          i = .bankCopy p a.val b.val (some r)) →
        ∃ t, exec i s = .next t ∧ Keeps responseParts s t ∧ t.answered = some (p, .er .stale))

/-- POINT ADD puts its point into the list and answers where it stands, and refuses an overlap DUPLICATE (R15, R16, R24);
POINT DEL takes exactly the named point out, LIST CLEAR every point of the list, and BANK COPY makes the destination's
lists the source's (R25, R26, R28), each with no expected revision or the bank's own (R23). Their other refusals: RANGE for
a field out of range, FULL where the pool holds 256 points, NOTFOUND where no point has exactly the day set and the start,
BUSY for a destination that is being saved. -/
def Obligations.EditsPlaceAndRemovePoints : Prop :=
  ∀ (p : Port) (b : Fin 4) (l : Fin 17) (rev : Option Int) (s : State), s.powered = true →
    (rev = none ∨ rev = some ((s.program.banks.get b).revision : Int)) →
    (∀ (days : DaySet) (start : Nat) (value : Int) (target : Target),
      days ≠ 0 → start < 1440 → targetOf l value = some target →
      ((∀ q ∈ (s.program.banks.get b).lists.get l, q.start = start → q.days &&& days = 0) →
        ((s.program.banks.get b).lists.list.map List.length).sum < 256 →
        ∃ t before after, exec (.pointAdd p b.val l.val days.toNat start value rev) s = .next t ∧
          (s.program.banks.get b).lists.get l = before ++ after ∧
          (t.program.banks.get b).lists.get l = before ++ ⟨days, start, target⟩ :: after ∧
          (∀ l', l' ≠ l → (t.program.banks.get b).lists.get l' = (s.program.banks.get b).lists.get l') ∧
          (∀ q ∈ before, q.start ≤ start) ∧
          t.answered = some (p, .ok [.word (((s.program.banks.get b).revision + 1) % 65536 : Nat),
            .word before.length])) ∧
      ((∃ q ∈ (s.program.banks.get b).lists.get l, q.start = start ∧ q.days &&& days ≠ 0) →
        ∃ t, exec (.pointAdd p b.val l.val days.toNat start value rev) s = .next t ∧ Keeps responseParts s t ∧
          t.answered = some (p, .er .duplicate)) ∧
      ((∀ q ∈ (s.program.banks.get b).lists.get l, q.start = start → q.days &&& days = 0) →
        256 ≤ ((s.program.banks.get b).lists.list.map List.length).sum →
        ∃ t, exec (.pointAdd p b.val l.val days.toNat start value rev) s = .next t ∧ Keeps responseParts s t ∧
          t.answered = some (p, .er .full)) ∧
      ((∀ q ∈ (s.program.banks.get b).lists.get l, ¬(q.days = days ∧ q.start = start)) →
        ∃ t, exec (.pointDel p b.val l.val days.toNat start rev) s = .next t ∧ Keeps responseParts s t ∧
          t.answered = some (p, .er .notFound))) ∧
    (∀ before after q, (s.program.banks.get b).lists.get l = before ++ q :: after → q.days ≠ 0 → q.start < 1440 →
      (∀ r ∈ before, ¬(r.days = q.days ∧ r.start = q.start)) →
        ∃ t, exec (.pointDel p b.val l.val q.days.toNat q.start rev) s = .next t ∧
          (t.program.banks.get b).lists.get l = before ++ after ∧
          (∀ l', l' ≠ l → (t.program.banks.get b).lists.get l' = (s.program.banks.get b).lists.get l') ∧
          t.answered = some (p, .ok [.word (((s.program.banks.get b).revision + 1) % 65536 : Nat)])) ∧
    (∃ t, exec (.listClear p b.val l.val rev) s = .next t ∧ (t.program.banks.get b).lists.get l = [] ∧
      (∀ l', l' ≠ l → (t.program.banks.get b).lists.get l' = (s.program.banks.get b).lists.get l') ∧
      t.answered = some (p, .ok [.word (((s.program.banks.get b).revision + 1) % 65536 : Nat),
        .word ((s.program.banks.get b).lists.get l).length])) ∧
    (∀ a : Fin 4,
      (saving s b = false → ∃ t, exec (.bankCopy p a.val b.val rev) s = .next t ∧
        (t.program.banks.get b).lists = (s.program.banks.get a).lists ∧
        t.answered = some (p, .ok [.word (((s.program.banks.get b).revision + 1) % 65536 : Nat)])) ∧
      ((∃ lists q, s.store.operation = some ⟨.bank b lists, q⟩) →
        ∃ t, exec (.bankCopy p a.val b.val rev) s = .next t ∧ Keeps responseParts s t ∧
          t.answered = some (p, .er .busy))) ∧
    (∀ (v w d m x : Int) (r : Option Int) (i : Instr),
      (i = .pointAdd p v w d m x r ∧ (v < 0 ∨ 3 < v ∨ w < 0 ∨ 16 < w ∨ d < 1 ∨ 127 < d ∨ m < 0 ∨ 1439 < m ∨
          (w = 16 ∧ x ≠ 0 ∧ x ≠ 1)) ∨
        i = .pointDel p v w d m r ∧ (v < 0 ∨ 3 < v ∨ w < 0 ∨ 16 < w ∨ d < 1 ∨ 127 < d ∨ m < 0 ∨ 1439 < m) ∨
        i = .listClear p v w r ∧ (v < 0 ∨ 3 < v ∨ w < 0 ∨ 16 < w) ∨
        i = .bankCopy p v w r ∧ (v < 0 ∨ 3 < v ∨ w < 0 ∨ 3 < w)) →
      ∃ t, exec i s = .next t ∧ Keeps responseParts s t ∧ t.answered = some (p, .er .range))

/-- BANK SELECT, BANK TIMED and BANK CANCEL (R29 to R33): the active bank, the timed record, and where the bank changes
the notice to the other port, one BANK_CHANGE, the end of every NEXT override with OVERRIDE_ENDED to its origin port (R51),
the setpoints resolved (R54) and the entries of the new bank (R17). BANK TIMED is refused CLOCK while the clock is INVALID,
both commands RANGE for a field out of range, and BANK CANCEL without a record changes nothing. -/
def Obligations.BankCommandsChangeActiveBank : Prop :=
  ∀ (p : Port) (b : Fin 4) (days : Nat) (minute : Nat) (s : State), s.powered = true →
    (∀ (i : Instr) (record : Option Timed),
      (i = .bankSelect p b.val ∧ record = none ∨
        i = .bankTimed p b.val days minute ∧ 1 ≤ days ∧ days ≤ 99 ∧ minute < 1440 ∧ s.clock.valid = true ∧
          record = some ⟨b, s.program.active, days, minute⟩ ∨
        i = .bankCancel p ∧ (∃ r, s.program.timed = some r ∧ r.returnBank = b) ∧ record = none) →
      ∃ t, exec i s = .next t ∧
        Keeps (responseParts ++ [.program, .overrides, .valves, .firing, .links, .notices, .orders]) s t ∧
        t.program.active = b ∧ t.program.timed = record ∧ t.program.banks = s.program.banks ∧
        t.answered = some (p, .ok [.word b.val]) ∧
        (b ≠ s.program.active → (t.notices.of p.other).kinds.getLsbD 1 = true ∧
          EventsTaken s t .bankChange (fun z => decide (z = 0)) ∧ EventsTaken s t .switchCross (fun _ => false) ∧
          t.overrides.slots = s.overrides.slots.filter (fun o => decide (o.kind ≠ .next)) ∧ SetpointsResolved t ∧
          (∀ o ∈ s.overrides.slots, o.kind = .next → (t.notices.of o.origin).kinds.getLsbD 4 = true ∧
            (t.notices.of o.origin).overrideEnded.getLsbD o.zone.val = true) ∧
          (s.clock.valid = true → ∀ l, t.program.remembered.get l =
            evaluate ((s.program.banks.get b).lists.get l) s.clock.day s.clock.minute)) ∧
        (b = s.program.active → t.notices = s.notices ∧ t.overrides = s.overrides ∧ t.links = s.links ∧
          t.program.remembered = s.program.remembered)) ∧
    (1 ≤ days → days ≤ 99 → minute < 1440 → s.clock.valid = false →
      ∃ t, exec (.bankTimed p b.val days minute) s = .next t ∧ Keeps responseParts s t ∧
        t.answered = some (p, .er .clock)) ∧
    (s.program.timed = none → ∃ t, exec (.bankCancel p) s = .next t ∧ Keeps responseParts s t ∧
      t.answered = some (p, .ok [.word s.program.active.val])) ∧
    (∀ (v d m : Int) (i : Instr), (i = .bankSelect p v ∧ (v < 0 ∨ 3 < v) ∨
        i = .bankTimed p v d m ∧ (v < 0 ∨ 3 < v ∨ d < 1 ∨ 99 < d ∨ m < 0 ∨ 1439 < m)) →
      ∃ t, exec i s = .next t ∧ Keeps responseParts s t ∧ t.answered = some (p, .er .range))

/-! ## The settings store -/

/-- A save starts on an idle store (R34, R178) and the three commands are refused BUSY on a busy one (R177), BANK SAVE RANGE
for another bank on either. Its completion (R35, R178) leaves the stored object, the notice to the requesting port alone,
the idle record, and for a failed bank save the bank's dirty flag; with no save in flight there is none. -/
def Obligations.SavesStartAndComplete : Prop :=
  ∀ (p : Port) (b : Fin 4) (s : State), s.powered = true →
    (s.store.operation = none →
      (∃ t, exec (.configSave p) s = .next t ∧ Keeps (responseParts ++ [.store]) s t ∧
        t.store = { s.store with operation := some ⟨.config s.settings, p⟩ } ∧ t.answered = some (p, .ok [])) ∧
      (∃ t, exec (.bankSave p b.val) s = .next t ∧ Keeps (responseParts ++ [.store, .program]) s t ∧
        t.store = { s.store with operation := some ⟨.bank b (s.program.banks.get b).lists, p⟩ } ∧
        t.answered = some (p, .ok []) ∧
        t.program.banks.get b = { s.program.banks.get b with dirty := false } ∧
        (∀ b', b' ≠ b → t.program.banks.get b' = s.program.banks.get b') ∧
        t.program.active = s.program.active ∧ t.program.timed = s.program.timed ∧
        t.program.remembered = s.program.remembered) ∧
      (∀ good, exec (.saveCompletion good) s = .next s)) ∧
    (s.store.operation.isSome = true → ∀ i, (i = .configSave p ∨ i = .bankSave p b.val ∨ i = .bankLoad p b.val) →
      ∃ t, exec i s = .next t ∧ Keeps responseParts s t ∧ t.answered = some (p, .er .busy)) ∧
    (∀ v : Int, v < 0 ∨ 3 < v →
      ∃ t, exec (.bankSave p v) s = .next t ∧ Keeps responseParts s t ∧ t.answered = some (p, .er .range)) ∧
    (∀ good o, s.store.operation = some o →
      ∃ t, exec (.saveCompletion good) s = .next t ∧ Keeps [.store, .notices, .program] s t ∧
        t.store.operation = none ∧ t.notices.of o.port.other = s.notices.of o.port.other ∧
        t.notices.of o.port = (s.notices.of o.port).take (if good then .saveDone else .saveFail) ∧
        (∀ c, o.object = .config c → t.program = s.program ∧ t.store.banks = s.store.banks ∧
          t.store.config.good = good ∧ (good = true → t.store.config.content = c)) ∧
        (∀ b lists, o.object = .bank b lists → t.store.config = s.store.config ∧
          (t.store.banks.get b).good = good ∧ (good = true → (t.store.banks.get b).content = lists) ∧
          (t.program.banks.get b).dirty = (if good then (s.program.banks.get b).dirty else true) ∧
          (t.program.banks.get b).lists = (s.program.banks.get b).lists ∧
          ∀ b', b' ≠ b → t.store.banks.get b' = s.store.banks.get b' ∧
            t.program.banks.get b' = s.program.banks.get b'))

/-- BANK LOAD of a good copy replaces the RAM bank, is no change of active bank and ends no override; it is refused RANGE
for another bank, BUSY while a save is in flight, and CORRUPT where the stored copy fails (R36). -/
def Obligations.BankLoadTakesStoredCopy : Prop :=
  ∀ (p : Port) (b : Fin 4) (s : State), s.powered = true →
    (s.store.operation = none → (s.store.banks.get b).good = true →
      ∃ t, exec (.bankLoad p b.val) s = .next t ∧
        Keeps (responseParts ++ [.program, .overrides, .valves, .firing, .links, .notices]) s t ∧
        t.program.banks.get b =
          ⟨(s.store.banks.get b).content, ((s.program.banks.get b).revision + 1) % 65536, false⟩ ∧
        (∀ b', b' ≠ b → t.program.banks.get b' = s.program.banks.get b') ∧
        t.program.active = s.program.active ∧ t.program.timed = s.program.timed ∧
        t.overrides.slots = s.overrides.slots ∧ (SetpointsResolved s → SetpointsResolved t) ∧
        (b = s.program.active → s.clock.valid = true → ∀ l, t.program.remembered.get l =
          evaluate ((s.store.banks.get b).content.get l) s.clock.day s.clock.minute) ∧
        (b ≠ s.program.active → t.program.remembered = s.program.remembered) ∧
        (t.notices.of p.other).kinds.getLsbD 2 = true ∧ t.notices.of p = s.notices.of p ∧
        t.answered = some (p, .ok [.word (((s.program.banks.get b).revision + 1) % 65536 : Nat)])) ∧
    (s.store.operation = none → (s.store.banks.get b).good = false →
      ∃ t, exec (.bankLoad p b.val) s = .next t ∧ Keeps responseParts s t ∧ t.answered = some (p, .er .corrupt)) ∧
    (s.store.operation.isSome = true →
      ∃ t, exec (.bankLoad p b.val) s = .next t ∧ Keeps responseParts s t ∧ t.answered = some (p, .er .busy)) ∧
    (∀ v : Int, v < 0 ∨ 3 < v →
      ∃ t, exec (.bankLoad p v) s = .next t ∧ Keeps responseParts s t ∧ t.answered = some (p, .er .range))

/-! ## The override table -/

/-- OVR SET of kind NEXT or HOLD, and OVR HOLD, on a zone that has a slot (R43, R46): the slot is written and moved to the
top, no other slot is touched, and the slot's former origin is told if it is the other port. OVR RELEASE (R48) takes the
slot out in the same way and answers 1, or answers 0 with no change. A zone outside 0 to 15 is refused RANGE, and OVR SET
also a kind outside 0 to 2, and for UNTIL an end that is absent or out of range (R42). -/
def Obligations.OverrideWritesAndReleases : Prop :=
  ∀ (p : Port) (z : Fin 16) (s : State), s.powered = true →
    (∀ (v : Int) (kind : Kind) (setpoint : Option Int) (i : Instr) (o : Slot), slotOf s z = some o →
      (WritesOverride p z v s i kind ∧ setpoint = givenSetpoint v ∨
        i = .ovrHold p z.val none ∧ kind = .hold ∧ setpoint = o.setpoint) →
      ∃ t, exec i s = .next t ∧ Keeps (responseParts ++ [.overrides, .notices]) s t ∧
        t.overrides.slots = ⟨z, setpoint, kind, p, if s.clock.valid then some ⟨s.clock.day, s.clock.minute⟩ else none⟩ ::
          s.overrides.slots.filter (fun q => q.zone ≠ z) ∧
        SetpointsResolved t ∧
        t.answered = some (p, .ok [.word (setpoint.getD 0), .word 16]) ∧
        t.notices.of p = s.notices.of p ∧
        (o.origin ≠ p → (t.notices.of p.other).kinds.getLsbD 3 = true ∧
          (t.notices.of p.other).overrideChanged.getLsbD z.val = true) ∧
        (o.origin = p → t.notices = s.notices)) ∧
    (∀ o, slotOf s z = some o →
      ∃ t, exec (.ovrRelease p z.val) s = .next t ∧ Keeps (responseParts ++ [.overrides, .notices]) s t ∧
        t.overrides.slots = s.overrides.slots.filter (fun q => q.zone ≠ z) ∧ SetpointsResolved t ∧
        t.answered = some (p, .ok [.word 1]) ∧ t.notices.of p = s.notices.of p ∧
        (o.origin = p → t.notices = s.notices) ∧
        (o.origin ≠ p → (t.notices.of p.other).kinds.getLsbD 3 = true ∧
          (t.notices.of p.other).overrideChanged.getLsbD z.val = true)) ∧
    (slotOf s z = none →
      ∃ t, exec (.ovrRelease p z.val) s = .next t ∧ Keeps responseParts s t ∧ t.answered = some (p, .ok [.word 0])) ∧
    (∀ (v w k : Int) (d m x : Option Int) (i : Instr),
      (i = .ovrRelease p v ∧ (v < 0 ∨ 15 < v) ∨ i = .ovrHold p v x ∧ (v < 0 ∨ 15 < v) ∨
        i = .ovrSet p v w k d m ∧ (v < 0 ∨ 15 < v ∨ k < 0 ∨ 2 < k) ∨
        i = .ovrSet p v w 1 d m ∧ (d = none ∨ m = none ∨ (∃ e ∈ d, e < 0 ∨ 6 < e) ∨ ∃ e ∈ m, e < 0 ∨ 1439 < e)) →
      ∃ t, exec i s = .next t ∧ Keeps responseParts s t ∧ t.answered = some (p, .er .range))

/-- An UNTIL override with a VALID clock (R42, R45): its end and the distance to it, a full week for the current minute,
in a table with room, over the zone's own slot, and in a full table with a slot to evict; refused CLOCK while the clock is
INVALID. -/
def Obligations.UntilOverrideMeasuresItsEnd : Prop :=
  ∀ (p : Port) (z : Fin 16) (v : Int) (day : Fin 7) (minute : Fin 1440) (s : State), s.powered = true →
    (s.clock.valid = true → ((slotOf s z).isSome = true ∨ s.overrides.slots.length < 8 ∨
        ∃ o ∈ s.overrides.slots, o.kind ≠ .hold) →
      ∃ t remaining rest evicted, exec (.ovrSet p z.val v 1 (some day.val) (some minute.val)) s = .next t ∧
        Keeps (responseParts ++ [.overrides, .notices]) s t ∧ SetpointsResolved t ∧
        t.overrides.slots = ⟨z, givenSetpoint v, .untilTime ⟨day.val, minute.val⟩ remaining, p,
          some ⟨s.clock.day, s.clock.minute⟩⟩ :: rest ∧
        t.answered = some (p, .ok [.word ((givenSetpoint v).getD 0), .word evicted]) ∧
        ((slotOf s z).isSome = true →
          rest = s.overrides.slots.filter (fun q => q.zone ≠ z) ∧ evicted = 16) ∧
        (slotOf s z = none → s.overrides.slots.length < 8 →
          rest = s.overrides.slots ∧ evicted = 16 ∧ t.notices = s.notices) ∧
        (s.clock.day < 7 → s.clock.minute < 1440 → 1 ≤ remaining ∧ remaining ≤ 10080 ∧
          (s.clock.day * 1440 + s.clock.minute + remaining) % 10080 = day.val * 1440 + minute.val)) ∧
    (s.clock.valid = false →
      ∃ t, exec (.ovrSet p z.val v 1 (some day.val) (some minute.val)) s = .next t ∧ Keeps responseParts s t ∧
        t.answered = some (p, .er .clock))

/-- Creating a slot of any kind in a full table evicts the lowest slot that is no HOLD, telling its origin port, and is
refused FULL where all eight are HOLD (R42, R44, R47). In a table with room the slot enters at the top and nothing is
evicted; OVR HOLD without a setpoint holds the scheduled target of a zone that has no slot (R47). -/
def Obligations.FullTableEvictsLowestUnheldSlot : Prop :=
  ∀ (p : Port) (z : Fin 16) (s : State), s.powered = true → slotOf s z = none →
    ∀ (v : Int) (i : Instr) (kind : Kind) (setpoint : Option Int),
      (WritesOverride p z v s i kind ∧ setpoint = givenSetpoint v ∨
        i = .ovrHold p z.val none ∧ kind = .hold ∧ setpoint =
          match s.program.remembered.get (zoneList z) with
            | some e => (match e.point.target with | .temp c => some c | .off => none | .on => none)
            | none => some (s.settings.zones.get z).base) →
      (s.overrides.slots.length = 8 → (s.overrides.slots.map Slot.zone).Nodup →
        (∀ above o below, s.overrides.slots = above ++ o :: below → o.kind ≠ .hold → (∀ q ∈ below, q.kind = .hold) →
          ∃ t, exec i s = .next t ∧ Keeps (responseParts ++ [.overrides, .notices]) s t ∧
            t.overrides.slots = ⟨z, setpoint, kind, p, s.clock.now⟩ :: (above ++ below) ∧ SetpointsResolved t ∧
            (t.notices.of o.origin).kinds.getLsbD 3 = true ∧
            (t.notices.of o.origin).overrideChanged.getLsbD o.zone.val = true ∧
            t.notices.of o.origin.other = s.notices.of o.origin.other ∧
            t.answered = some (p, .ok [.word (setpoint.getD 0), .word o.zone.val])) ∧
        ((∀ q ∈ s.overrides.slots, q.kind = .hold) →
          ∃ t, exec i s = .next t ∧ Keeps responseParts s t ∧ t.answered = some (p, .er .full))) ∧
      (s.overrides.slots.length < 8 →
        ∃ t, exec i s = .next t ∧ Keeps (responseParts ++ [.overrides]) s t ∧ SetpointsResolved t ∧
          t.overrides.slots = ⟨z, setpoint, kind, p, s.clock.now⟩ :: s.overrides.slots ∧
          t.answered = some (p, .ok [.word (setpoint.getD 0), .word 16]))

/-! ## The capture unit -/

/-- TEMP REPORT stores the report with age 0 and tells whether the zone's mode looks at reports, and is refused RANGE
outside its ranges (R67). Each capture second ages every present report by one second, up to 65,535 (R64, R68). -/
def Obligations.ReportsAreStoredAndAge : Prop :=
  ∀ s : State, s.powered = true →
    (∀ (p : Port) (z : Fin 16) (value : Int), -4000 ≤ value → value ≤ 12500 →
      ∃ t, exec (.tempReport p z.val value) s = .next t ∧ Keeps (responseParts ++ [.capture]) s t ∧
        t.capture.reports.get z = some ⟨value, 0⟩ ∧
        (∀ z', z' ≠ z → t.capture.reports.get z' = s.capture.reports.get z') ∧
        t.capture.channels = s.capture.channels ∧ t.capture.publication = s.capture.publication ∧
        t.capture.lost = s.capture.lost ∧ t.capture.seconds = s.capture.seconds ∧
        t.answered = some (p, .ok [.word (if (s.settings.zones.get z).mode = .localOnly then 0 else 1)])) ∧
    (∀ (p : Port) (zone value : Int), zone < 0 ∨ 15 < zone ∨ value < -4000 ∨ 12500 < value →
      ∃ t, exec (.tempReport p zone value) s = .next t ∧ Keeps responseParts s t ∧ t.answered = some (p, .er .range)) ∧
    (∃ t, exec .captureSecond s = .next t ∧ Keeps [.capture] s t ∧ t.capture.channels = s.capture.channels ∧
      t.capture.publication = s.capture.publication ∧ t.capture.lost = s.capture.lost ∧
      t.capture.seconds = (s.capture.seconds + 1) % 10 ∧
      ∀ z, t.capture.reports.get z =
        (s.capture.reports.get z).map fun r => ⟨r.value, if r.age < 65535 then r.age + 1 else 65535⟩)

/-- A raw level that has not held for the filter time leaves the filtered level as it is, and only time passes: a TIMING
channel's timer advances, and past 65,535 µs it is back in IDLE with nothing counted (R59 to R61). A raw level that has held
for the filter time, any with a filter of 0 µs, changes the filtered level at that moment: the edge of the set kind starts
TIMING, or yields the microseconds counted as a period that is counted or rejected (R60, R62), and the other kind is passed
over. A timeout counts nothing, and an edge that the wait brings before it is taken on the way (R61). In a second in which
the inputs stand still every wait ends and every TIMING channel times out. That the rows carry the microseconds since the
channel's last event is log entry 8's, the second of an empty queue log entry 5's, the count of 0 that a stopped timer
holds log entry 28's (DESIGN CHOICE). -/
def Obligations.EdgesYieldJudgedPeriods : Prop :=
  ∀ (ch : Fin 18) (s : State) (v : Channel) (cfg : ChannelSettings), s.powered = true →
    v = s.capture.channels.get ch → cfg = s.settings.capture.get ch →
    (∀ (i : Instr) (n : Nat) (w : Channel),
      ((∃ level, i = .rawInputChange ch level n ∧ level ≠ v.raw ∧ 0 < cfg.filter ∧
          (v.raw = v.filtered ∨ v.held + n < cfg.filter) ∧ w = { v with raw := level, held := 0 }) ∨
        ((i = .acceptedEdge ch n ∨ i = .rawInputChange ch v.raw n) ∧
          (v.raw = v.filtered ∧ w = v ∨
            v.raw ≠ v.filtered ∧ v.held + n < cfg.filter ∧ w = { v with held := v.held + n }))) →
      ∃ t, exec i s = .next t ∧ Keeps [.capture] s t ∧
        ∀ timer, timer = (if v.timing = false then v.timer else if v.timer + n ≤ 65535 then v.timer + n else 0) →
          ChannelAlone ch { w with timing := v.timing && decide (v.timer + n ≤ 65535), timer := timer } s t) ∧
    (∀ (i : Instr) (level : Bool) (m rest : Nat),
      (i = .acceptedEdge ch (m + rest) ∧ v.raw ≠ v.filtered ∧ level = v.raw ∧ m = cfg.filter - v.held ∨
        i = .rawInputChange ch level m ∧ v.raw = v.filtered ∧ level ≠ v.raw ∧ cfg.filter = 0 ∧ rest = 0 ∨
        i = .timeout ch ∧ v.timing = true ∧ v.raw ≠ v.filtered ∧ level = v.raw ∧ level ≠ cfg.falling ∧
          m = cfg.filter - v.held ∧ 0 < m ∧ 0 < rest ∧ v.timer + (m + rest) = 65535) →
      ∃ t, exec i s = .next t ∧ Keeps [.capture] s t ∧
        (∃ w, ChannelAlone ch w s t ∧
          w.raw = level ∧ w.filtered = level ∧ w.held = 0 ∧ w.status = v.status ∧ w.last = v.last ∧ w.run = v.run ∧
          w.lastCount = v.lastCount ∧ w.lastRejects = v.lastRejects ∧
          (level = cfg.falling → w.sum = v.sum ∧ w.count = v.count ∧ w.rejects = v.rejects ∧
            w.timing = (v.timing && decide (v.timer + (m + rest) ≤ 65535)) ∧
            w.timer = (if v.timing = false then v.timer
              else if v.timer + (m + rest) ≤ 65535 then v.timer + (m + rest) else 0)) ∧
          (level ≠ cfg.falling →
            w.timing = decide (rest ≤ 65535) ∧ w.timer = (if rest ≤ 65535 then rest else 0) ∧
            (v.timing = false ∨ 65535 < v.timer + m →
              w.sum = v.sum ∧ w.count = v.count ∧ w.rejects = v.rejects) ∧
            (v.timing = true → 8400 ≤ v.timer + m → v.timer + m ≤ 15000 → w.rejects = v.rejects ∧
              (v.count < 4095 → w.sum = v.sum + (v.timer + m) ∧ w.count = v.count + 1) ∧
              (4095 ≤ v.count → w.sum = v.sum ∧ w.count = v.count)) ∧
            (v.timing = true → v.timer + m < 8400 ∨ 15000 < v.timer + m → v.timer + m ≤ 65535 →
              w.sum = v.sum ∧ w.count = v.count ∧
                w.rejects = (if v.rejects < 4095 then v.rejects + 1 else v.rejects))))) ∧
    (∀ w, v.timing = true →
      (v.raw = v.filtered ∧ w = { v with timing := false, timer := 0 } ∨
        v.raw ≠ v.filtered ∧ 65535 - v.timer ≤ cfg.filter - v.held ∧
          w = { v with timing := false, timer := 0, held := v.held + (65535 - v.timer) } ∨
        v.raw ≠ v.filtered ∧ cfg.filter - v.held < 65535 - v.timer ∧ v.raw = cfg.falling ∧
          w = { v with timing := false, timer := 0, filtered := v.raw, held := 0 }) →
      ∃ t, exec (.timeout ch) s = .next t ∧ Keeps [.capture] s t ∧
        ChannelAlone ch w s t) ∧
    (v.timing = false → exec (.timeout ch) s = .next s) ∧
    (s.pending = [] → s.handed = [] → cfg.filter ≤ 32 →
      ∃ t w, step s = .next t ∧ t.capture.channels.get ch = w ∧ w.timing = false ∧ w.raw = v.raw ∧ w.filtered = v.raw)

/-- The window expiry (R64 to R66, R70, R72, R73): every window is judged and cleared, every zone's temperature selected by
its source mode, the lost marks are the enabled zones without a temperature, each newly lost zone raises SENSOR_LOST and
all of them one ZONE_SENSOR, and the flow temperature comes from the flow channel. The controller takes it at once: a flow
above the high limit locks out or adds its reason (R132, R134), an INVALID one ends FIRING (R119, R126), and in LOCKOUT the
peak follows it and the pump stops below the high limit minus 1000 (R135). Beside SENSOR_LOST the matrix takes one event for
each of the controller's changes (R121, R134), in states that keep the call with its causes (CallKept). -/
def Obligations.WindowExpiryJudgesWindows : Prop :=
  ∀ s : State, s.powered = true →
    ∃ t, exec .windowExpiry s = .next t ∧ Keeps [.capture, .valves, .firing, .links, .notices, .orders] s t ∧
      OnlyHoldWritten s.valves t.valves ∧ t.capture.reports = s.capture.reports ∧
      t.capture.seconds = s.capture.seconds ∧
      (∀ z : Fin 16, t.capture.lost.getLsbD z.val = ((s.settings.zones.get z).enabled &&
        decide ((t.capture.publication.zones.get z).status = .invalid))) ∧
      (∀ fresh : Fin 16 → Bool,
        (∀ z, fresh z = (t.capture.lost.getLsbD z.val && !s.capture.lost.getLsbD z.val)) →
          EventsTaken s t .sensorLost fresh ∧ ScopePosted s t 5 PortNotices.zoneSensor fresh) ∧
      (CallKept s → ∀ kind : SourceKind, kind ≠ .sensorLost →
        EventsTaken s t kind fun z => decide (z = 0) && kind.shown s t) ∧
      (∀ w, w = t.capture.channels.get s.settings.firing.flowChannel →
        (w.status = .valid → t.capture.publication.flow = w.last ∧ t.capture.publication.flowStatus = .valid) ∧
        (w.status = .held → t.capture.publication.flow = w.last ∧ t.capture.publication.flowStatus = .held) ∧
        (w.status = .never ∨ w.status = .noSignal →
          t.capture.publication.flow = none ∧ t.capture.publication.flowStatus = .invalid)) ∧
      t.firing.flow = t.capture.publication.flow ∧ t.firing.flowStatus = t.capture.publication.flowStatus ∧
      (∀ trip : Bool, (trip = true ↔ t.firing.flowStatus ≠ .invalid ∧
          ∃ x ∈ t.firing.flow, s.settings.firing.highLimit < x) →
        (s.firing.state ≠ .lockout → trip = true → t.firing.state = .lockout ∧
          t.firing.lockout = some ⟨true, false, s.clock.now, t.firing.flow⟩ ∧ t.firing.pump = true ∧
          (s.firing.state = .firing → t.firing.burner = false) ∧
          EventsTaken s t .lockoutOn (fun z => decide (z = 0)) ∧
          ∀ p, (t.notices.of p).kinds.getLsbD 8 = true) ∧
        (s.firing.state ≠ .lockout → trip = false → t.firing.state ≠ .lockout ∧
          t.firing.lockout = s.firing.lockout ∧
          (s.firing.state = .firing → t.firing.flowStatus = .invalid → t.firing.state ≠ .firing ∧
            t.firing.burner = false ∧
            (0 < s.settings.firing.minOff → t.firing.minOff = some s.settings.firing.minOff) ∧
            (0 < s.settings.firing.overrun →
              t.firing.state = .overrun ∧ t.firing.overrun = some s.settings.firing.overrun)) ∧
          ∀ p, (t.notices.of p).kinds.getLsbD 8 = (s.notices.of p).kinds.getLsbD 8) ∧
        (∀ l, s.firing.state = .lockout → s.firing.lockout = some l →
          t.firing.state = .lockout ∧ t.firing.burner = s.firing.burner ∧
          (∃ l', t.firing.lockout = some l' ∧ l'.highLimit = (l.highLimit || trip) ∧
            l'.boilerFault = l.boilerFault ∧ l'.entry = l.entry ∧
            (t.firing.flowStatus = .invalid → l'.peak = l.peak) ∧
            ∀ x, t.firing.flowStatus ≠ .invalid → t.firing.flow = some x →
              l'.peak = match l.peak with | none => some x | some peak => some (max peak x)) ∧
          (∀ p, (t.notices.of p).kinds.getLsbD 8 =
            ((trip && !l.highLimit) || (s.notices.of p).kinds.getLsbD 8)) ∧
          (∀ hot : Bool, (hot = true ↔ t.firing.flowStatus ≠ .invalid ∧
              ∃ x ∈ t.firing.flow, s.settings.firing.highLimit - 1000 ≤ x) →
            t.firing.pump = (s.firing.pump && hot) ∧
            (s.firing.pump = true → hot = false → t.firing.hold = none ∧ t.valves.latestHold = 0) ∧
            (s.firing.pump = false ∨ hot = true →
              t.firing.hold = s.firing.hold ∧ t.valves.latestHold = s.valves.latestHold)))) ∧
      (∀ c : Fin 18, ∀ v w, v = s.capture.channels.get c → w = t.capture.channels.get c →
        w.sum = 0 ∧ w.count = 0 ∧ w.rejects = 0 ∧ w.lastCount = v.count ∧ w.lastRejects = v.rejects ∧
        w.timing = v.timing ∧ w.timer = v.timer ∧ w.raw = v.raw ∧ w.filtered = v.filtered ∧ w.held = v.held ∧
        (4 ≤ v.count ∧ v.rejects ≤ v.count → w.status = .valid ∧ w.run = 0 ∧
          w.last = some (clamp (-4000) 12500
            (divRound ((divRound v.sum v.count - 10000) * 5) 2 + (s.settings.capture.get c).offset))) ∧
        (¬(4 ≤ v.count ∧ v.rejects ≤ v.count) →
          w.run = min 3 (v.run + 1) ∧
          (v.status = .valid → w.status = .held ∧ w.last = v.last) ∧
          (v.status = .never → w.status = .never ∧ w.last = none) ∧
          (v.status = .noSignal → w.status = .noSignal ∧ w.last = none) ∧
          (v.status = .held → v.run < 2 → w.status = .held ∧ w.last = v.last) ∧
          (v.status = .held → 2 ≤ v.run → w.status = .noSignal ∧ w.last = none))) ∧
      (∀ z : Fin 16, ∀ zone fresh, zone = t.capture.publication.zones.get z →
        fresh = (s.capture.reports.get z).filter (fun r => decide (r.age ≤ (s.settings.zones.get z).staleness * 60)) →
        (∀ r, fresh = some r → (s.settings.zones.get z).mode ≠ .localOnly → zone = ⟨some r.value, .valid, .remote⟩) ∧
        (fresh = none → (s.settings.zones.get z).mode = .remote → zone = ⟨none, .invalid, .absent⟩) ∧
        ((s.settings.zones.get z).mode = .localOnly ∨
            (s.settings.zones.get z).mode = .remotePreferred ∧ fresh = none →
          ((s.settings.zones.get z).sensor = none → zone = ⟨none, .invalid, .absent⟩) ∧
          (∀ c, (s.settings.zones.get z).sensor = some c → ∀ w, w = t.capture.channels.get c →
            (w.status = .valid → zone = ⟨w.last, .valid, .channel⟩) ∧
            (w.status = .held → zone = ⟨w.last, .held, .channel⟩) ∧
            (w.status = .never ∨ w.status = .noSignal → zone = ⟨none, .invalid, .absent⟩))))

/-! ## The zone regulator -/

/-- A pass (R80 to R83, R85, R86, R92 to R94, R101): the pass count, priority-in-force, the records of disabled zones and of
zones without a temperature, every delivered demand, the demand update that driver and controller take, and the demand
duties that the driver forms from it. Each latch that turns SET or CLEAR is one FROST_ON or FROST_OFF, those that turn SET
one FROST to both ports, and each zone that starts or stops calling one ZONE_CALL_ON or ZONE_CALL_OFF. -/
def Obligations.PassComputesEveryZone : Prop :=
  ∀ s : State, s.powered = true →
    ∃ t, exec .pass s = .next t ∧ Keeps [.regulator, .valves, .firing, .links, .notices, .orders] s t ∧
      t.regulator.passCount = (s.regulator.passCount + 1) % 65536 ∧ t.regulator.timer = 0 ∧
      t.regulator.priorityInForce = s.firing.priority.isSome ∧
      (∀ before after : Fin 16 → ZoneRecord,
        (∀ z, before z = s.regulator.zones.get z ∧ after z = t.regulator.zones.get z) →
          EventsTaken s t .frostOn (fun z => !(before z).frost && (after z).frost) ∧
          EventsTaken s t .frostOff (fun z => (before z).frost && !(after z).frost) ∧
          EventsTaken s t .zoneCallOn (fun z => !(before z).calling && (after z).calling) ∧
          EventsTaken s t .zoneCallOff (fun z => (before z).calling && !(after z).calling) ∧
          ScopePosted s t 6 PortNotices.frost (fun z => !(before z).frost && (after z).frost)) ∧
      (∀ z, t.valves.demand.delivered.get z = (t.regulator.zones.get z).delivered ∧
        t.firing.demand = t.valves.demand ∧
        t.valves.demand.calling.getLsbD z.val = decide (0 < (t.regulator.zones.get z).delivered) ∧
        (t.regulator.zones.get z).calling = decide (0 < (t.regulator.zones.get z).delivered)) ∧
      (∀ z, ∀ r, r = t.regulator.zones.get z →
        r.statusUsed = (s.capture.publication.zones.get z).status ∧
        (s.overrides.effective.get z = none → r.outcome = .disabled ∧ r.integral = 0 ∧ r.demand = 0 ∧
          r.delivered = 0 ∧ r.frost = false ∧ r.lastError = 0 ∧ r.lastP = 0 ∧ r.lastIncrement = 0 ∧
          r.setpointUsed = none) ∧
        (∀ sp, s.overrides.effective.get z = some sp →
          r.setpointUsed = some sp ∧
          r.delivered = (if r.frost then 4096 else if t.regulator.priorityInForce then 0 else r.demand) ∧
          ((s.capture.publication.zones.get z).status = .invalid →
            r.outcome = .fallback ∧ r.integral = (s.regulator.zones.get z).integral ∧
            r.demand = (s.settings.zones.get z).fallback ∧ r.frost = (s.regulator.zones.get z).frost ∧
            r.lastError = 0 ∧ r.lastP = 0 ∧ r.lastIncrement = 0 ∧ r.tempUsed = none))) ∧
      (∀ v : Fin 16, ∀ c w, c = s.settings.valves.get v → w = t.valves.channels.get v →
        (c.zone = none → w.demandDuty = 0) ∧
        (∀ z d, c.zone = some z → d = (divRound ((t.regulator.zones.get z).delivered * 63) 4096).toNat →
          (d = 0 → w.demandDuty = 0) ∧
          (d ≠ 0 → c.minDuty ≤ c.maxDuty →
            w.demandDuty = (if d < c.minDuty then c.minDuty else if c.maxDuty < d then c.maxDuty else d))))

/-- The computation of a regulated zone (R84, R87 to R92): error, proportional term, increment, conditional integration,
demand, and the integral that stands still while priority is in force. -/
def Obligations.PassRegulatesZone : Prop :=
  ∀ (s : State) (z : Fin 16) (sp temp : Int), s.powered = true → s.overrides.effective.get z = some sp →
    (s.capture.publication.zones.get z).status ≠ .invalid → (s.capture.publication.zones.get z).temp = some temp →
      ∃ t, exec .pass s = .next t ∧
        ∀ r e p inc next, r = t.regulator.zones.get z →
          e = clamp (-2000) 2000 (sp - temp) →
          p = divRound (e * 4096) (s.settings.zones.get z).band →
          inc = (if (s.settings.zones.get z).integralTime = 0 then 0
            else divRound (e * 1048576) ((s.settings.zones.get z).band * (s.settings.zones.get z).integralTime)) →
          next = (if (s.settings.zones.get z).integralTime = 0 then 0
            else clamp 0 1048576 ((s.regulator.zones.get z).integral + inc)) →
          r.outcome = .regulated ∧ r.setpointUsed = some sp ∧ r.tempUsed = some temp ∧ r.lastError = e ∧ r.lastP = p ∧
          r.lastIncrement = inc ∧
          (temp < (s.settings.zones.get z).frost - 50 → r.frost = true) ∧
          ((s.settings.zones.get z).frost + 100 ≤ temp → r.frost = false) ∧
          ((s.settings.zones.get z).frost - 50 ≤ temp → temp < (s.settings.zones.get z).frost + 100 →
            r.frost = (s.regulator.zones.get z).frost) ∧
          ((4096 < p + divRound next 256 ∧ 0 < inc) ∨ (p + divRound next 256 < 0 ∧ inc < 0) →
            r.integral = (s.regulator.zones.get z).integral ∧
            r.demand = clamp 0 4096 (p + divRound (s.regulator.zones.get z).integral 256)) ∧
          (¬((4096 < p + divRound next 256 ∧ 0 < inc) ∨ (p + divRound next 256 < 0 ∧ inc < 0)) →
            r.demand = clamp 0 4096 (p + divRound next 256) ∧
            r.integral = (if s.firing.priority.isSome then (s.regulator.zones.get z).integral else next)) ∧
          r.delivered = (if r.frost then 4096 else if s.firing.priority.isSome then 0 else r.demand)

/-- The arithmetic of the part (R3): the quotient lies within half a unit of the exact one, an exact half goes to the even
neighbour, negative values round symmetrically, and clamping takes a value to the nearer end of its range. -/
def Obligations.ArithmeticRoundsConvergently : Prop :=
  (∀ a b : Int, 0 < b →
    2 * (a - b * divRound a b) ≤ b ∧ -b ≤ 2 * (a - b * divRound a b) ∧
      (2 * (a - b * divRound a b) = b ∨ 2 * (a - b * divRound a b) = -b → divRound a b % 2 = 0) ∧
      divRound (-a) b = -divRound a b) ∧
  (∀ v : Int, roundTen v = 10 * divRound v 10) ∧
  ∀ lo hi v : Int, lo ≤ hi →
    (v < lo → clamp lo hi v = lo) ∧ (hi < v → clamp lo hi v = hi) ∧ (lo ≤ v → v ≤ hi → clamp lo hi v = v)

/-! ## The valve driver -/

/-- The valve update (R103 to R106, R108, R110, R111): on a channel that is not in FAULT the hold flag follows the latest
hold set, with the cycle effects of the output duty it gives, h steps by that output duty, and the state follows output
duty and h, under SWITCH by the end switch. A SWITCH channel's confirm timer starts at 0 when h stands at 60,000 and
advances at each later update, and at 120 the channel enters FAULT. The report handed on is the one the channels give, and
the channels that enter FAULT raise one VALVE_FAULT each and are posted to both ports. The order in which the matrix takes
those events and the controller's is log entry 4's. -/
def Obligations.ValveUpdateStepsAndReports : Prop :=
  ∀ s : State, s.powered = true → s.firing.report = s.valves.report →
    ∃ t, exec .valveUpdate s = .next t ∧ Keeps [.valves, .firing, .links, .notices, .orders] s t ∧
      t.valves.demand = s.valves.demand ∧
      (∀ v : Fin 16, t.valves.report.path.getLsbD v.val =
        decide ((t.valves.channels.get v).state = .opened ∨ (t.valves.channels.get v).state = .closing)) ∧
      t.valves.report = computeReport t ∧ t.firing.report = t.valves.report ∧
      (∀ failed : Fin 16 → Bool, (∀ v, failed v = (decide ((s.valves.channels.get v).state ≠ .fault) &&
          decide ((t.valves.channels.get v).state = .fault))) →
        EventsTaken s t .valveFault failed ∧ ScopePosted s t 7 PortNotices.valveFault failed) ∧
      (∀ v : Fin 16, ∀ c u w h0 duty, c = s.settings.valves.get v → u = s.valves.channels.get v →
        w = t.valves.channels.get v → h0 = u.position →
        duty = max u.demandDuty (if s.valves.latestHold.getLsbD v.val then c.maxDuty else 0) →
          w.hold = s.valves.latestHold.getLsbD v.val ∧ w.demandDuty = u.demandDuty ∧ w.endSwitch = u.endSwitch ∧
          (u.state = .fault → u.outputDuty = 0 → u.confirmTimer = none →
            w = { u with hold := s.valves.latestHold.getLsbD v.val }) ∧
          (u.state ≠ .fault → w.state ≠ .fault →
            w.outputDuty = duty ∧
            (u.outputDuty = 0 → 0 < duty →
              w.running = true ∧ w.cycleTime = 0 ∧ w.appliedDuty = duty ∧ w.drive = true) ∧
            (0 < u.outputDuty → duty = 0 →
              w.running = false ∧ w.cycleTime = 0 ∧ w.appliedDuty = 0 ∧ w.drive = false) ∧
            ((0 < u.outputDuty ↔ 0 < duty) →
              w.running = u.running ∧ w.cycleTime = u.cycleTime ∧ w.appliedDuty = u.appliedDuty ∧
                w.drive = u.drive)) ∧
          (u.state ≠ .fault → duty = 0 →
            w.confirmTimer = none ∧ w.state = (if w.position = 0 then .closed else .closing) ∧
            (c.closeTime = 0 → w.position = 0) ∧
            (0 < c.closeTime →
              ∀ k, c.closeTime * k < 60000 + c.closeTime → 60000 ≤ c.closeTime * k → w.position = h0 - k)) ∧
          (u.state ≠ .fault → 0 < duty → c.confirm = .switch → u.endSwitch = true →
            w.state = .opened ∧ w.position = 60000 ∧ w.confirmTimer = none) ∧
          (u.state ≠ .fault → 0 < duty → c.confirm = .timer ∨ u.endSwitch = false →
            ∀ h, (c.openTime = 0 ∧ h = 60000 ∨ 0 < c.openTime ∧
                ∃ k, c.openTime * k < 60000 + c.openTime ∧ 60000 ≤ c.openTime * k ∧ h = min 60000 (h0 + k)) →
              (c.confirm = .timer → w.position = h ∧ w.confirmTimer = none ∧
                w.state = (if h = 60000 then .opened else .opening)) ∧
              (c.confirm = .switch → h ≠ 60000 → w.state = .opening ∧ w.position = h ∧ w.confirmTimer = none) ∧
              (c.confirm = .switch → h = 60000 → u.confirmTimer = none →
                w.state = .opening ∧ w.position = 60000 ∧ w.confirmTimer = some 0) ∧
              (∀ n, c.confirm = .switch → u.state = .opening → h0 = 60000 → u.confirmTimer = some n →
                (n < 119 → w.state = .opening ∧ w.position = 60000 ∧ w.confirmTimer = some (n + 1)) ∧
                (119 ≤ n → w.state = .fault ∧ w.position = 0 ∧ w.confirmTimer = none ∧ w.outputDuty = 0 ∧
                  w.running = false ∧ w.cycleTime = 0 ∧ w.appliedDuty = 0 ∧ w.drive = false))))

/-- An end-switch edge is recorded and confirms an OPENING SWITCH channel; it does nothing else to a TIMER channel or to a
SWITCH channel that is CLOSED, CLOSING or in FAULT (R106, R107). An OPEN one whose switch opens, and a confirming channel
at a row CONFIRM_TIMEOUT, enter FAULT, with one VALVE_FAULT to the matrix, VALVE_FAULT to both ports and the report formed
again (R107, R108). That a row CONFIRM_TIMEOUT is the timeout itself wherever the confirm timer runs, and not only at 120,
is the model's reading, log entry 11 (DESIGN CHOICE). -/
def Obligations.EndSwitchesConfirmAndFault : Prop :=
  ∀ (v : Fin 16) (s : State), s.powered = true →
    ((s.settings.valves.get v).confirm = .switch → (s.valves.channels.get v).state = .opening →
      (s.valves.channels.get v).endSwitch = false →
      ∃ t, exec (.endSwitchEdge v true) s = .next t ∧ Keeps [.valves, .firing, .links] s t ∧
        t.valves.channels.get v = { s.valves.channels.get v with
          state := .opened, position := 60000, confirmTimer := none, endSwitch := true } ∧
        t.valves.report = computeReport t ∧
        ∀ v', v' ≠ v → t.valves.channels.get v' = s.valves.channels.get v') ∧
    (∀ closed, (s.settings.valves.get v).confirm = .timer ∨ (s.valves.channels.get v).state = .closed ∨
        (s.valves.channels.get v).state = .closing ∨ (s.valves.channels.get v).state = .fault →
      ∃ t, exec (.endSwitchEdge v closed) s = .next t ∧ Keeps [.valves] s t ∧
        t.valves.channels.get v = { s.valves.channels.get v with endSwitch := closed } ∧
        (∀ v', v' ≠ v → t.valves.channels.get v' = s.valves.channels.get v') ∧
        t.valves.demand = s.valves.demand ∧ t.valves.report = s.valves.report ∧
        t.valves.latestHold = s.valves.latestHold) ∧
    (∀ i, (s.settings.valves.get v).confirm = .switch →
      (i = .confirmTimeout v ∧ (s.valves.channels.get v).state = .opening ∧
          (s.valves.channels.get v).confirmTimer.isSome = true ∨
        i = .endSwitchEdge v false ∧ (s.valves.channels.get v).state = .opened ∧
          (s.valves.channels.get v).endSwitch = true) →
      ∃ t, exec i s = .next t ∧ Keeps [.valves, .firing, .links, .notices, .orders] s t ∧
        (∀ w, w = t.valves.channels.get v → w.state = .fault ∧ w.outputDuty = 0 ∧ w.drive = false ∧
          w.running = false ∧ w.cycleTime = 0 ∧ w.appliedDuty = 0 ∧ w.position = 0 ∧ w.confirmTimer = none ∧
          w.demandDuty = (s.valves.channels.get v).demandDuty ∧ w.hold = (s.valves.channels.get v).hold) ∧
        (∀ v', v' ≠ v → t.valves.channels.get v' = s.valves.channels.get v') ∧
        t.valves.report = computeReport t ∧ EventsTaken s t .valveFault (fun u => decide (u = v)) ∧
        ScopePosted s t 7 PortNotices.valveFault (fun u => decide (u = v)))

/-- VALVE CLEAR takes a channel out of FAULT with h at 0 and its output duty formed at once, and answers 1; it answers 0
with no change otherwise, and is refused RANGE outside 0 to 15 (R109). A channel in FAULT has its drive stopped (R108).
With a duty above 0 a channel without confirmation is OPENING with h at 0; an open time of 0 puts h at 60,000 at once
(R104), which starts the confirm timer of a SWITCH channel (R106). That it makes a TIMER channel OPEN (R105) where R109
has OPENING is log entry 23's (DEDUCED). -/
def Obligations.ValveClearRestartsChannel : Prop :=
  ∀ (p : Port) (v : Fin 16) (s : State), s.powered = true →
    ((s.valves.channels.get v).state = .fault → (s.valves.channels.get v).outputDuty = 0 →
      (s.valves.channels.get v).drive = false →
      ∃ t, exec (.valveClear p v.val) s = .next t ∧
        Keeps (responseParts ++ [.valves, .firing, .links]) s t ∧ t.answered = some (p, .ok [.word 1]) ∧
        (∀ v', v' ≠ v → t.valves.channels.get v' = s.valves.channels.get v') ∧
        (s.firing.report = s.valves.report → t.valves.report = computeReport t ∧ t.firing.report = t.valves.report) ∧
        ∀ w c, w = t.valves.channels.get v → c = s.settings.valves.get v →
        w.demandDuty = (s.valves.channels.get v).demandDuty ∧ w.hold = (s.valves.channels.get v).hold ∧
        w.endSwitch = (s.valves.channels.get v).endSwitch ∧
        w.outputDuty = max w.demandDuty (if w.hold then c.maxDuty else 0) ∧
        (w.outputDuty = 0 → w.state = .closed ∧ w.position = 0 ∧ w.drive = false ∧ w.confirmTimer = none) ∧
        (0 < w.outputDuty → w.drive = true ∧ w.running = true ∧ w.cycleTime = 0 ∧ w.appliedDuty = w.outputDuty ∧
          (c.confirm = .switch → w.endSwitch = true →
            w.state = .opened ∧ w.position = 60000 ∧ w.confirmTimer = none) ∧
          (c.confirm = .switch → w.endSwitch = false → w.state = .opening ∧
            (0 < c.openTime → w.position = 0 ∧ w.confirmTimer = none) ∧
            (c.openTime = 0 → w.position = 60000 ∧ w.confirmTimer = some 0)) ∧
          (c.confirm = .timer → w.confirmTimer = none ∧
            (0 < c.openTime → w.state = .opening ∧ w.position = 0) ∧
            (c.openTime = 0 → w.state = .opened ∧ w.position = 60000)))) ∧
    ((s.valves.channels.get v).state ≠ .fault →
      ∃ t, exec (.valveClear p v.val) s = .next t ∧ Keeps responseParts s t ∧ t.answered = some (p, .ok [.word 0])) ∧
    (∀ n : Int, n < 0 ∨ 15 < n →
      ∃ t, exec (.valveClear p n) s = .next t ∧ Keeps responseParts s t ∧ t.answered = some (p, .er .range))

/-- The drive cycle (R103): a new cycle takes the output duty standing then with the line ON, and the line goes OFF when
the cycle time reaches an applied duty below 63. That the rows are these moments themselves, at whatever cycle time State
shows, is log entry 6's (DESIGN CHOICE). -/
def Obligations.DriveCyclesFollowAppliedDuty : Prop :=
  ∀ (v : Fin 16) (s : State), s.powered = true → (s.valves.channels.get v).running = true →
    (∃ t, exec (.cycleStart v) s = .next t ∧ Keeps [.valves] s t ∧
      t.valves.channels.get v = { s.valves.channels.get v with
        cycleTime := 0, appliedDuty := (s.valves.channels.get v).outputDuty, drive := true } ∧
      (∀ v', v' ≠ v → t.valves.channels.get v' = s.valves.channels.get v') ∧ t.valves.report = s.valves.report ∧
      t.valves.latestHold = s.valves.latestHold ∧ t.valves.demand = s.valves.demand) ∧
    ((s.valves.channels.get v).drive = true → (s.valves.channels.get v).appliedDuty < 63 →
      ∃ t, exec (.driveLineOff v) s = .next t ∧ Keeps [.valves] s t ∧
        t.valves.channels.get v = { s.valves.channels.get v with
          cycleTime := (s.valves.channels.get v).appliedDuty, drive := false } ∧
        (∀ v', v' ≠ v → t.valves.channels.get v' = s.valves.channels.get v') ∧ t.valves.report = s.valves.report ∧
        t.valves.latestHold = s.valves.latestHold ∧ t.valves.demand = s.valves.demand)

/-! ## The firing controller -/

/-- INHIBIT writes the flag of the carrying port alone and posts nothing; a flag that becomes SET ends FIRING at once, one
that becomes CLEAR lets the state selection follow, and in LOCKOUT neither changes an output or the record; any other value
is refused RANGE (R120). An opening interlock ends FIRING with the hold set of the run-on (R126, R128, R129), a closing one
lets the state selection follow in BLOCKED (R119, R122), and neither acts in LOCKOUT (R135). The matrix takes one event for
each line that changes: the burner's before the pump's on the way down, the pump's before the burner's on the way up (R121).
That no line changes twice is said of states that keep the call with its causes (CallKept, which every step keeps). -/
def Obligations.PermissionWithdrawalEndsFiring : Prop :=
  ∀ (p : Port) (on : Bool) (s : State), s.powered = true →
    (∃ t, exec (.inhibit p (if on then 1 else 0)) s = .next t ∧
      Keeps (responseParts ++ [.firing, .valves, .links]) s t ∧ OnlyHoldWritten s.valves t.valves ∧
      t.firing.inhibitText = (if p = .text then on else s.firing.inhibitText) ∧
      t.firing.inhibitWire = (if p = .wire then on else s.firing.inhibitWire) ∧
      t.answered = some (p, .ok [.word (bit t.firing.inhibitText), .word (bit t.firing.inhibitWire)]) ∧
      (on = true → t.firing.state ≠ .firing ∧ (s.firing.state = .firing → t.firing.burner = false)) ∧
      (on = false → s.firing.state = .blocked → s.firing.anyCall = true → s.firing.pathExists = true →
        s.inputs.interlock = true → s.firing.flowStatus ≠ .invalid → s.firing.minOff = none →
        t.firing.inhibitText = false → t.firing.inhibitWire = false →
          t.firing.state = .firing ∧ t.firing.burner = true) ∧
      (s.firing.state = .lockout → t.firing.state = .lockout ∧ t.firing.lockout = s.firing.lockout ∧
        t.firing.pump = s.firing.pump ∧ t.firing.burner = s.firing.burner ∧ t.firing.diverter = s.firing.diverter ∧
        t.links = s.links ∧ t.valves = s.valves) ∧
      (CallKept s → ChangesTaken s t) ∧
      (on = true → s.firing.state = .firing → s.firing.burner = true → s.firing.pump = true →
        s.settings.firing.overrun = 0 →
          t.firing.pump = false ∧ t.links = (takeEvent ⟨.pumpOff, 0⟩ (takeEvent ⟨.burnerOff, 0⟩ s)).links)) ∧
    (∀ v : Int, v ≠ 0 → v ≠ 1 → ∃ t, exec (.inhibit p v) s = .next t ∧ Keeps responseParts s t ∧
      t.answered = some (p, .er .range)) ∧
    (∃ t, exec (.interlockEdge on) s = .next t ∧ Keeps [.inputs, .firing, .valves, .links] s t ∧
      OnlyHoldWritten s.valves t.valves ∧ t.inputs = { s.inputs with interlock := on } ∧
      (s.firing.state = .firing → s.inputs.interlock = true → on = false →
        t.firing.state ≠ .firing ∧ t.firing.burner = false ∧
        (0 < s.settings.firing.minOff → t.firing.minOff = some s.settings.firing.minOff) ∧
        (0 < s.settings.firing.overrun → t.firing.state = .overrun ∧ t.firing.pump = s.firing.pump ∧
          t.firing.overrun = some s.settings.firing.overrun ∧
          (s.settings.firing.bypass = false → HoldInForce t
            (FixedHold s.settings.firing.fallbackChannel s.valves.channels s.firing.diverter) s.firing.diverter))) ∧
      (s.firing.state = .blocked → s.inputs.interlock = false → on = true → s.firing.anyCall = true →
        s.firing.pathExists = true → s.firing.inhibitText = false → s.firing.inhibitWire = false →
        s.firing.flowStatus ≠ .invalid → s.firing.minOff = none →
          t.firing.state = .firing ∧ t.firing.burner = true ∧ t.firing.pump = true ∧
          (s.firing.burner = false → s.firing.pump = false →
            t.links = (takeEvent ⟨.burnerOn, 0⟩ (takeEvent ⟨.pumpOn, 0⟩ s)).links)) ∧
      (s.firing.state = .lockout → t.firing = s.firing ∧ t.links = s.links ∧ t.valves = s.valves) ∧
      (CallKept s → ChangesTaken s t))

/-- LOCKOUT CLEAR (R136): refused NOT_READY with a reason unresolved; accepted otherwise, with the pump OFF, the record
removed and the other port told; answered 0 outside LOCKOUT. The matrix takes LOCKOUT_OFF, PUMP_OFF where the pump was ON,
and PUMP_ON and BURNER_ON where the selection that follows fires (R121, R136). -/
def Obligations.LockoutClearNeedsResolvedReasons : Prop :=
  ∀ (p : Port) (s : State), s.powered = true →
    (∀ l, s.firing.state = .lockout → s.firing.lockout = some l →
      (l.highLimit = true → s.firing.flowStatus = .valid ∧
        ∃ f ∈ s.firing.flow, f < s.settings.firing.highLimit - 1000) →
      (l.boilerFault = true → s.inputs.fault = false) →
      ∃ t, exec (.lockoutClear p) s = .next t ∧
        Keeps (responseParts ++ [.firing, .valves, .links, .notices]) s t ∧ OnlyHoldWritten s.valves t.valves ∧
        t.firing.state ≠ .lockout ∧ t.firing.state ≠ .overrun ∧ t.firing.lockout = none ∧ t.firing.hold = none ∧
        t.firing.minOff = s.firing.minOff ∧ (t.firing.state ≠ .firing → t.firing.pump = false) ∧
        (t.notices.of p.other).kinds.getLsbD 8 = true ∧ t.notices.of p = s.notices.of p ∧
        EventsTaken s t .lockoutOff (fun z => decide (z = 0)) ∧
        EventsTaken s t .pumpOff (fun z => decide (z = 0) && s.firing.pump) ∧
        EventsTaken s t .pumpOn (fun z => decide (z = 0) && t.firing.pump) ∧
        (∀ kind : SourceKind, kind ≠ .pumpOff → kind ≠ .pumpOn →
          EventsTaken s t kind fun z => decide (z = 0) && kind.shown s t) ∧
        t.answered = some (p, .ok [.word 1])) ∧
    (∀ l, s.firing.state = .lockout → s.firing.lockout = some l →
      ((l.highLimit = true ∧ (s.firing.flowStatus ≠ .valid ∨
          ∃ f ∈ s.firing.flow, s.settings.firing.highLimit - 1000 ≤ f)) ∨
        (l.boilerFault = true ∧ s.inputs.fault = true)) →
      ∃ t, exec (.lockoutClear p) s = .next t ∧ Keeps responseParts s t ∧ t.answered = some (p, .er .notReady)) ∧
    (s.firing.state ≠ .lockout →
      ∃ t, exec (.lockoutClear p) s = .next t ∧ Keeps responseParts s t ∧ t.answered = some (p, .ok [.word 0]))

/-- DHW BOOST sets the timed call and makes the call PRESENT; refused RANGE outside 1 to 120 and NOT_READY in mode OFF
(R138). The request input (R137): in FOLLOW the call follows it, in PULSE an assertion sets the timed call, in GATE it
needs the schedule state as well. A call that starts or ends raises DHW_ON or DHW_OFF, and each line that changes with it
its event (R121, R137). A call without a path enters WAIT_PATH with the path-wait timer at 0, or leaves the timer of a stay
in it alone; one with a path but without permission is BLOCKED (R122, R123). -/
def Obligations.HotWaterCausesMakeTheCall : Prop :=
  ∀ (p : Port) (asserted : Bool) (minutes : Int) (s : State), s.powered = true →
    (1 ≤ minutes → minutes ≤ 120 → s.settings.hotWater.mode ≠ .off →
      ∃ t, exec (.dhwBoost p minutes) s = .next t ∧ Keeps (responseParts ++ [.firing, .valves, .links]) s t ∧
        OnlyHoldWritten s.valves t.valves ∧ t.firing.timedCall = some (minutes.toNat * 60) ∧ t.firing.call = true ∧
        t.answered = some (p, .ok [.word minutes]) ∧
        (s.firing.call = false →
          t.firing.priority = (if s.settings.hotWater.absolute then some 0 else none)) ∧
        (s.firing.call = true → t.firing = { s.firing with timedCall := some (minutes.toNat * 60) }) ∧
        ChangesTaken s t ∧
        (s.firing.call = false → s.firing.report.path = 0 → s.firing.dhwPath = false →
          0 < s.settings.hotWater.openTime →
            (s.firing.state = .idle ∨ s.firing.state = .blocked → t.firing.state = .waitPath ∧ t.firing.pathWait = some 0) ∧
            (s.firing.state = .waitPath → t.firing.state = .waitPath ∧ t.firing.pathWait = s.firing.pathWait)) ∧
        (s.firing.call = false → s.firing.report.path ≠ 0 → ¬FiringAllowed s →
          s.firing.state = .idle ∨ s.firing.state = .waitPath ∨ s.firing.state = .blocked →
            t.firing.state = .blocked ∧ t.firing.pathWait = none)) ∧
    (1 ≤ minutes → minutes ≤ 120 → s.settings.hotWater.mode = .off →
      ∃ t, exec (.dhwBoost p minutes) s = .next t ∧ Keeps responseParts s t ∧ t.answered = some (p, .er .notReady)) ∧
    (minutes < 1 ∨ 120 < minutes →
      ∃ t, exec (.dhwBoost p minutes) s = .next t ∧ Keeps responseParts s t ∧ t.answered = some (p, .er .range)) ∧
    (s.inputs.request = !asserted →
      ∃ t, exec (.hotWaterRequestEdge asserted) s = .next t ∧ Keeps [.inputs, .firing, .valves, .links] s t ∧
        OnlyHoldWritten s.valves t.valves ∧ t.inputs = { s.inputs with request := asserted } ∧ ChangesTaken s t ∧
        (s.settings.hotWater.mode = .follow → t.firing.call = (asserted || s.firing.timedCall.isSome)) ∧
        (s.settings.hotWater.mode = .gate →
          t.firing.call = ((asserted && s.firing.schedule) || s.firing.timedCall.isSome)) ∧
        (s.settings.hotWater.mode = .pulse → asserted = true →
          t.firing.call = true ∧ t.firing.timedCall = some (s.settings.hotWater.pulse * 60)) ∧
        (s.settings.hotWater.mode = .pulse → asserted = false → t.firing.call = s.firing.timedCall.isSome) ∧
        (s.settings.hotWater.mode = .off → t.firing.call = false))

/-- The flame and boiler fault inputs (R125, R133): an assertion in FIRING stops the flame-wait timer, and the
fault-persistence timer starts at 0 with an assertion and stops with a deassertion. The path-wait and flame-wait timers at
their limits post NO_PATH with the calling zones and NO_FLAME to both ports, once (R123, R125). That a row of an expiry is
the expiry itself is log entry 6's. -/
def Obligations.FlameAndPathTimersAct : Prop :=
  ∀ s : State, s.powered = true →
    (∀ on, s.inputs.flame = !on → ∃ t, exec (.flameEdge on) s = .next t ∧ Keeps [.inputs, .firing] s t ∧
      t.inputs = { s.inputs with flame := on } ∧
      t.firing = { s.firing with
        flameWait := if on = true ∧ s.firing.state = .firing then none else s.firing.flameWait }) ∧
    (∀ on, s.inputs.fault = !on → ∃ t, exec (.boilerFaultEdge on) s = .next t ∧ Keeps [.inputs, .firing] s t ∧
      t.inputs = { s.inputs with fault := on } ∧
      t.firing = { s.firing with faultTimer := if on then some 0 else none }) ∧
    (s.firing.pathWait.isSome = true →
      ∃ t, exec .pathWaitExpiry s = .next t ∧ Keeps [.firing, .notices] s t ∧
        t.firing = { s.firing with pathWait := none } ∧
        ∀ p, t.notices.of p = (s.notices.of p).take (.noPath s.firing.demand.calling)) ∧
    (s.firing.flameWait.isSome = true →
      ∃ t, exec .flameWaitExpiry s = .next t ∧ Keeps [.firing, .notices] s t ∧
        t.firing = { s.firing with flameWait := none } ∧
        ∀ p, t.notices.of p = (s.notices.of p).take .noFlame) ∧
    (s.firing.pathWait = none → exec .pathWaitExpiry s = .next s) ∧
    (s.firing.flameWait = none → exec .flameWaitExpiry s = .next s)

/-- The boiler fault persists (R133, R134, R135): outside LOCKOUT the controller enters it with the burner OFF and, where
the pump stays ON without a bypass, a hold set fixed from the channels as they stand (R129), and in LOCKOUT the reason is
added, the ports being told in both. The matrix takes LOCKOUT_ON and an event for each line that changes (R121, R134). That
a row of an expiry is the expiry itself is log entry 6's (DESIGN CHOICE). -/
def Obligations.PersistentFaultLocksOut : Prop :=
  ∀ s : State, s.powered = true → s.firing.faultTimer.isSome = true →
    (s.firing.state ≠ .lockout →
      ∃ t, exec .faultPersistenceExpiry s = .next t ∧ Keeps [.firing, .valves, .links, .notices] s t ∧
        OnlyHoldWritten s.valves t.valves ∧ t.firing.state = .lockout ∧
        (s.firing.state = .firing → t.firing.burner = false ∧
          (0 < s.settings.firing.minOff → t.firing.minOff = some s.settings.firing.minOff)) ∧
        t.firing.flowTarget = none ∧ t.firing.code = 0 ∧
        t.firing.lockout = some ⟨false, true, s.clock.now,
          if s.firing.flowStatus = .invalid then none else s.firing.flow⟩ ∧
        t.firing.faultTimer = none ∧ t.firing.minOn = none ∧ t.firing.overrun = none ∧
        t.firing.pathWait = none ∧ t.firing.flameWait = none ∧
        (∀ f, s.firing.flow = some f → s.firing.flowStatus ≠ .invalid →
          t.firing.pump = decide (s.settings.firing.highLimit - 1000 ≤ f)) ∧
        (s.firing.flowStatus = .invalid → t.firing.pump = false) ∧
        (t.firing.pump = true → s.settings.firing.bypass = false → HoldInForce t
          (FixedHold s.settings.firing.fallbackChannel s.valves.channels s.firing.diverter) s.firing.diverter) ∧
        (t.firing.pump = false ∨ s.settings.firing.bypass = true → t.firing.hold = none) ∧
        (∀ p, (t.notices.of p).kinds.getLsbD 8 = true) ∧ ChangesTaken s t) ∧
    (∀ l, s.firing.lockout = some l → s.firing.state = .lockout → l.boilerFault = false →
      ∃ t, exec .faultPersistenceExpiry s = .next t ∧ Keeps [.firing, .notices] s t ∧
        t.firing = { s.firing with faultTimer := none, lockout := some { l with boilerFault := true } } ∧
        ∀ p, (t.notices.of p).kinds.getLsbD 8 = true)

/-- The min-on, min-off and overrun expiries (R124, R126, R127, R128). With no call the min-on expiry ends FIRING, with a
call FIRING stands; an overrun setting of 0 ends the run-on at once. A run-on without a bypass fixes its hold set from the
channels as they stand (R129), and its end releases it. The min-off expiry gives FIRING in BLOCKED and in OVERRUN where
nothing else withholds it, and nothing else otherwise. The overrun expiry follows the selection of R122: FIRING with the
pump left ON, or BLOCKED, WAIT_PATH with the path-wait timer at 0 (R123) or IDLE, each with the pump OFF. The matrix takes
one event for each line that changes, and none for a line that stays (R121). That a row of an expiry is the expiry itself
is log entry 6's (DESIGN CHOICE). -/
def Obligations.FiringTimersExpire : Prop :=
  ∀ s : State, s.powered = true →
    (s.firing.state = .firing → s.firing.minOn.isSome = true → s.firing.anyCall = false → s.firing.pathExists = true →
      0 < s.settings.firing.overrun →
      ∃ t, exec .minOnExpiry s = .next t ∧ Keeps [.firing, .valves, .links] s t ∧
        OnlyHoldWritten s.valves t.valves ∧ t.firing.state = .overrun ∧ t.firing.burner = false ∧
        t.firing.pump = s.firing.pump ∧ t.firing.overrun = some s.settings.firing.overrun ∧
        (s.settings.firing.bypass = false → HoldInForce t
          (FixedHold s.settings.firing.fallbackChannel s.valves.channels s.firing.diverter) s.firing.diverter) ∧
        t.firing.minOff =
          (if s.settings.firing.minOff = 0 then none else some s.settings.firing.minOff) ∧ ChangesTaken s t) ∧
    (s.firing.state = .firing → s.firing.minOn.isSome = true → s.firing.anyCall = false →
      s.settings.firing.overrun = 0 →
      ∃ t, exec .minOnExpiry s = .next t ∧ Keeps [.firing, .valves, .links] s t ∧
        OnlyHoldWritten s.valves t.valves ∧ t.valves.latestHold = 0 ∧
        (s.firing.demand.calling = 0 → t.firing.state = .idle) ∧
        (s.firing.demand.calling ≠ 0 → t.firing.state = .waitPath ∧ t.firing.pathWait = some 0) ∧
        t.firing.burner = false ∧ t.firing.pump = false ∧ t.firing.hold = none ∧ t.firing.overrun = none ∧
        t.firing.minOff =
          (if s.settings.firing.minOff = 0 then none else some s.settings.firing.minOff) ∧ ChangesTaken s t) ∧
    (s.firing.state = .firing → s.firing.minOn.isSome = true → CallPresent s.firing → PathPresent s.firing →
      s.inputs.interlock = true → s.firing.inhibitText = false → s.firing.inhibitWire = false →
      s.firing.flowStatus ≠ .invalid →
      ∃ t, exec .minOnExpiry s = .next t ∧ Keeps [.firing] s t ∧ t.firing = { s.firing with minOn := none }) ∧
    (s.firing.state = .blocked ∨ s.firing.state = .overrun → s.firing.minOff.isSome = true →
      s.firing.anyCall = true → s.firing.pathExists = true → s.inputs.interlock = true → s.firing.inhibitText = false →
      s.firing.inhibitWire = false → s.firing.flowStatus ≠ .invalid →
      ∃ t, exec .minOffExpiry s = .next t ∧ Keeps [.firing, .valves, .links] s t ∧
        OnlyHoldWritten s.valves t.valves ∧ t.firing.state = .firing ∧ t.firing.burner = true ∧
        t.firing.pump = true ∧ t.firing.minOff = none ∧ t.firing.overrun = none ∧ t.firing.pathWait = none ∧
        t.firing.hold = none ∧
        t.valves.latestHold = (if s.firing.hold.isSome then 0 else s.valves.latestHold) ∧
        t.firing.minOn = (if s.settings.firing.minOn = 0 then none else some s.settings.firing.minOn) ∧
        t.firing.ceiling = some (s.settings.firing.fmin + 200) ∧
        t.firing.flameWait = (if s.inputs.flame then none else some 0) ∧ ChangesTaken s t) ∧
    (s.firing.minOff.isSome = true →
      (s.firing.state = .lockout ∨
        ((s.firing.state = .overrun ∨
            (Selected s ∧ s.firing.overrun = none ∧ (s.firing.state ≠ .waitPath → s.firing.pathWait = none) ∧
              (s.firing.state = .idle ∨ s.firing.state = .waitPath ∨ s.firing.state = .blocked))) ∧
          ¬(CallPresent s.firing ∧ PathPresent s.firing ∧ s.inputs.interlock = true ∧ s.firing.inhibitText = false ∧
            s.firing.inhibitWire = false ∧ s.firing.flowStatus ≠ .invalid))) →
      ∃ t, exec .minOffExpiry s = .next t ∧ Keeps [.firing] s t ∧ t.firing = { s.firing with minOff := none }) ∧
    (s.firing.state = .overrun → s.firing.overrun.isSome = true → s.firing.anyCall = false →
      s.firing.call = false →
      ∃ t, exec .overrunExpiry s = .next t ∧ Keeps [.firing, .valves, .links] s t ∧
        OnlyHoldWritten s.valves t.valves ∧ t.valves.latestHold = 0 ∧
        (s.firing.demand.calling = 0 → t.firing.state = .idle) ∧
        (s.firing.demand.calling ≠ 0 → t.firing.state = .waitPath ∧ t.firing.pathWait = some 0) ∧
        t.firing.pump = false ∧ t.firing.hold = none ∧ t.firing.diverter = false ∧ t.firing.overrun = none ∧
        ChangesTaken s t) ∧
    (s.firing.state = .overrun → s.firing.overrun.isSome = true → CallPresent s.firing →
      s.firing.report.path ≠ 0 ∨ (s.firing.call = true ∧ s.firing.diverter = true ∧ s.firing.dhwPath = true) →
      ∃ t, exec .overrunExpiry s = .next t ∧ Keeps [.firing, .valves, .links] s t ∧
        OnlyHoldWritten s.valves t.valves ∧ t.firing.overrun = none ∧ t.firing.pathWait = none ∧
        t.firing.hold = none ∧ t.firing.minOff = s.firing.minOff ∧ ChangesTaken s t ∧
        (FiringAllowed s → t.firing.state = .firing ∧ t.firing.burner = true ∧ t.firing.pump = true ∧
          t.valves.latestHold = (if s.firing.hold.isSome then 0 else s.valves.latestHold) ∧
          t.firing.minOn = (if s.settings.firing.minOn = 0 then none else some s.settings.firing.minOn) ∧
          t.firing.ceiling = some (s.settings.firing.fmin + 200) ∧
          t.firing.flameWait = (if s.inputs.flame then none else some 0)) ∧
        (¬FiringAllowed s → t.firing.state = .blocked ∧ t.firing.burner = s.firing.burner ∧ t.firing.pump = false ∧
          t.valves.latestHold = 0)) ∧
    (s.firing.state = .overrun → s.firing.overrun.isSome = true → CallPresent s.firing →
      s.firing.report.path = 0 → s.firing.dhwPath = false → (s.firing.call = true → s.firing.diverter = true) →
      ∃ t, exec .overrunExpiry s = .next t ∧ Keeps [.firing, .valves, .links] s t ∧
        OnlyHoldWritten s.valves t.valves ∧ t.valves.latestHold = 0 ∧ t.firing.state = .waitPath ∧
        t.firing.pathWait = some 0 ∧ t.firing.burner = s.firing.burner ∧ t.firing.pump = false ∧
        t.firing.hold = none ∧ t.firing.overrun = none ∧ t.firing.minOff = s.firing.minOff ∧ ChangesTaken s t)

/-- The timed call, the priority period and the diverter (R138, R139, R140): the call ends with its timed part unless the
mode keeps it, a period ends with the call going on, and the hot-water path exists from the open time. The end of the call
raises DHW_OFF, and each line that changes its event (R121, R137), at the diverter's row in states that keep the call with
its causes (CallKept). That a row of an expiry is the expiry itself is log entry 6's (DESIGN CHOICE), and that the
diverter is OFF, outside the hold set too that the end of the call fixes where it ends FIRING, is log entry 31's (DESIGN
CHOICE). -/
def Obligations.HotWaterTimersExpire : Prop :=
  ∀ s : State, s.powered = true →
    (s.firing.timedCall.isSome = true → ownCondition s = false → s.firing.call = true → s.firing.hold = none →
      ∃ t, exec .timedCallExpiry s = .next t ∧ Keeps [.firing, .valves, .links] s t ∧
        OnlyHoldWritten s.valves t.valves ∧ t.firing.timedCall = none ∧ t.firing.call = false ∧
        t.firing.priority = none ∧ t.firing.diverter = false ∧ ChangesTaken s t) ∧
    (s.firing.timedCall.isSome = true → s.settings.hotWater.mode ≠ .off → ownCondition s = true →
      s.firing.call = true →
      ∃ t, exec .timedCallExpiry s = .next t ∧ Keeps [.firing] s t ∧
        t.firing = { s.firing with timedCall := none }) ∧
    (s.firing.priority.isSome = true → s.settings.hotWater.maxPriority ≠ 0 →
      ∃ t, exec .priorityExpiry s = .next t ∧ Keeps [.firing] s t ∧ t.firing.priority = none ∧
        t.firing.call = s.firing.call ∧ t.firing.state = s.firing.state ∧ t.firing.burner = s.firing.burner ∧
        t.firing.pump = s.firing.pump ∧ t.firing.heating = s.firing.heating ∧
        (∀ h, s.firing.heating = some h → s.firing.state = .firing → s.firing.call = true →
          t.firing.flowTarget = some (max h s.settings.hotWater.target))) ∧
    (s.firing.diverter = true → s.firing.dhwPath = false →
      ∃ t, exec .diverterOpen s = .next t ∧ Keeps [.firing, .valves, .links] s t ∧
        OnlyHoldWritten s.valves t.valves ∧
        (s.firing.call = true → t.firing.dhwPath = true ∧ t.firing.diverter = true) ∧
        (s.firing.call = true → s.firing.state = .waitPath → permitted s = true →
          t.firing.state = .firing ∧ t.firing.burner = true) ∧
        (CallKept s → ChangesTaken s t))

/-- umax is the greatest delivered demand of the zones counted in the heating call, 0 where there is none (R118). From it
a FIRING controller forms the heating target under its rate ceiling, and from that the flow target and the modulation code
(R130, R131). A pass through which the controller stays FIRING moves the ceiling to the heating target of before, plus 200,
and leaves the heating target that the new demands give under it, in whatever order demand update and report are taken
(R118): that the base is then the heating target of before the pass is log entry 25's (DEDUCED). Whether the controller
stays FIRING can depend on that order, log entry 29, and is left open. -/
def Obligations.FlowTargetFollowsRateCeiling : Prop :=
  (∀ f : Firing, (∀ z : Fin 16, f.demand.calling.getLsbD z.val = true → f.report.ready.getLsbD z.val = true →
      f.demand.delivered.get z ≤ f.umax) ∧ 0 ≤ f.umax ∧
    (f.umax = 0 ∨ ∃ z : Fin 16, f.demand.calling.getLsbD z.val = true ∧ f.report.ready.getLsbD z.val = true ∧
      f.umax = f.demand.delivered.get z)) ∧
  (∀ (s : State) (c : Int), s.firing.state = .firing → s.firing.ceiling = some c →
    ∀ u computed heating, u = s.firing.umax → computed = s.settings.firing.fmin +
        divRound (u * (s.settings.firing.fmax - s.settings.firing.fmin)) 4096 →
      heating = (if computed ≤ c then computed else if c < s.settings.firing.fmin then s.settings.firing.fmin else c) →
        (formHeating s).firing.heating = some heating ∧
        (s.firing.call = false → (formHeating s).firing.flowTarget = some heating) ∧
        (s.firing.call = true → s.firing.priority.isSome = true →
          (formHeating s).firing.flowTarget = some s.settings.hotWater.target) ∧
        (s.firing.call = true → s.firing.priority = none →
          (formHeating s).firing.flowTarget = some (max heating s.settings.hotWater.target)) ∧
        (∀ target, (formHeating s).firing.flowTarget = some target →
          (formHeating s).firing.code = clamp 0 16383 (divRound ((target - 2000) * 16383) 7000)) ∧
        Keeps [.firing] s (formHeating s)) ∧
  ∀ (s : State) (h : Int), s.powered = true → s.firing.state = .firing → s.firing.heating = some h →
    0 < s.settings.firing.minOff →
    ∃ t, exec .pass s = .next t ∧ (t.firing.state = .firing → t.firing.ceiling = some (h + 200) ∧
      ∀ computed, computed = s.settings.firing.fmin +
          divRound (t.firing.umax * (s.settings.firing.fmax - s.settings.firing.fmin)) 4096 →
        t.firing.heating = some (if computed ≤ h + 200 then computed
          else if h + 200 < s.settings.firing.fmin then s.settings.firing.fmin else h + 200))

/-! ## The link matrix -/

/-- A source event (R147, R148): the fire count of every channel it fires rises by one, and a LINKED line takes SET before
CLEAR before one TOGGLE from the bindings of the fired channels, a MASTER line nothing. -/
def Obligations.SourceEventsActOnLinkedLines : Prop :=
  ∀ (kind : SourceKind) (z : Fin 16) (s t : State), t = takeEvent ⟨kind, z⟩ s →
    Keeps [.links] s t ∧
    ∀ fired : Fin 8 → Bool,
      (∀ e, fired e = ((s.settings.events.get e).enabled && decide ((s.settings.events.get e).kind = kind) &&
        (!kind.hasParameter ||
          decide ((s.settings.events.get e).parameter = none ∨ (s.settings.events.get e).parameter = some z)))) →
      (∀ e, t.links.counts.get e =
        if fired e then (s.links.counts.get e + 1) % 65536 else s.links.counts.get e) ∧
      ∀ line : Fin 8,
        (s.settings.linked.get line = false → t.links.lines.getLsbD line.val = s.links.lines.getLsbD line.val) ∧
        (s.settings.linked.get line = true →
          t.links.lines.getLsbD line.val =
            if ∃ e, fired e = true ∧ (s.settings.bindings.get e).get line = .set then true
            else if ∃ e, fired e = true ∧ (s.settings.bindings.get e).get line = .clear then false
            else if ∃ e, fired e = true ∧ (s.settings.bindings.get e).get line = .toggle then
              !s.links.lines.getLsbD line.val
            else s.links.lines.getLsbD line.val)

/-- LINE SET, LINE CLEAR and LINE TOGGLE (R150): each line of the set, LINKED or MASTER, and no other, with the states and
modes after it; a value outside 0 to 255 is refused RANGE. -/
def Obligations.LineWritesChangeTheirSet : Prop :=
  ∀ (p : Port) (lines : Nat) (s : State), s.powered = true →
    (lines < 256 → ∀ (i : Instr) (new : Bool → Bool → Bool),
      (i = .lineSet p lines ∧ new = (fun old member => old || member) ∨
        i = .lineClear p lines ∧ new = (fun old member => old && !member) ∨
        i = .lineToggle p lines ∧ new = (fun old member => old ^^ member)) →
      ∃ (t : State) (modes : LineSet), exec i s = .next t ∧ Keeps (responseParts ++ [.links]) s t ∧
        t.links.counts = s.links.counts ∧
        t.answered = some (p, .ok [.word t.links.lines.toNat, .word modes.toNat]) ∧
        ∀ k : Fin 8, t.links.lines.getLsbD k.val = new (s.links.lines.getLsbD k.val) (lines.testBit k.val) ∧
          modes.getLsbD k.val = s.settings.linked.get k) ∧
    (∀ v : Int, v < 0 ∨ 255 < v → ∀ i, (i = .lineSet p v ∨ i = .lineClear p v ∨ i = .lineToggle p v) →
      ∃ t, exec i s = .next t ∧ Keeps responseParts s t ∧ t.answered = some (p, .er .range))

/-! ## The notice unit -/

/-- A post (R173): the kind becomes pending, a set that was pending is merged with the set posted and one that was not is
replaced by it, and the mask, the other kinds and sets and the other port's record stay. The attention line, NOTICE MASK
(R174) and NOTICE READ (R175) act on the carrying port's record and mask alone. -/
def Obligations.NoticesMergeAndAreRead : Prop :=
  ∀ (p : Port) (s : State),
    (∀ n, Keeps [.notices] s (post p n s) ∧ (post p n s).notices.of p.other = s.notices.of p.other ∧
      (post p n s).notices.of p = (s.notices.of p).take n ∧
      ∀ q, (postBoth n s).notices.of q = (s.notices.of q).take n) ∧
    (∀ r : PortNotices,
      (∀ n, (r.take n).mask = r.mask ∧ (r.take n).kinds.getLsbD n.bit = true ∧
        ∀ k, k ≠ n.bit → (r.take n).kinds.getLsbD k = r.kinds.getLsbD k) ∧
      (∀ z, (r.take (.overrideChanged z)).sets =
        r.sets.set 0 (if r.kinds.getLsbD 3 then r.overrideChanged ||| z else z).toNat) ∧
      (∀ z, (r.take (.overrideEnded z)).sets =
        r.sets.set 1 (if r.kinds.getLsbD 4 then r.overrideEnded ||| z else z).toNat) ∧
      (∀ z, (r.take (.zoneSensor z)).sets =
        r.sets.set 2 (if r.kinds.getLsbD 5 then r.zoneSensor ||| z else z).toNat) ∧
      (∀ z, (r.take (.frost z)).sets = r.sets.set 3 (if r.kinds.getLsbD 6 then r.frost ||| z else z).toNat) ∧
      (∀ z, (r.take (.noPath z)).sets = r.sets.set 4 (if r.kinds.getLsbD 9 then r.noPath ||| z else z).toNat) ∧
      (∀ c, (r.take (.valveFault c)).sets = r.sets.set 5 (if r.kinds.getLsbD 7 then r.valveFault ||| c else c).toNat) ∧
      (∀ b, (r.take (.bankLost b)).sets = r.sets.set 6 (if r.kinds.getLsbD 14 then r.bankLost ||| b else b).toNat) ∧
      (∀ n ∈ [Notice.clockChanged, .bankChanged, .scheduleEdited, .lockout, .noFlame, .saveDone, .saveFail, .configLost,
          .portOverrun], (r.take n).sets = r.sets) ∧
      (r.attention = true ↔ ∃ k : Fin 16, r.kinds.getLsbD k.val = true ∧ r.mask.getLsbD k.val = true)) ∧
    (s.powered = true →
      (∃ t, exec (.noticeRead p) s = .next t ∧ Keeps (responseParts ++ [.notices]) s t ∧
        (∀ r, r = s.notices.of p → t.answered = some (p, .ok (([(r.kinds.toNat : Int),
          if r.kinds.getLsbD 3 then (r.overrideChanged.toNat : Int) else 0,
          if r.kinds.getLsbD 4 then (r.overrideEnded.toNat : Int) else 0,
          if r.kinds.getLsbD 5 then (r.zoneSensor.toNat : Int) else 0,
          if r.kinds.getLsbD 6 then (r.frost.toNat : Int) else 0,
          if r.kinds.getLsbD 9 then (r.noPath.toNat : Int) else 0,
          if r.kinds.getLsbD 7 then (r.valveFault.toNat : Int) else 0,
          if r.kinds.getLsbD 14 then (r.bankLost.toNat : Int) else 0] : List Int).map Field.word))) ∧
        t.notices.of p.other = s.notices.of p.other ∧ (t.notices.of p).kinds = 0 ∧
        (t.notices.of p).sets = [0, 0, 0, 0, 0, 0, 0] ∧
        (t.notices.of p).mask = (s.notices.of p).mask ∧ (t.notices.of p).attention = false) ∧
      (∀ mask : Nat, mask < 65536 →
        ∃ t, exec (.noticeMask p mask) s = .next t ∧ Keeps (responseParts ++ [.notices]) s t ∧
          t.notices.of p.other = s.notices.of p.other ∧
          t.notices.of p = { s.notices.of p with mask := BitVec.ofNat 16 mask } ∧
          t.answered = some (p, .ok [.word mask, .word (bit (t.notices.of p).attention)])) ∧
      (∀ v : Int, v < 0 ∨ 65535 < v →
        ∃ t, exec (.noticeMask p v) s = .next t ∧ Keeps responseParts s t ∧ t.answered = some (p, .er .range)))

/-! ## Settings -/

/-- PARAM SET and PARAM GET (R180). PARAM GET answers the setting's value in every state under power. PARAM SET stores
the written value clamped or mapped into its range, leaves every other setting that the write does not move in step, and
changes no other part than those of the block that owns the setting, at once: a zone's enabled, base and frost settings
resolve the setpoints (R54), edge and filter restart their channel (R63), and a valve channel's settings form its duty, h,
state and report again (R100, R101, R104 to R106). A group, index or field outside the table is refused RANGE by both. That
a channel restarted by R63 has a count of 0 in its stopped timer is log entry 28's (DESIGN CHOICE). -/
def Obligations.SettingsAreStoredInRange : Prop :=
  ∀ (p : Port) (group idx field value : Int) (s : State), s.powered = true →
    (∀ q, paramOf group idx field = some q →
      (∃ t, exec (.paramGet p group idx field) s = .next t ∧ Keeps responseParts s t ∧
        t.answered = some (p, .ok [.word (q.read s.settings)])) ∧
      ∃ t rest, exec (.paramSet p group idx field value) s = .next t ∧
        Keeps (responseParts ++ .settings :: q.parts) s t ∧
        q.read t.settings = q.stored s.settings value ∧
        t.answered = some (p, .ok (.word (q.stored s.settings value) :: rest)) ∧
        (movable q = [] → rest = [.word 0]) ∧
        (∀ r, r ≠ q → r ∉ movable q → r.read t.settings = r.read s.settings) ∧
        (∀ z, q = .enabled z ∨ q = .base z ∨ q = .frost z →
          SetpointsResolved t ∧ t.overrides.slots = s.overrides.slots) ∧
        (∀ ch v, q = .edge ch ∨ q = .filter ch → v = s.capture.channels.get ch →
          ChannelAlone ch { v with timing := false, timer := 0, filtered := v.raw, held := 0 } s t) ∧
        (∀ v, q = .valveZone v ∨ q = .minDuty v ∨ q = .maxDuty v ∨ q = .valveOpen v ∨ q = .valveClose v ∨
            q = .confirm v →
          t.valves.report = computeReport t ∧ t.valves.demand = s.valves.demand ∧
          (∀ v', v' ≠ v → t.valves.channels.get v' = s.valves.channels.get v') ∧
          ∀ c u w, c = t.settings.valves.get v → u = s.valves.channels.get v → w = t.valves.channels.get v →
            w.hold = u.hold ∧ w.endSwitch = u.endSwitch ∧ (u.state = .fault ↔ w.state = .fault) ∧
            (q = .valveZone v ∨ q = .minDuty v ∨ q = .maxDuty v →
              (c.zone = none → w.demandDuty = 0) ∧
              (∀ z d, c.zone = some z → d = (divRound (s.valves.demand.delivered.get z * 63) 4096).toNat →
                w.demandDuty = (if d = 0 then 0 else max c.minDuty (min c.maxDuty d))) ∧
              w.outputDuty = (if u.state = .fault then 0
                else max w.demandDuty (if w.hold then c.maxDuty else 0)) ∧
              (u.outputDuty = 0 → 0 < w.outputDuty →
                w.running = true ∧ w.drive = true ∧ w.cycleTime = 0 ∧ w.appliedDuty = w.outputDuty) ∧
              (0 < u.outputDuty → w.outputDuty = 0 →
                w.running = false ∧ w.drive = false ∧ w.cycleTime = 0 ∧ w.appliedDuty = 0) ∧
              (0 < u.outputDuty → 0 < w.outputDuty → w.running = u.running ∧ w.drive = u.drive ∧
                w.cycleTime = u.cycleTime ∧ w.appliedDuty = u.appliedDuty)) ∧
            (q = .valveOpen v →
              (c.openTime ≠ 0 ∨ u.outputDuty = 0 ∨ u.state = .fault → w = u) ∧
              (c.openTime = 0 → 0 < u.outputDuty → u.state ≠ .fault → w.position = 60000 ∧
                w.outputDuty = u.outputDuty ∧ (c.confirm = .timer ∨ u.endSwitch = true → w.state = .opened) ∧
                (c.confirm = .switch → u.endSwitch = false → w.state = .opening ∧ w.confirmTimer.isSome = true))) ∧
            (q = .valveClose v →
              (c.closeTime ≠ 0 ∨ u.outputDuty ≠ 0 ∨ u.state = .fault → w = u) ∧
              (c.closeTime = 0 → u.outputDuty = 0 → u.state ≠ .fault →
                w = { u with position := 0, state := .closed, confirmTimer := none })) ∧
            (q = .confirm v →
              w.outputDuty = u.outputDuty ∧ (u.state = .fault → w = u) ∧
              (u.state ≠ .fault → u.outputDuty = 0 →
                w = { u with state := if u.position = 0 then .closed else .closing, confirmTimer := none }) ∧
              (u.state ≠ .fault → 0 < u.outputDuty → c.confirm = .timer →
                w = { u with state := if u.position = 60000 then .opened else .opening, confirmTimer := none }) ∧
              (u.state ≠ .fault → 0 < u.outputDuty → c.confirm = .switch → u.endSwitch = true →
                w = { u with state := .opened, position := 60000, confirmTimer := none }) ∧
              (u.state = .opened → 0 < u.outputDuty → c.confirm = .switch → u.endSwitch = false →
                w = { u with state := .opening
                             confirmTimer := if u.position = 60000 then some 0 else none }) ∧
              (u.state = .opening → 0 < u.outputDuty → c.confirm = .switch → u.endSwitch = false →
                w = { u with confirmTimer :=
                        if u.position = 60000 then some (u.confirmTimer.getD 0) else none })))) ∧
    (paramOf group idx field = none →
      (∃ t, exec (.paramSet p group idx field value) s = .next t ∧ Keeps responseParts s t ∧
        t.answered = some (p, .er .range)) ∧
      (∃ t, exec (.paramGet p group idx field) s = .next t ∧ Keeps responseParts s t ∧
        t.answered = some (p, .er .range)))

/-- Settings that move together, and what the firing and hot-water settings do at once. Minimum and maximum duty are
written in step, and the response names the one that moved (R100); a written high limit lowers Fmax, Fmin and the hot-water
target with it and trips where the flow stands above it, and a written Fmax lowers Fmin (R117, R132). Fmin, Fmax and the
hot-water target form the targets of a FIRING controller again (R130, R131), the mode derives the call (R137), SHARED and a
max priority time already reached end a priority period (R140), and an open time already reached gives the hot-water path
(R139). That a path which exists stays when the open time is raised above the diverter-on time is log entry 13's
(DEDUCED). -/
def Obligations.LinkedSettingsMoveTogether : Prop :=
  ∀ (p : Port) (v : Fin 16) (d : Nat) (limit : Int) (s : State), s.powered = true →
    (d ≤ 63 →
      ∃ t, exec (.paramSet p 3 v.val 1 d) s = .next t ∧
        Keeps (responseParts ++ [.settings, .valves, .firing, .links]) s t ∧
        (t.settings.valves.get v).minDuty = d ∧
        (t.settings.valves.get v).maxDuty = max (s.settings.valves.get v).maxDuty d ∧
        (∀ v', v' ≠ v → t.settings.valves.get v' = s.settings.valves.get v') ∧
        ((s.settings.valves.get v).maxDuty < d →
          t.answered = some (p, .ok [.word d, .word 1, .word 3, .word v.val, .word 2, .word d])) ∧
        (d ≤ (s.settings.valves.get v).maxDuty → t.answered = some (p, .ok [.word d, .word 0]))) ∧
    (d ≤ 63 →
      ∃ t, exec (.paramSet p 3 v.val 2 d) s = .next t ∧
        Keeps (responseParts ++ [.settings, .valves, .firing, .links]) s t ∧
        (t.settings.valves.get v).maxDuty = d ∧
        (t.settings.valves.get v).minDuty = min (s.settings.valves.get v).minDuty d ∧
        (∀ v', v' ≠ v → t.settings.valves.get v' = s.settings.valves.get v') ∧
        (d < (s.settings.valves.get v).minDuty →
          t.answered = some (p, .ok [.word d, .word 1, .word 3, .word v.val, .word 1, .word d])) ∧
        ((s.settings.valves.get v).minDuty ≤ d → t.answered = some (p, .ok [.word d, .word 0]))) ∧
    (6000 ≤ limit → limit ≤ 9500 →
      ∃ t, exec (.paramSet p 4 0 3 limit) s = .next t ∧
        Keeps (responseParts ++ [.settings, .firing, .valves, .links, .notices]) s t ∧
        OnlyHoldWritten s.valves t.valves ∧ t.settings.firing.highLimit = limit ∧
        t.settings.firing.fmax = min s.settings.firing.fmax (limit - 500) ∧
        t.settings.firing.fmin = min s.settings.firing.fmin (min s.settings.firing.fmax (limit - 500)) ∧
        t.settings.hotWater.target = min s.settings.hotWater.target (limit - 500) ∧
        (∀ f, s.firing.flow = some f → s.firing.flowStatus ≠ .invalid → limit < f → t.firing.state = .lockout ∧
          (s.firing.state ≠ .lockout → t.firing.lockout = some ⟨true, false, s.clock.now, some f⟩)) ∧
        (∀ f, s.firing.flow = some f → f ≤ limit → t.firing.state = s.firing.state ∧ t.notices = s.notices)) ∧
    (∀ (field value : Int), field = 4 ∨ field = 5 →
      ∃ t, exec (.paramSet p 4 0 field value) s = .next t ∧ Keeps (responseParts ++ [.settings, .firing]) s t ∧
        (field = 4 → t.settings.firing =
            { s.settings.firing with fmin := clamp 2000 s.settings.firing.fmax value } ∧
          t.answered = some (p, .ok [.word t.settings.firing.fmin, .word 0])) ∧
        (field = 5 → ∀ new, new = clamp 2000 (s.settings.firing.highLimit - 500) value →
          t.settings.firing = { s.settings.firing with fmax := new, fmin := min s.settings.firing.fmin new } ∧
          t.answered = some (p, .ok (if s.settings.firing.fmin ≤ new then [.word new, .word 0]
            else [.word new, .word 1, .word 4, .word 0, .word 4, .word new]))) ∧
        (s.firing.state ≠ .firing → t.firing = s.firing) ∧
        (∀ c, s.firing.state = .firing → s.firing.ceiling = some c → t.firing.ceiling = some c ∧
          ∀ computed, computed = t.settings.firing.fmin +
              divRound (s.firing.umax * (t.settings.firing.fmax - t.settings.firing.fmin)) 4096 →
            t.firing.heating = some (if computed ≤ c then computed
              else if c < t.settings.firing.fmin then t.settings.firing.fmin else c))) ∧
    (∀ (value : Int), ∃ t, exec (.paramSet p 5 0 1 value) s = .next t ∧
      Keeps (responseParts ++ [.settings, .firing]) s t ∧
      (s.firing.state ≠ .firing → t.firing = s.firing) ∧
      ∀ h target, s.firing.state = .firing → s.firing.heating = some h →
        target = (if s.firing.call = false then h
          else if s.firing.priority.isSome then t.settings.hotWater.target else max h t.settings.hotWater.target) →
        t.firing = { s.firing with
          flowTarget := some target, code := clamp 0 16383 (divRound ((target - 2000) * 16383) 7000) }) ∧
    (∀ (value : Int), ∃ t, exec (.paramSet p 5 0 0 value) s = .next t ∧
      Keeps (responseParts ++ [.settings, .firing, .valves, .links]) s t ∧ OnlyHoldWritten s.valves t.valves ∧
      (t.settings.hotWater.mode = .off → t.firing.timedCall = none ∧ t.firing.call = false) ∧
      (t.settings.hotWater.mode ≠ .off → t.firing.timedCall = s.firing.timedCall ∧
        t.firing.call = (s.firing.timedCall.isSome ||
          (s.inputs.request && (decide (t.settings.hotWater.mode = .follow) ||
            (decide (t.settings.hotWater.mode = .gate) && s.firing.schedule)))))) ∧
    (∀ (value : Int), ∃ t, exec (.paramSet p 5 0 3 value) s = .next t ∧
      Keeps (responseParts ++ [.settings, .firing]) s t ∧
      (value = 1 → t.firing = s.firing) ∧ (value ≠ 1 → t.firing.priority = none ∧ t.firing.call = s.firing.call) ∧
      (s.firing.priority = none → t.firing = s.firing)) ∧
    (∀ (value : Int), ∃ t, exec (.paramSet p 5 0 4 value) s = .next t ∧
      Keeps (responseParts ++ [.settings, .firing]) s t ∧
      ∀ n, s.firing.priority = some n →
        (t.settings.hotWater.maxPriority ≠ 0 → t.settings.hotWater.maxPriority * 60 ≤ n →
          t.firing.priority = none ∧ t.firing.call = s.firing.call) ∧
        (t.settings.hotWater.maxPriority = 0 ∨ n < t.settings.hotWater.maxPriority * 60 → t.firing = s.firing)) ∧
    (∀ (value : Int), ∃ t, exec (.paramSet p 5 0 5 value) s = .next t ∧
      Keeps (responseParts ++ [.settings, .firing, .valves, .links]) s t ∧ OnlyHoldWritten s.valves t.valves ∧
      (s.firing.diverter = true → s.firing.dhwPath = false → t.settings.hotWater.openTime ≤ s.firing.diverterOn →
        s.firing.call = true → t.firing.dhwPath = true ∧ t.firing.diverter = true ∧
          (s.firing.state = .waitPath → permitted s = true → t.firing.state = .firing ∧ t.firing.burner = true)) ∧
      (s.firing.diverter = false ∨ s.firing.dhwPath = true ∨ s.firing.diverterOn < t.settings.hotWater.openTime →
        t.firing = s.firing))

/-! ## What every step keeps -/

/-- Every configuration record and every bank that the part holds, in RAM, stored or in a save's snapshot, stays in the
ranges of the parameter table (R180), or keeps its order, its distinct entries, its room and its targets (R14, R15, R16). -/
def Obligations.StepsKeepStoredDataInRange : Prop :=
  ∀ s t : State, step s = .next t → (SettingsKept s → SettingsKept t) ∧ (BanksKept s → BanksKept t)

/-- The override table keeps eight slots at most, one for a zone, and every UNTIL slot's minutes remaining are the
distance to its end (R39, R45, R52, R53); every effective setpoint stays the one its inputs resolve to (R54, R55). -/
def Obligations.StepsKeepOverrideTable : Prop :=
  ∀ s t : State, step s = .next t → (TableKept s → TableKept t) ∧ (SetpointsResolved s → SetpointsResolved t)

/-- The regulator's records stay in range, call while they deliver, and deliver nothing under priority with the latch
CLEAR (R78, R91, R92, R93). -/
def Obligations.StepsKeepRegulatorRecords : Prop :=
  ∀ s t : State, SettingsKept s → RecordsKept s → step s = .next t → RecordsKept t

/-- Every valve channel's output duty stays the greater of its demand duty and its hold duty, 0 in FAULT, and both duties 0
or within its minimum and maximum (R102); its cycle, drive line, estimate and state stay as its output duty has them (R103,
R105, R106, R108); and the flow-path report last handed on stays the one the channels give (R111). -/
def Obligations.StepsKeepValveDriver : Prop :=
  ∀ s t : State, step s = .next t →
    (SettingsKept s → DutiesKept s → DutiesKept t) ∧ (ChannelsKept s → ChannelsKept t) ∧
      (ReportsCurrent s → ReportsCurrent t)

/-- The burner is ON in FIRING alone, with the interlock closed, no inhibit flag set and a path, and the pump is ON
whenever the burner is (R119, R121). FIRING stands with a call or a running min-on timer (R126). IDLE, WAIT_PATH and BLOCKED
stand where the table of R122 has them, and the path-wait timer runs in WAIT_PATH alone, from 0 at its entry (R123). -/
def Obligations.StepsKeepBurnerSafe : Prop :=
  ∀ s t : State, LinesKept s → CallKept s → ReadyHasPath s.firing.report → step s = .next t →
    LinesKept t ∧ ReadyHasPath t.firing.report ∧
      (t.firing.state = .waitPath → s.firing.state ≠ .waitPath → t.firing.pathWait = some 0)

/-- The hot-water call stands while its causes do, the diverter while the call or the hold set has it, and a priority
period only within a call (R137, R139, R140). -/
def Obligations.StepsKeepCallWithCauses : Prop := ∀ s t : State, CallKept s → step s = .next t → CallKept t

/-- The flow target stays at or below the high limit minus 500 and the heating target within Fmin to Fmax, both present
in FIRING alone (R130, R131). -/
def Obligations.StepsKeepTargetsBelowLimit : Prop :=
  ∀ s t : State, SettingsKept s → DemandInRange s.firing.demand → TargetsKept s → step s = .next t →
    TargetsKept t ∧ DemandInRange t.firing.demand

/-- A lockout record stands in LOCKOUT alone, with a reason (R134), and no row but LOCKOUT CLEAR and the rows of power
leaves LOCKOUT (R135). -/
def Obligations.StepsKeepLockoutRecord : Prop :=
  (∀ s t : State, LockoutKept s → step s = .next t → LockoutKept t) ∧
    ∀ (i : Instr) (s t : State), s.firing.state = .lockout → exec i s = .next t → t.firing.state ≠ .lockout →
      (∃ p, i = .lockoutClear p) ∨ i = .powerUp ∨ i = .powerLoss ∨ i = .externalReset

/-- The line buffer, the response queue and the write buffer stay within their sizes (R156, R159, R162). Outside a write
transfer that the port takes part in, the write buffer stays empty and its overlong mark clear: log entry 19 (DEDUCED). A
byte under way on the bus, which the rows carry by the levels of the two lines (log entry 8, DESIGN CHOICE), stays within
its eight bits (R160). -/
def Obligations.StepsKeepPortsWithinBounds : Prop := ∀ s t : State, PortsKept s → step s = .next t → PortsKept t
end

