-- ==== Sys2Proof/Laws/State.lean ====
section
/-!
SUPPORT. What each update of State writes and what it leaves: one rule for each field, true by definition. Every theorem
here is the conjunction of the rules of one update, and simp takes each of its parts as a rule of its own.
-/

namespace Sys2Proof.Machine

variable (s : State)

@[simp] theorem post_fields (p : Port) (n : Notice) :
    (post p n s).notices = s.notices.put p ((s.notices.of p).take n) ∧ (post p n s).powered = s.powered ∧
    (post p n s).clock = s.clock ∧ (post p n s).program = s.program ∧ (post p n s).overrides = s.overrides ∧
    (post p n s).capture = s.capture ∧ (post p n s).regulator = s.regulator ∧ (post p n s).valves = s.valves ∧
    (post p n s).firing = s.firing ∧ (post p n s).inputs = s.inputs ∧ (post p n s).links = s.links ∧
    (post p n s).settings = s.settings ∧ (post p n s).store = s.store ∧ (post p n s).text = s.text ∧
    (post p n s).wire = s.wire ∧ (post p n s).handed = s.handed ∧ (post p n s).answered = s.answered ∧
    (post p n s).orders = s.orders ∧ (post p n s).raised = s.raised ∧ (post p n s).pending = s.pending := by
  and_intros <;> rfl

@[simp] theorem raiseFor_fields (k : SourceKind) (i : Fin 16) :
    (raiseFor k i s).raised = s.raised ++ [⟨k, i⟩] ∧ (raiseFor k i s).powered = s.powered ∧
    (raiseFor k i s).clock = s.clock ∧ (raiseFor k i s).program = s.program ∧
    (raiseFor k i s).overrides = s.overrides ∧ (raiseFor k i s).capture = s.capture ∧
    (raiseFor k i s).regulator = s.regulator ∧ (raiseFor k i s).valves = s.valves ∧
    (raiseFor k i s).firing = s.firing ∧ (raiseFor k i s).inputs = s.inputs ∧ (raiseFor k i s).links = s.links ∧
    (raiseFor k i s).notices = s.notices ∧ (raiseFor k i s).settings = s.settings ∧
    (raiseFor k i s).store = s.store ∧ (raiseFor k i s).text = s.text ∧ (raiseFor k i s).wire = s.wire ∧
    (raiseFor k i s).handed = s.handed ∧ (raiseFor k i s).answered = s.answered ∧
    (raiseFor k i s).orders = s.orders ∧ (raiseFor k i s).pending = s.pending := by
  and_intros <;> rfl

@[simp] theorem raise_fields (k : SourceKind) :
    (raise k s).raised = s.raised ++ [⟨k, 0⟩] ∧ (raise k s).powered = s.powered ∧ (raise k s).clock = s.clock ∧
    (raise k s).program = s.program ∧ (raise k s).overrides = s.overrides ∧ (raise k s).capture = s.capture ∧
    (raise k s).regulator = s.regulator ∧ (raise k s).valves = s.valves ∧ (raise k s).firing = s.firing ∧
    (raise k s).inputs = s.inputs ∧ (raise k s).links = s.links ∧ (raise k s).notices = s.notices ∧
    (raise k s).settings = s.settings ∧ (raise k s).store = s.store ∧ (raise k s).text = s.text ∧
    (raise k s).wire = s.wire ∧ (raise k s).handed = s.handed ∧ (raise k s).answered = s.answered ∧
    (raise k s).orders = s.orders ∧ (raise k s).pending = s.pending := by
  and_intros <;> rfl

@[simp] theorem setRaised_fields (events : List SourceEvent) :
    (setRaised events s).raised = events ∧ (setRaised events s).powered = s.powered ∧
    (setRaised events s).clock = s.clock ∧ (setRaised events s).program = s.program ∧
    (setRaised events s).overrides = s.overrides ∧ (setRaised events s).capture = s.capture ∧
    (setRaised events s).regulator = s.regulator ∧ (setRaised events s).valves = s.valves ∧
    (setRaised events s).firing = s.firing ∧ (setRaised events s).inputs = s.inputs ∧
    (setRaised events s).links = s.links ∧ (setRaised events s).notices = s.notices ∧
    (setRaised events s).settings = s.settings ∧ (setRaised events s).store = s.store ∧
    (setRaised events s).text = s.text ∧ (setRaised events s).wire = s.wire ∧
    (setRaised events s).handed = s.handed ∧ (setRaised events s).answered = s.answered ∧
    (setRaised events s).orders = s.orders ∧ (setRaised events s).pending = s.pending := by
  and_intros <;> rfl

@[simp] theorem nothingRaised_fields :
    (nothingRaised s).raised = [] ∧ (nothingRaised s).powered = s.powered ∧ (nothingRaised s).clock = s.clock ∧
    (nothingRaised s).program = s.program ∧ (nothingRaised s).overrides = s.overrides ∧
    (nothingRaised s).capture = s.capture ∧ (nothingRaised s).regulator = s.regulator ∧
    (nothingRaised s).valves = s.valves ∧ (nothingRaised s).firing = s.firing ∧
    (nothingRaised s).inputs = s.inputs ∧ (nothingRaised s).links = s.links ∧
    (nothingRaised s).notices = s.notices ∧ (nothingRaised s).settings = s.settings ∧
    (nothingRaised s).store = s.store ∧ (nothingRaised s).text = s.text ∧ (nothingRaised s).wire = s.wire ∧
    (nothingRaised s).handed = s.handed ∧ (nothingRaised s).answered = s.answered ∧
    (nothingRaised s).orders = s.orders ∧ (nothingRaised s).pending = s.pending := by
  and_intros <;> rfl

@[simp] theorem takeEvent_fields (e : SourceEvent) :
    (takeEvent e s).links = s.links.take s.settings e.kind e.parameter ∧ (takeEvent e s).powered = s.powered ∧
    (takeEvent e s).clock = s.clock ∧ (takeEvent e s).program = s.program ∧
    (takeEvent e s).overrides = s.overrides ∧ (takeEvent e s).capture = s.capture ∧
    (takeEvent e s).regulator = s.regulator ∧ (takeEvent e s).valves = s.valves ∧
    (takeEvent e s).firing = s.firing ∧ (takeEvent e s).inputs = s.inputs ∧ (takeEvent e s).notices = s.notices ∧
    (takeEvent e s).settings = s.settings ∧ (takeEvent e s).store = s.store ∧ (takeEvent e s).text = s.text ∧
    (takeEvent e s).wire = s.wire ∧ (takeEvent e s).handed = s.handed ∧ (takeEvent e s).answered = s.answered ∧
    (takeEvent e s).orders = s.orders ∧ (takeEvent e s).raised = s.raised ∧ (takeEvent e s).pending = s.pending := by
  and_intros <;> rfl

@[simp] theorem restartMatrix_fields :
    (restartMatrix s).links = blankLinks ∧ (restartMatrix s).powered = s.powered ∧
    (restartMatrix s).clock = s.clock ∧ (restartMatrix s).program = s.program ∧
    (restartMatrix s).overrides = s.overrides ∧ (restartMatrix s).capture = s.capture ∧
    (restartMatrix s).regulator = s.regulator ∧ (restartMatrix s).valves = s.valves ∧
    (restartMatrix s).firing = s.firing ∧ (restartMatrix s).inputs = s.inputs ∧
    (restartMatrix s).notices = s.notices ∧ (restartMatrix s).settings = s.settings ∧
    (restartMatrix s).store = s.store ∧ (restartMatrix s).text = s.text ∧ (restartMatrix s).wire = s.wire ∧
    (restartMatrix s).handed = s.handed ∧ (restartMatrix s).answered = s.answered ∧
    (restartMatrix s).orders = s.orders ∧ (restartMatrix s).raised = s.raised ∧
    (restartMatrix s).pending = s.pending := by
  and_intros <;> rfl

@[simp] theorem modFiring_fields (f : Firing → Firing) :
    (modFiring f s).firing = f s.firing ∧ (modFiring f s).powered = s.powered ∧ (modFiring f s).clock = s.clock ∧
    (modFiring f s).program = s.program ∧ (modFiring f s).overrides = s.overrides ∧
    (modFiring f s).capture = s.capture ∧ (modFiring f s).regulator = s.regulator ∧
    (modFiring f s).valves = s.valves ∧ (modFiring f s).inputs = s.inputs ∧ (modFiring f s).links = s.links ∧
    (modFiring f s).notices = s.notices ∧ (modFiring f s).settings = s.settings ∧ (modFiring f s).store = s.store ∧
    (modFiring f s).text = s.text ∧ (modFiring f s).wire = s.wire ∧ (modFiring f s).handed = s.handed ∧
    (modFiring f s).answered = s.answered ∧ (modFiring f s).orders = s.orders ∧ (modFiring f s).raised = s.raised ∧
    (modFiring f s).pending = s.pending := by
  and_intros <;> rfl

@[simp] theorem writeHold_fields (h : ChannelSet) :
    (writeHold h s).valves = { s.valves with latestHold := h } ∧ (writeHold h s).powered = s.powered ∧
    (writeHold h s).clock = s.clock ∧ (writeHold h s).program = s.program ∧
    (writeHold h s).overrides = s.overrides ∧ (writeHold h s).capture = s.capture ∧
    (writeHold h s).regulator = s.regulator ∧ (writeHold h s).firing = s.firing ∧
    (writeHold h s).inputs = s.inputs ∧ (writeHold h s).links = s.links ∧ (writeHold h s).notices = s.notices ∧
    (writeHold h s).settings = s.settings ∧ (writeHold h s).store = s.store ∧ (writeHold h s).text = s.text ∧
    (writeHold h s).wire = s.wire ∧ (writeHold h s).handed = s.handed ∧ (writeHold h s).answered = s.answered ∧
    (writeHold h s).orders = s.orders ∧ (writeHold h s).raised = s.raised ∧ (writeHold h s).pending = s.pending := by
  and_intros <;> rfl

@[simp] theorem resolve_fields :
    (resolve s).overrides = { s.overrides with effective := Tab.ofFn (effectiveSetpoint s) } ∧
    (resolve s).powered = s.powered ∧ (resolve s).clock = s.clock ∧ (resolve s).program = s.program ∧
    (resolve s).capture = s.capture ∧ (resolve s).regulator = s.regulator ∧ (resolve s).valves = s.valves ∧
    (resolve s).firing = s.firing ∧ (resolve s).inputs = s.inputs ∧ (resolve s).links = s.links ∧
    (resolve s).notices = s.notices ∧ (resolve s).settings = s.settings ∧ (resolve s).store = s.store ∧
    (resolve s).text = s.text ∧ (resolve s).wire = s.wire ∧ (resolve s).handed = s.handed ∧
    (resolve s).answered = s.answered ∧ (resolve s).orders = s.orders ∧ (resolve s).raised = s.raised ∧
    (resolve s).pending = s.pending := by
  and_intros <;> rfl

@[simp] theorem setActive_fields (b : Fin 4) :
    (setActive b s).program = { s.program with active := b } ∧ (setActive b s).powered = s.powered ∧
    (setActive b s).clock = s.clock ∧ (setActive b s).overrides = s.overrides ∧
    (setActive b s).capture = s.capture ∧ (setActive b s).regulator = s.regulator ∧
    (setActive b s).valves = s.valves ∧ (setActive b s).firing = s.firing ∧ (setActive b s).inputs = s.inputs ∧
    (setActive b s).links = s.links ∧ (setActive b s).notices = s.notices ∧ (setActive b s).settings = s.settings ∧
    (setActive b s).store = s.store ∧ (setActive b s).text = s.text ∧ (setActive b s).wire = s.wire ∧
    (setActive b s).handed = s.handed ∧ (setActive b s).answered = s.answered ∧ (setActive b s).orders = s.orders ∧
    (setActive b s).raised = s.raised ∧ (setActive b s).pending = s.pending := by
  and_intros <;> rfl

@[simp] theorem setTimed_fields (r : Option Timed) :
    (setTimed r s).program = { s.program with timed := r } ∧ (setTimed r s).powered = s.powered ∧
    (setTimed r s).clock = s.clock ∧ (setTimed r s).overrides = s.overrides ∧ (setTimed r s).capture = s.capture ∧
    (setTimed r s).regulator = s.regulator ∧ (setTimed r s).valves = s.valves ∧ (setTimed r s).firing = s.firing ∧
    (setTimed r s).inputs = s.inputs ∧ (setTimed r s).links = s.links ∧ (setTimed r s).notices = s.notices ∧
    (setTimed r s).settings = s.settings ∧ (setTimed r s).store = s.store ∧ (setTimed r s).text = s.text ∧
    (setTimed r s).wire = s.wire ∧ (setTimed r s).handed = s.handed ∧ (setTimed r s).answered = s.answered ∧
    (setTimed r s).orders = s.orders ∧ (setTimed r s).raised = s.raised ∧ (setTimed r s).pending = s.pending := by
  and_intros <;> rfl

@[simp] theorem setRemembered_fields (f : Fin 17 → Option Entry) :
    (setRemembered f s).program = { s.program with remembered := Tab.ofFn f } ∧
    (setRemembered f s).powered = s.powered ∧ (setRemembered f s).clock = s.clock ∧
    (setRemembered f s).overrides = s.overrides ∧ (setRemembered f s).capture = s.capture ∧
    (setRemembered f s).regulator = s.regulator ∧ (setRemembered f s).valves = s.valves ∧
    (setRemembered f s).firing = s.firing ∧ (setRemembered f s).inputs = s.inputs ∧
    (setRemembered f s).links = s.links ∧ (setRemembered f s).notices = s.notices ∧
    (setRemembered f s).settings = s.settings ∧ (setRemembered f s).store = s.store ∧
    (setRemembered f s).text = s.text ∧ (setRemembered f s).wire = s.wire ∧ (setRemembered f s).handed = s.handed ∧
    (setRemembered f s).answered = s.answered ∧ (setRemembered f s).orders = s.orders ∧
    (setRemembered f s).raised = s.raised ∧ (setRemembered f s).pending = s.pending := by
  and_intros <;> rfl

@[simp] theorem putBank_fields (b : Fin 4) (x : Bank) :
    (putBank b x s).program = { s.program with banks := s.program.banks.set b x } ∧
    (putBank b x s).powered = s.powered ∧ (putBank b x s).clock = s.clock ∧
    (putBank b x s).overrides = s.overrides ∧ (putBank b x s).capture = s.capture ∧
    (putBank b x s).regulator = s.regulator ∧ (putBank b x s).valves = s.valves ∧
    (putBank b x s).firing = s.firing ∧ (putBank b x s).inputs = s.inputs ∧ (putBank b x s).links = s.links ∧
    (putBank b x s).notices = s.notices ∧ (putBank b x s).settings = s.settings ∧ (putBank b x s).store = s.store ∧
    (putBank b x s).text = s.text ∧ (putBank b x s).wire = s.wire ∧ (putBank b x s).handed = s.handed ∧
    (putBank b x s).answered = s.answered ∧ (putBank b x s).orders = s.orders ∧ (putBank b x s).raised = s.raised ∧
    (putBank b x s).pending = s.pending := by
  and_intros <;> rfl

@[simp] theorem setOperation_fields (o : Option Operation) :
    (setOperation o s).store = { s.store with operation := o } ∧ (setOperation o s).powered = s.powered ∧
    (setOperation o s).clock = s.clock ∧ (setOperation o s).program = s.program ∧
    (setOperation o s).overrides = s.overrides ∧ (setOperation o s).capture = s.capture ∧
    (setOperation o s).regulator = s.regulator ∧ (setOperation o s).valves = s.valves ∧
    (setOperation o s).firing = s.firing ∧ (setOperation o s).inputs = s.inputs ∧
    (setOperation o s).links = s.links ∧ (setOperation o s).notices = s.notices ∧
    (setOperation o s).settings = s.settings ∧ (setOperation o s).text = s.text ∧ (setOperation o s).wire = s.wire ∧
    (setOperation o s).handed = s.handed ∧ (setOperation o s).answered = s.answered ∧
    (setOperation o s).orders = s.orders ∧ (setOperation o s).raised = s.raised ∧
    (setOperation o s).pending = s.pending := by
  and_intros <;> rfl

@[simp] theorem putStored_fields (b : Fin 4) (x : Stored Lists) :
    (putStored b x s).store = { s.store with banks := s.store.banks.set b x } ∧
    (putStored b x s).powered = s.powered ∧ (putStored b x s).clock = s.clock ∧
    (putStored b x s).program = s.program ∧ (putStored b x s).overrides = s.overrides ∧
    (putStored b x s).capture = s.capture ∧ (putStored b x s).regulator = s.regulator ∧
    (putStored b x s).valves = s.valves ∧ (putStored b x s).firing = s.firing ∧
    (putStored b x s).inputs = s.inputs ∧ (putStored b x s).links = s.links ∧
    (putStored b x s).notices = s.notices ∧ (putStored b x s).settings = s.settings ∧
    (putStored b x s).text = s.text ∧ (putStored b x s).wire = s.wire ∧ (putStored b x s).handed = s.handed ∧
    (putStored b x s).answered = s.answered ∧ (putStored b x s).orders = s.orders ∧
    (putStored b x s).raised = s.raised ∧ (putStored b x s).pending = s.pending := by
  and_intros <;> rfl

@[simp] theorem putStoredConfig_fields (x : Stored Settings) :
    (putStoredConfig x s).store = { s.store with config := x } ∧ (putStoredConfig x s).powered = s.powered ∧
    (putStoredConfig x s).clock = s.clock ∧ (putStoredConfig x s).program = s.program ∧
    (putStoredConfig x s).overrides = s.overrides ∧ (putStoredConfig x s).capture = s.capture ∧
    (putStoredConfig x s).regulator = s.regulator ∧ (putStoredConfig x s).valves = s.valves ∧
    (putStoredConfig x s).firing = s.firing ∧ (putStoredConfig x s).inputs = s.inputs ∧
    (putStoredConfig x s).links = s.links ∧ (putStoredConfig x s).notices = s.notices ∧
    (putStoredConfig x s).settings = s.settings ∧ (putStoredConfig x s).text = s.text ∧
    (putStoredConfig x s).wire = s.wire ∧ (putStoredConfig x s).handed = s.handed ∧
    (putStoredConfig x s).answered = s.answered ∧ (putStoredConfig x s).orders = s.orders ∧
    (putStoredConfig x s).raised = s.raised ∧ (putStoredConfig x s).pending = s.pending := by
  and_intros <;> rfl

@[simp] theorem modChannel_fields (c : Fin 18) (f : Channel → Channel) :
    (modChannel c f s).capture = { s.capture with channels := s.capture.channels.modify c f } ∧
    (modChannel c f s).powered = s.powered ∧ (modChannel c f s).clock = s.clock ∧
    (modChannel c f s).program = s.program ∧ (modChannel c f s).overrides = s.overrides ∧
    (modChannel c f s).regulator = s.regulator ∧ (modChannel c f s).valves = s.valves ∧
    (modChannel c f s).firing = s.firing ∧ (modChannel c f s).inputs = s.inputs ∧
    (modChannel c f s).links = s.links ∧ (modChannel c f s).notices = s.notices ∧
    (modChannel c f s).settings = s.settings ∧ (modChannel c f s).store = s.store ∧
    (modChannel c f s).text = s.text ∧ (modChannel c f s).wire = s.wire ∧ (modChannel c f s).handed = s.handed ∧
    (modChannel c f s).answered = s.answered ∧ (modChannel c f s).orders = s.orders ∧
    (modChannel c f s).raised = s.raised ∧ (modChannel c f s).pending = s.pending := by
  and_intros <;> rfl

@[simp] theorem setChannels_fields (x : Tab 16 ValveChannel) :
    (setChannels x s).valves = { s.valves with channels := x } ∧ (setChannels x s).powered = s.powered ∧
    (setChannels x s).clock = s.clock ∧ (setChannels x s).program = s.program ∧
    (setChannels x s).overrides = s.overrides ∧ (setChannels x s).capture = s.capture ∧
    (setChannels x s).regulator = s.regulator ∧ (setChannels x s).firing = s.firing ∧
    (setChannels x s).inputs = s.inputs ∧ (setChannels x s).links = s.links ∧
    (setChannels x s).notices = s.notices ∧ (setChannels x s).settings = s.settings ∧
    (setChannels x s).store = s.store ∧ (setChannels x s).text = s.text ∧ (setChannels x s).wire = s.wire ∧
    (setChannels x s).handed = s.handed ∧ (setChannels x s).answered = s.answered ∧
    (setChannels x s).orders = s.orders ∧ (setChannels x s).raised = s.raised ∧
    (setChannels x s).pending = s.pending := by
  and_intros <;> rfl

@[simp] theorem modValve_fields (c : Fin 16) (f : ValveChannel → ValveChannel) :
    (modValve c f s).valves = { s.valves with channels := s.valves.channels.modify c f } ∧
    (modValve c f s).powered = s.powered ∧ (modValve c f s).clock = s.clock ∧ (modValve c f s).program = s.program ∧
    (modValve c f s).overrides = s.overrides ∧ (modValve c f s).capture = s.capture ∧
    (modValve c f s).regulator = s.regulator ∧ (modValve c f s).firing = s.firing ∧
    (modValve c f s).inputs = s.inputs ∧ (modValve c f s).links = s.links ∧ (modValve c f s).notices = s.notices ∧
    (modValve c f s).settings = s.settings ∧ (modValve c f s).store = s.store ∧ (modValve c f s).text = s.text ∧
    (modValve c f s).wire = s.wire ∧ (modValve c f s).handed = s.handed ∧ (modValve c f s).answered = s.answered ∧
    (modValve c f s).orders = s.orders ∧ (modValve c f s).raised = s.raised ∧ (modValve c f s).pending = s.pending := by
  and_intros <;> rfl

@[simp] theorem setReport_fields (r : PathReport) :
    (setReport r s).valves = { s.valves with report := r } ∧ (setReport r s).powered = s.powered ∧
    (setReport r s).clock = s.clock ∧ (setReport r s).program = s.program ∧
    (setReport r s).overrides = s.overrides ∧ (setReport r s).capture = s.capture ∧
    (setReport r s).regulator = s.regulator ∧ (setReport r s).firing = s.firing ∧
    (setReport r s).inputs = s.inputs ∧ (setReport r s).links = s.links ∧ (setReport r s).notices = s.notices ∧
    (setReport r s).settings = s.settings ∧ (setReport r s).store = s.store ∧ (setReport r s).text = s.text ∧
    (setReport r s).wire = s.wire ∧ (setReport r s).handed = s.handed ∧ (setReport r s).answered = s.answered ∧
    (setReport r s).orders = s.orders ∧ (setReport r s).raised = s.raised ∧ (setReport r s).pending = s.pending := by
  and_intros <;> rfl

@[simp] theorem setRegulator_fields (r : Regulator) :
    (setRegulator r s).regulator = r ∧ (setRegulator r s).powered = s.powered ∧ (setRegulator r s).clock = s.clock ∧
    (setRegulator r s).program = s.program ∧ (setRegulator r s).overrides = s.overrides ∧
    (setRegulator r s).capture = s.capture ∧ (setRegulator r s).valves = s.valves ∧
    (setRegulator r s).firing = s.firing ∧ (setRegulator r s).inputs = s.inputs ∧
    (setRegulator r s).links = s.links ∧ (setRegulator r s).notices = s.notices ∧
    (setRegulator r s).settings = s.settings ∧ (setRegulator r s).store = s.store ∧
    (setRegulator r s).text = s.text ∧ (setRegulator r s).wire = s.wire ∧ (setRegulator r s).handed = s.handed ∧
    (setRegulator r s).answered = s.answered ∧ (setRegulator r s).orders = s.orders ∧
    (setRegulator r s).raised = s.raised ∧ (setRegulator r s).pending = s.pending := by
  and_intros <;> rfl

@[simp] theorem setFlame_fields (on : Bool) :
    (setFlame on s).inputs = { s.inputs with flame := on } ∧ (setFlame on s).powered = s.powered ∧
    (setFlame on s).clock = s.clock ∧ (setFlame on s).program = s.program ∧
    (setFlame on s).overrides = s.overrides ∧ (setFlame on s).capture = s.capture ∧
    (setFlame on s).regulator = s.regulator ∧ (setFlame on s).valves = s.valves ∧
    (setFlame on s).firing = s.firing ∧ (setFlame on s).links = s.links ∧ (setFlame on s).notices = s.notices ∧
    (setFlame on s).settings = s.settings ∧ (setFlame on s).store = s.store ∧ (setFlame on s).text = s.text ∧
    (setFlame on s).wire = s.wire ∧ (setFlame on s).handed = s.handed ∧ (setFlame on s).answered = s.answered ∧
    (setFlame on s).orders = s.orders ∧ (setFlame on s).raised = s.raised ∧ (setFlame on s).pending = s.pending := by
  and_intros <;> rfl

@[simp] theorem setFaultInput_fields (on : Bool) :
    (setFaultInput on s).inputs = { s.inputs with fault := on } ∧ (setFaultInput on s).powered = s.powered ∧
    (setFaultInput on s).clock = s.clock ∧ (setFaultInput on s).program = s.program ∧
    (setFaultInput on s).overrides = s.overrides ∧ (setFaultInput on s).capture = s.capture ∧
    (setFaultInput on s).regulator = s.regulator ∧ (setFaultInput on s).valves = s.valves ∧
    (setFaultInput on s).firing = s.firing ∧ (setFaultInput on s).links = s.links ∧
    (setFaultInput on s).notices = s.notices ∧ (setFaultInput on s).settings = s.settings ∧
    (setFaultInput on s).store = s.store ∧ (setFaultInput on s).text = s.text ∧ (setFaultInput on s).wire = s.wire ∧
    (setFaultInput on s).handed = s.handed ∧ (setFaultInput on s).answered = s.answered ∧
    (setFaultInput on s).orders = s.orders ∧ (setFaultInput on s).raised = s.raised ∧
    (setFaultInput on s).pending = s.pending := by
  and_intros <;> rfl

@[simp] theorem setInterlock_fields (on : Bool) :
    (setInterlock on s).inputs = { s.inputs with interlock := on } ∧ (setInterlock on s).powered = s.powered ∧
    (setInterlock on s).clock = s.clock ∧ (setInterlock on s).program = s.program ∧
    (setInterlock on s).overrides = s.overrides ∧ (setInterlock on s).capture = s.capture ∧
    (setInterlock on s).regulator = s.regulator ∧ (setInterlock on s).valves = s.valves ∧
    (setInterlock on s).firing = s.firing ∧ (setInterlock on s).links = s.links ∧
    (setInterlock on s).notices = s.notices ∧ (setInterlock on s).settings = s.settings ∧
    (setInterlock on s).store = s.store ∧ (setInterlock on s).text = s.text ∧ (setInterlock on s).wire = s.wire ∧
    (setInterlock on s).handed = s.handed ∧ (setInterlock on s).answered = s.answered ∧
    (setInterlock on s).orders = s.orders ∧ (setInterlock on s).raised = s.raised ∧
    (setInterlock on s).pending = s.pending := by
  and_intros <;> rfl

@[simp] theorem setRequest_fields (on : Bool) :
    (setRequest on s).inputs = { s.inputs with request := on } ∧ (setRequest on s).powered = s.powered ∧
    (setRequest on s).clock = s.clock ∧ (setRequest on s).program = s.program ∧
    (setRequest on s).overrides = s.overrides ∧ (setRequest on s).capture = s.capture ∧
    (setRequest on s).regulator = s.regulator ∧ (setRequest on s).valves = s.valves ∧
    (setRequest on s).firing = s.firing ∧ (setRequest on s).links = s.links ∧
    (setRequest on s).notices = s.notices ∧ (setRequest on s).settings = s.settings ∧
    (setRequest on s).store = s.store ∧ (setRequest on s).text = s.text ∧ (setRequest on s).wire = s.wire ∧
    (setRequest on s).handed = s.handed ∧ (setRequest on s).answered = s.answered ∧
    (setRequest on s).orders = s.orders ∧ (setRequest on s).raised = s.raised ∧
    (setRequest on s).pending = s.pending := by
  and_intros <;> rfl

@[simp] theorem setLines_fields (l : LineSet) :
    (setLines l s).links = { s.links with lines := l } ∧ (setLines l s).powered = s.powered ∧
    (setLines l s).clock = s.clock ∧ (setLines l s).program = s.program ∧ (setLines l s).overrides = s.overrides ∧
    (setLines l s).capture = s.capture ∧ (setLines l s).regulator = s.regulator ∧ (setLines l s).valves = s.valves ∧
    (setLines l s).firing = s.firing ∧ (setLines l s).inputs = s.inputs ∧ (setLines l s).notices = s.notices ∧
    (setLines l s).settings = s.settings ∧ (setLines l s).store = s.store ∧ (setLines l s).text = s.text ∧
    (setLines l s).wire = s.wire ∧ (setLines l s).handed = s.handed ∧ (setLines l s).answered = s.answered ∧
    (setLines l s).orders = s.orders ∧ (setLines l s).raised = s.raised ∧ (setLines l s).pending = s.pending := by
  and_intros <;> rfl

@[simp] theorem setSettings_fields (c : Settings) :
    (setSettings c s).settings = c ∧ (setSettings c s).powered = s.powered ∧ (setSettings c s).clock = s.clock ∧
    (setSettings c s).program = s.program ∧ (setSettings c s).overrides = s.overrides ∧
    (setSettings c s).capture = s.capture ∧ (setSettings c s).regulator = s.regulator ∧
    (setSettings c s).valves = s.valves ∧ (setSettings c s).firing = s.firing ∧
    (setSettings c s).inputs = s.inputs ∧ (setSettings c s).links = s.links ∧
    (setSettings c s).notices = s.notices ∧ (setSettings c s).store = s.store ∧ (setSettings c s).text = s.text ∧
    (setSettings c s).wire = s.wire ∧ (setSettings c s).handed = s.handed ∧
    (setSettings c s).answered = s.answered ∧ (setSettings c s).orders = s.orders ∧
    (setSettings c s).raised = s.raised ∧ (setSettings c s).pending = s.pending := by
  and_intros <;> rfl

@[simp] theorem modText_fields (f : TextPort → TextPort) :
    (modText f s).text = f s.text ∧ (modText f s).powered = s.powered ∧ (modText f s).clock = s.clock ∧
    (modText f s).program = s.program ∧ (modText f s).overrides = s.overrides ∧ (modText f s).capture = s.capture ∧
    (modText f s).regulator = s.regulator ∧ (modText f s).valves = s.valves ∧ (modText f s).firing = s.firing ∧
    (modText f s).inputs = s.inputs ∧ (modText f s).links = s.links ∧ (modText f s).notices = s.notices ∧
    (modText f s).settings = s.settings ∧ (modText f s).store = s.store ∧ (modText f s).wire = s.wire ∧
    (modText f s).handed = s.handed ∧ (modText f s).answered = s.answered ∧ (modText f s).orders = s.orders ∧
    (modText f s).raised = s.raised ∧ (modText f s).pending = s.pending := by
  and_intros <;> rfl

@[simp] theorem modWire_fields (f : WirePort → WirePort) :
    (modWire f s).wire = f s.wire ∧ (modWire f s).powered = s.powered ∧ (modWire f s).clock = s.clock ∧
    (modWire f s).program = s.program ∧ (modWire f s).overrides = s.overrides ∧ (modWire f s).capture = s.capture ∧
    (modWire f s).regulator = s.regulator ∧ (modWire f s).valves = s.valves ∧ (modWire f s).firing = s.firing ∧
    (modWire f s).inputs = s.inputs ∧ (modWire f s).links = s.links ∧ (modWire f s).notices = s.notices ∧
    (modWire f s).settings = s.settings ∧ (modWire f s).store = s.store ∧ (modWire f s).text = s.text ∧
    (modWire f s).handed = s.handed ∧ (modWire f s).answered = s.answered ∧ (modWire f s).orders = s.orders ∧
    (modWire f s).raised = s.raised ∧ (modWire f s).pending = s.pending := by
  and_intros <;> rfl

@[simp] theorem handOver_fields (c : Instr) :
    (handOver c s).handed = s.handed ++ [⟨c, true⟩] ∧ (handOver c s).powered = s.powered ∧
    (handOver c s).clock = s.clock ∧ (handOver c s).program = s.program ∧ (handOver c s).overrides = s.overrides ∧
    (handOver c s).capture = s.capture ∧ (handOver c s).regulator = s.regulator ∧ (handOver c s).valves = s.valves ∧
    (handOver c s).firing = s.firing ∧ (handOver c s).inputs = s.inputs ∧ (handOver c s).links = s.links ∧
    (handOver c s).notices = s.notices ∧ (handOver c s).settings = s.settings ∧ (handOver c s).store = s.store ∧
    (handOver c s).text = s.text ∧ (handOver c s).wire = s.wire ∧ (handOver c s).answered = s.answered ∧
    (handOver c s).orders = s.orders ∧ (handOver c s).raised = s.raised ∧ (handOver c s).pending = s.pending := by
  and_intros <;> rfl

@[simp] theorem setPowered_fields (on : Bool) :
    (setPowered on s).powered = on ∧ (setPowered on s).clock = s.clock ∧ (setPowered on s).program = s.program ∧
    (setPowered on s).overrides = s.overrides ∧ (setPowered on s).capture = s.capture ∧
    (setPowered on s).regulator = s.regulator ∧ (setPowered on s).valves = s.valves ∧
    (setPowered on s).firing = s.firing ∧ (setPowered on s).inputs = s.inputs ∧ (setPowered on s).links = s.links ∧
    (setPowered on s).notices = s.notices ∧ (setPowered on s).settings = s.settings ∧
    (setPowered on s).store = s.store ∧ (setPowered on s).text = s.text ∧ (setPowered on s).wire = s.wire ∧
    (setPowered on s).handed = s.handed ∧ (setPowered on s).answered = s.answered ∧
    (setPowered on s).orders = s.orders ∧ (setPowered on s).raised = s.raised ∧
    (setPowered on s).pending = s.pending := by
  and_intros <;> rfl

end Sys2Proof.Machine
end

