-- ==== Sys2Proof/Laws/Bus.lean ====
section
/-!
SUPPORT. What the levels of the bus come to (R160): the levels of a bit give that bit, the levels of a byte that byte, the
levels of a START and of a STOP their signs, and the levels of a whole transfer what its bytes say.
-/

namespace Sys2Proof.Machine

/-- A list of levels is the levels one after the other, in as many rows as it comes in. -/
theorem busBlock_append (a b : List Levels) (s : State) : busBlock (a ++ b) s = busBlock b (busBlock a s) := by
  simp [busBlock]

/-- The state with the bus replaced. -/
def onBus (b : Bus) (s : State) : State := modWire (fun w => { w with bus := b }) s

/-- The levels of one bit within a transfer, from a low clock line, are that bit (R160). -/
theorem busBlock_bit (b : Bool) (t : Carried) (s : State) (hc : s.wire.bus.clock = false)
    (ht : s.wire.bus.carried = some t) :
    busBlock (bitLevels b) s = takeBit t b (onBus ⟨false, b, false, some t⟩ s) := by
  simp [busBlock, bitLevels, takeLevels, bitTaken, setLevels, modWire, onBus, hc, ht]

/-- A bit of the first seven of a byte is kept until the byte is whole. -/
theorem takeBit_early (t : Carried) (b : Bool) (s : State) (h : t.bits.length < 7) :
    takeBit t b s = modWire (carry (some { t with bits := t.bits ++ [b] })) s := by
  simp [takeBit, h]

/-- The levels of up to seven bits are kept as the bits of the byte under way. -/
theorem busBlock_bits (bits : List Bool) (t : Carried) (d : Bool) (s : State) (ht : s.wire.bus = ⟨false, d, false, some t⟩)
    (h : t.bits.length + bits.length ≤ 7) :
    busBlock (bits.flatMap bitLevels) s =
      onBus ⟨false, bits.getLastD d, false, some { t with bits := t.bits ++ bits }⟩ s := by
  induction bits generalizing t d s with
  | nil =>
    have : s.wire = { s.wire with bus := ⟨false, d, false, some t⟩ } := by rw [← ht]
    simp only [List.flatMap_nil, busBlock, List.foldl_nil, List.getLastD_nil, List.append_nil, onBus, modWire]
    rw [← this]
  | cons b rest ih =>
    simp only [List.length_cons] at h
    rw [List.flatMap_cons, busBlock_append, busBlock_bit b t s (by rw [ht]) (by rw [ht]),
      takeBit_early t b _ (by omega)]
    rw [ih { t with bits := t.bits ++ [b] } b _ rfl (by simp; omega)]
    simp only [onBus, modWire, carry, List.getLastD_cons, List.append_assoc, List.singleton_append]

/-- The eight bits of a byte, most significant first, are the byte. -/
theorem byteOf_bits (b : Byte) : byteOf ([7, 6, 5, 4, 3, 2, 1, 0].map fun k => b.getLsbD k) = b := by
  revert b
  decide +kernel

/-- The port's role in a transfer after a byte (R161): the address byte decides it. -/
def roleAfter (role : Role) (b : Byte) (s : State) : Role :=
  match role with
  | .unaddressed =>
    if addressOf b ≠ s.wire.address then .absent
    else if isRead b then .read (recordBytes s)
    else if s.wire.busy then .absent
    else .write
  | .write => .write
  | .read record => .read record
  | .absent => .absent

@[simp] theorem onBus_onBus (a b : Bus) (s : State) : onBus a (onBus b s) = onBus a s := rfl

@[simp] theorem onBus_bus (b : Bus) (s : State) : (onBus b s).wire.bus = b := rfl

@[simp] theorem roleAfter_onBus (role : Role) (b : Byte) (bus : Bus) (s : State) :
    roleAfter role b (onBus bus s) = roleAfter role b s := by
  cases role <;> rfl

/-- What a byte does does not depend on the levels of the lines, and of the bus it changes the role alone. -/
theorem takeByte_onBus (b : Byte) (c d m : Bool) (t : Carried) (s : State) :
    takeByte t.role b (onBus ⟨c, d, m, some t⟩ s) =
      onBus ⟨c, d, m, some { t with role := roleAfter t.role b s }⟩ (takeByte t.role b s) := by
  obtain ⟨role, bits⟩ := t
  cases role with
  | unaddressed =>
    have hrec : recordBytes (onBus ⟨c, d, m, some ⟨.unaddressed, bits⟩⟩ s) = recordBytes s := rfl
    simp only [takeByte, takeAddress, roleAfter, hrec]
    by_cases h1 : addressOf b = s.wire.address
    · by_cases h2 : isRead b = true
      · simp [h1, h2, onBus, modWire, setRole, carry, setTransfer]
      · by_cases h3 : s.wire.busy = true
        · have : ({ s.wire with bus := (⟨c, d, m, some ⟨.unaddressed, bits⟩⟩ : Bus) } : WirePort).busy = true := h3
          simp [h1, h2, h3, onBus, modWire, setRole, carry, this]
        · have : ({ s.wire with bus := (⟨c, d, m, some ⟨.unaddressed, bits⟩⟩ : Bus) } : WirePort).busy = false :=
            Bool.eq_false_iff.2 h3
          simp [h1, h2, h3, onBus, modWire, setRole, carry, setTransfer, WirePort.discard, this]
    · simp [h1, onBus, modWire, setRole, carry]
  | write =>
    by_cases h : s.wire.buffer.length < Config.frameLength <;>
      simp [takeByte, roleAfter, onBus, modWire, WirePort.takeByte, h]
  | read record => rfl
  | absent => rfl

/-- The levels of a byte and its ninth bit, at the start of a byte, are the byte (R160): the port takes it at its eighth
bit, and is at the start of a byte again after the ninth. -/
theorem busBlock_byte (b : Byte) (ninth d : Bool) (role : Role) (s : State)
    (hb : s.wire.bus = ⟨false, d, false, some ⟨role, []⟩⟩) :
    busBlock (byteLevels b ninth) s =
      onBus ⟨false, ninth, false, some ⟨roleAfter role b s, []⟩⟩ (takeByte role b s) := by
  have split8 : byteLevels b ninth =
      ([7, 6, 5, 4, 3, 2, 1].map fun k => b.getLsbD k).flatMap bitLevels ++
        (bitLevels (b.getLsbD 0) ++ bitLevels ninth) := rfl
  rw [split8, busBlock_append, busBlock_bits _ ⟨role, []⟩ d s hb (by simp), busBlock_append,
    busBlock_bit (b.getLsbD 0) _ _ rfl rfl]
  simp only [onBus_onBus, List.nil_append]
  have eighth : takeBit ⟨role, [7, 6, 5, 4, 3, 2, 1].map fun k => b.getLsbD k⟩ (b.getLsbD 0)
      (onBus ⟨false, b.getLsbD 0, false, some ⟨role, [7, 6, 5, 4, 3, 2, 1].map fun k => b.getLsbD k⟩⟩ s) =
      takeByte role b (onBus ⟨false, b.getLsbD 0, false,
        some ⟨role, [7, 6, 5, 4, 3, 2, 1, 0].map fun k => b.getLsbD k⟩⟩ s) := by
    have hb := byteOf_bits b
    simp only [List.map_cons, List.map_nil] at hb
    simp only [takeBit, modWire, carry, onBus, List.map_cons, List.map_nil, List.length_cons, List.length_nil,
      List.cons_append, List.nil_append, hb]
    rfl
  rw [eighth, takeByte_onBus b _ _ _ ⟨role, [7, 6, 5, 4, 3, 2, 1, 0].map fun k => b.getLsbD k⟩ s,
    busBlock_bit ninth _ _ rfl rfl]
  simp [takeBit, onBus, modWire, carry]

/-- The levels of a START, with no transfer under way, open one (R160). -/
theorem busBlock_start (s : State) (h : s.wire.bus.carried = none) :
    busBlock startLevels s =
      onBus ⟨false, false, true, some ⟨.unaddressed, []⟩⟩ (modWire (setTransfer noTransfer) s) := by
  rcases hb : s.wire.bus with ⟨c, d, m, t⟩
  rw [hb] at h
  subst h
  cases c <;> cases d <;>
    simp [busBlock, startLevels, takeLevels, bitTaken, startSign, stopSign, openTransfer, setLevels, markSign, modWire,
      onBus, carry, setTransfer, hb]

/-- The levels of a repeated START or of a START, at the start of a byte, end the transfer under way and open one (R160,
R162). -/
theorem busBlock_restart (d : Bool) (role : Role) (s : State) (hb : s.wire.bus = ⟨false, d, false, some ⟨role, []⟩⟩) :
    busBlock startLevels s =
      onBus ⟨false, false, true, some ⟨.unaddressed, []⟩⟩
        (modWire (setTransfer noTransfer) (breakTransfer ⟨role, []⟩ s)) := by
  cases role <;>
    simp [busBlock, startLevels, takeLevels, bitTaken, startSign, openTransfer, breakTransfer, setLevels, markSign, modWire,
      onBus, carry, setTransfer, WirePort.discard, hb]

/-- The levels of a STOP, at the start of a byte, close the transfer under way (R160, R163). -/
theorem busBlock_stop (d : Bool) (role : Role) (s : State) (hb : s.wire.bus = ⟨false, d, false, some ⟨role, []⟩⟩) :
    busBlock stopLevels s = closeTransfer ⟨role, []⟩ (onBus ⟨true, true, true, some ⟨role, []⟩⟩ s) := by
  simp [busBlock, stopLevels, takeLevels, stopSign, setLevels, markSign, modWire, onBus, hb]

/-- The levels of a STOP within a byte are a bus error (R160). -/
theorem busBlock_stop_within (d : Bool) (t : Carried) (s : State) (hb : s.wire.bus = ⟨false, d, false, some t⟩)
    (ht : t.bits ≠ []) :
    busBlock stopLevels s = breakTransfer t (onBus ⟨true, true, true, some t⟩ s) := by
  simp [busBlock, stopLevels, takeLevels, stopSign, setLevels, markSign, modWire, onBus, hb, ht]

/-- The bytes of a transfer whose address byte is done (R160): each is taken in its turn by the port's role. -/
theorem busBlock_bytes (bytes : List (Byte × Bool)) (role : Role) (hr : role ≠ .unaddressed) (d : Bool) (s : State)
    (hb : s.wire.bus = ⟨false, d, false, some ⟨role, []⟩⟩) :
    ∃ e, busBlock (bytes.flatMap fun b => byteLevels b.1 b.2) s =
      onBus ⟨false, e, false, some ⟨role, []⟩⟩ (bytes.foldl (fun s b => takeByte role b.1 s) s) := by
  have same : ∀ (b : Byte) (u : State), roleAfter role b u = role := by
    cases role <;> simp_all [roleAfter]
  have free : ∀ (bytes : List (Byte × Bool)) (bus : Bus) (e : Bool) (u : State),
      onBus bus (bytes.foldl (fun s b => takeByte role b.1 s) (onBus ⟨false, e, false, some ⟨role, []⟩⟩ u)) =
        onBus bus (bytes.foldl (fun s b => takeByte role b.1 s) u) := by
    intro bytes bus
    induction bytes with
    | nil => intro e u; rfl
    | cons b rest ih =>
      intro e u
      simp only [List.foldl_cons]
      rw [takeByte_onBus b.1 false e false ⟨role, []⟩ u, same]
      exact ih e _
  induction bytes generalizing d s with
  | nil =>
    refine ⟨d, ?_⟩
    have : s.wire = { s.wire with bus := ⟨false, d, false, some ⟨role, []⟩⟩ } := by rw [← hb]
    simp only [List.flatMap_nil, busBlock, List.foldl_nil, onBus, modWire]
    rw [← this]
  | cons b rest ih =>
    rw [List.flatMap_cons, busBlock_append, busBlock_byte b.1 b.2 d role s hb, same]
    obtain ⟨e, he⟩ := ih b.2 (onBus ⟨false, b.2, false, some ⟨role, []⟩⟩ (takeByte role b.1 s)) rfl
    exact ⟨e, by rw [he, free rest _ b.2]; rfl⟩

/-- The address byte names its address and its direction (R160). -/
theorem addressByte_reads (address : BitVec 7) (read : Bool) :
    addressOf (addressByte address read) = address.toNat ∧ isRead (addressByte address read) = read := by
  revert address read
  decide +kernel

/-- What the data bytes of a write leave in the port (R162): the first 24 in the buffer and acknowledged, the rest refused
and the frame marked overlong. -/
theorem takeBytes_write (bytes : List (Byte × Bool)) (s : State) (hlen : s.wire.buffer.length ≤ 24) :
    bytes.foldl (fun s b => takeByte .write b.1 s) s =
      modWire (fun w => { w with
        buffer := (w.buffer ++ bytes.map Prod.fst).take 24
        overlong := w.overlong || decide (24 < w.buffer.length + bytes.length)
        transfer := { w.transfer with
          acks := w.transfer.acks ++ (List.range bytes.length).map fun k => decide (w.buffer.length + k < 24) } }) s := by
  induction bytes generalizing s with
  | nil =>
    have h1 : s.wire.buffer.take 24 = s.wire.buffer := List.take_of_length_le hlen
    have h2 : decide (24 < s.wire.buffer.length) = false := by simp; omega
    simp [modWire, h1, h2]
  | cons b rest ih =>
    simp only [List.foldl_cons]
    by_cases h : s.wire.buffer.length < 24
    · have step : takeByte .write b.1 s = modWire (fun w => { w with
          buffer := w.buffer ++ [b.1], transfer := { w.transfer with acks := w.transfer.acks ++ [true] } }) s := by
        simp [takeByte, WirePort.takeByte, modWire, Config.frameLength, h]
      rw [step, ih _ (by simp [modWire]; omega)]
      simp only [modWire, List.length_append, List.length_cons, List.length_nil, List.map_cons, List.append_assoc,
        List.cons_append, List.nil_append, List.range_succ_eq_map, List.map_map, Function.comp_def]
      simp [h, Nat.add_assoc, Nat.add_comm 1, Nat.add_left_comm]
    · have h24 : s.wire.buffer.length = 24 := by omega
      have step : takeByte .write b.1 s = modWire (fun w => { w with
          overlong := true, transfer := { w.transfer with acks := w.transfer.acks ++ [false] } }) s := by
        simp [takeByte, WirePort.takeByte, modWire, Config.frameLength, h]
      rw [step, ih _ (by simp [modWire]; omega)]
      simp only [modWire, List.length_cons, List.map_cons, List.append_assoc, List.cons_append, List.nil_append,
        List.range_succ_eq_map, List.map_map, Function.comp_def]
      have t1 : ∀ l : List Byte, (s.wire.buffer ++ l).take 24 = s.wire.buffer := fun l => by
        rw [← h24, List.take_left]
      simp [h24, t1]

end Sys2Proof.Machine
end

