-- ==== Sys2Proof/Laws/Ops.lean ====
section
/-!
SUPPORT. Each shared operation's one lemma: what a command, an event and a line event answer, what the delivery of a
response changes, and how the statements' `Keeps` is composed.
-/

namespace Sys2Proof.Machine

/-! ## Keeping parts -/

theorem Keeps.refl (l : List Part) (s : State) : Keeps l s s := fun part _ => by cases part <;> rfl

theorem Part.same_trans {s t u : State} (part : Part) (h : part.same s t) (k : part.same t u) : part.same s u := by
  cases part <;> exact Eq.trans k h

theorem Keeps.trans {l : List Part} {s t u : State} (h : Keeps l s t) (k : Keeps l t u) : Keeps l s u :=
  fun part hp => part.same_trans (h part hp) (k part hp)

theorem Keeps.mono {l m : List Part} {s t : State} (sub : ∀ x ∈ l, x ∈ m) (h : Keeps l s t) : Keeps m s t :=
  fun part hp => h part fun hl => hp (sub part hl)

/-- To keep every part but those of a list is to keep, field by field, the parts that the list does not name. -/
theorem keeps_iff (l : List Part) (s t : State) : Keeps l s t ↔
    (.powered ∉ l → t.powered = s.powered) ∧ (.clock ∉ l → t.clock = s.clock) ∧
    (.program ∉ l → t.program = s.program) ∧ (.overrides ∉ l → t.overrides = s.overrides) ∧
    (.capture ∉ l → t.capture = s.capture) ∧ (.regulator ∉ l → t.regulator = s.regulator) ∧
    (.valves ∉ l → t.valves = s.valves) ∧ (.firing ∉ l → t.firing = s.firing) ∧ (.inputs ∉ l → t.inputs = s.inputs) ∧
    (.links ∉ l → t.links = s.links) ∧ (.notices ∉ l → t.notices = s.notices) ∧
    (.settings ∉ l → t.settings = s.settings) ∧ (.store ∉ l → t.store = s.store) ∧ (.text ∉ l → t.text = s.text) ∧
    (.wire ∉ l → t.wire = s.wire) ∧ (.handed ∉ l → t.handed = s.handed) ∧
    (.answered ∉ l → t.answered = s.answered) ∧ (.orders ∉ l → t.orders = s.orders) ∧
    (.raised ∉ l → t.raised = s.raised) ∧ (.pending ∉ l → t.pending = s.pending) := by
  constructor
  · intro h
    exact ⟨h .powered, h .clock, h .program, h .overrides, h .capture, h .regulator, h .valves, h .firing, h .inputs,
      h .links, h .notices, h .settings, h .store, h .text, h .wire, h .handed, h .answered, h .orders, h .raised,
      h .pending⟩
  · rintro ⟨h1, h2, h3, h4, h5, h6, h7, h8, h9, h10, h11, h12, h13, h14, h15, h16, h17, h18, h19, h20⟩ part
    cases part <;> assumption

/-! ## The events of a step -/

/-- A source event that the matrix takes changes the matrix alone (R147). -/
theorem takeEvent_keeps (e : SourceEvent) (s : State) : Keeps [.links] s (takeEvent e s) := by
  intro part hp
  cases part <;> first | rfl | (simp at hp)

theorem takeEvents_keeps (events : List SourceEvent) (s : State) : Keeps [.links] s (takeEvents events s) := by
  induction events generalizing s with
  | nil => exact Keeps.refl _ _
  | cons e rest ih => exact (takeEvent_keeps e s).trans (ih _)

/-- The matrix takes what was raised: it alone changes, and nothing is left to take. -/
theorem takeInTurns_keeps (turns : List Nat) (s : State) : Keeps [.links, .raised] s (takeInTurns turns s) := by
  have first : Keeps [.links, .raised] s (takeEvents (inTurns turns s.raised) s) :=
    (takeEvents_keeps _ s).mono (by simp)
  refine first.trans ?_
  intro part hp
  cases part <;> first | rfl | (simp at hp)

@[simp] theorem takeInTurns_raised (turns : List Nat) (s : State) : (takeInTurns turns s).raised = [] := rfl

@[simp] theorem inTurns_nil (events : List SourceEvent) : inTurns [] events = events := rfl

/-- The event whose turn it is has been raised. -/
theorem turnOf_mem {k : Nat} {events : List SourceEvent} {e : SourceEvent} (h : turnOf k events = some e) :
    e ∈ events := by
  simp only [turnOf, Option.bind_eq_some_iff] at h
  obtain ⟨_, _, h⟩ := h
  exact List.mem_of_find?_eq_some h

/-- No turn finds nothing unless nothing is left. -/
theorem turnOf_eq_none_iff (k : Nat) (events : List SourceEvent) : turnOf k events = none ↔ events = [] := by
  constructor
  · intro h
    cases hc : (events.drop k ++ events).head? with
    | none =>
      rw [List.head?_eq_none_iff, List.append_eq_nil_iff] at hc
      exact hc.2
    | some c =>
      have hm : c ∈ events := by
        have := List.mem_of_mem_head? (Option.mem_def.2 hc)
        rcases List.mem_append.1 this with h1 | h1
        · exact List.mem_of_mem_drop h1
        · exact h1
      simp only [turnOf, hc, Option.bind_some, List.find?_eq_none, decide_eq_true_eq] at h
      exact absurd rfl (h c hm)
  · rintro rfl
    simp [turnOf]

/-- In whatever turns the matrix takes the events of a step, it takes each of them once (R149). -/
theorem inTurns_perm (turns : List Nat) (events : List SourceEvent) : (inTurns turns events).Perm events := by
  induction turns generalizing events with
  | nil => exact List.Perm.refl _
  | cons k turns ih =>
    unfold inTurns
    split
    · next h => rw [(turnOf_eq_none_iff k events).1 h]
    · next e h => exact (List.Perm.cons e (ih _)).trans (List.perm_cons_erase (turnOf_mem h)).symm

/-- In whatever turns the matrix takes the events of a step, each block's own events stay in the order in which the block
raised them (R144, R149). -/
theorem inTurns_block (turns : List Nat) (events : List SourceEvent) (b : SourceBlock) :
    (inTurns turns events).filter (fun e => e.kind.block = b) = events.filter (fun e => e.kind.block = b) := by
  induction turns generalizing events with
  | nil => rfl
  | cons k turns ih =>
    unfold inTurns
    split
    · next h => rw [(turnOf_eq_none_iff k events).1 h]
    · next e h =>
      rw [List.filter_cons, ih]
      simp only [turnOf, Option.bind_eq_some_iff] at h
      obtain ⟨c, _, h⟩ := h
      obtain ⟨hc, before, after, rfl, hb⟩ := List.find?_eq_some_iff_append.1 h
      simp only [decide_eq_true_eq] at hc
      have hne : e ∉ before := fun he => by simpa [hc] using hb e he
      rw [List.erase_append_right _ hne, List.erase_cons_head]
      by_cases hk : e.kind.block = b
      · have hnil : before.filter (fun x => decide (x.kind.block = b)) = [] := by
          rw [List.filter_eq_nil_iff]
          intro x hx
          have := hb x hx
          simp only [Bool.not_eq_true', decide_eq_false_iff_not, ← hc, hk] at this
          simpa using this
        simp [hk, hnil]
      · simp [hk]

/-- A block's step with the matrix: what the block kept is kept, but for the matrix where the block raised events; no
event is left over. -/
theorem eventsTaken_keeps {l : List Part} {s t : State} (h : Keeps (.raised :: l) (nothingRaised s) t) :
    Keeps (.links :: l) s (eventsTaken s t) := by
  have first : Keeps (.links :: .raised :: l) s (nothingRaised s) := by
    intro part hp
    cases part <;> first | rfl | (simp at hp)
  have second : Keeps (.links :: .raised :: l) (nothingRaised s) t :=
    h.mono fun x hx => List.mem_cons_of_mem _ hx
  have third : Keeps (.links :: .raised :: l) t (takeRaised t) :=
    (takeInTurns_keeps [] t).mono fun x hx => by
      rcases List.mem_cons.1 hx with rfl | hx
      · simp
      · simp only [List.mem_singleton] at hx
        subst hx
        simp
  have all := (first.trans second).trans third
  intro part hp
  by_cases hr : part = .raised
  · subst hr; rfl
  · have := all part (by
      simp only [List.mem_cons, not_or] at hp ⊢
      exact ⟨hp.1, hr, hp.2⟩)
    cases part <;> first | exact this | exact absurd rfl hr

/-- A block that raises nothing leaves the matrix nothing to take. -/
theorem eventsTaken_of_nil {s t : State} (h : t.raised = []) : eventsTaken s t = setRaised s.raised t := by
  simp [eventsTaken, takeRaised, takeInTurns, h, takeEvents, setRaised]

/-! ## When a row acts -/

/-- A command of a part under power answers next, with its block's state, the matrix's and its response delivered. -/
theorem command_powered (c : Instr) (p : Port) (block : State → State × Response) (s : State) (h : s.powered = true) :
    command c p block s =
      .next (deliver c p (block (nothingRaised s)).2 (eventsTaken s (block (nothingRaised s)).1)) := by
  simp [command, h]

/-- Everything a command can do: it runs its block under power, and nothing without (log entry 2). -/
theorem command_eq_next_iff (c : Instr) (p : Port) (block : State → State × Response) (s t : State) :
    command c p block s = .next t ↔
      (s.powered = true ∧ t = deliver c p (block (nothingRaised s)).2 (eventsTaken s (block (nothingRaised s)).1)) ∨
        (s.powered = false ∧ t = s) := by
  cases h : s.powered <;> simp [command, h, eq_comm]

/-- An event of a part under power answers next, with its block's state and the matrix's. -/
theorem event_powered (block : State → State) (s : State) (h : s.powered = true) :
    event block s = .next (withMatrix block s) := by
  simp [event, h]

/-- Everything an event can do (log entry 2). -/
theorem event_eq_next_iff (block : State → State) (s t : State) :
    event block s = .next t ↔ (s.powered = true ∧ t = withMatrix block s) ∨ (s.powered = false ∧ t = s) := by
  cases h : s.powered <;> simp [event, h, eq_comm]

/-- An event of an input line of a part under power answers next: the level is recorded, then the block acts. -/
theorem lineEvent_powered (level block : State → State) (s : State) (h : s.powered = true) :
    lineEvent level block s = .next (withMatrix block (level s)) := by
  simp [lineEvent, h]

/-- Everything an event of an input line can do: the level is the outside world's, with or without power (log entry 2). -/
theorem lineEvent_eq_next_iff (level block : State → State) (s t : State) :
    lineEvent level block s = .next t ↔
      (s.powered = true ∧ t = withMatrix block (level s)) ∨ (s.powered = false ∧ t = level s) := by
  cases h : s.powered <;> simp [lineEvent, h, eq_comm]

/-- A row that raises nothing and whose block leaves the list of events as it found it leaves the matrix as it was. -/
theorem withMatrix_of_quiet {block : State → State} {s : State} (h : (block (nothingRaised s)).raised = []) :
    withMatrix block s = setRaised s.raised (block (nothingRaised s)) :=
  eventsTaken_of_nil h

/-- The state before any event is the step's own state, where its list of events is. -/
@[simp] theorem setRaised_nothingRaised (s : State) : setRaised s.raised (nothingRaised s) = s := rfl

/-! ## Responses -/

theorem fillPort_keeps (c : Instr) (p : Port) (r : Response) (s : State) :
    Keeps responseParts s (fillPort c p r s) := by
  intro part hp
  cases p with
  | text => cases part <;> first | rfl | (simp [responseParts] at hp)
  | wire =>
    unfold fillPort
    dsimp only
    split
    · split <;> (cases part <;> first | rfl | (simp [responseParts] at hp))
    all_goals exact Keeps.refl _ _ part hp

theorem openPort_keeps (c : Instr) (p : Port) (s : State) : Keeps responseParts s (openPort c p s) := by
  intro part hp
  unfold openPort
  cases p <;> dsimp only <;> split <;> (cases part <;> first | rfl | (simp [responseParts] at hp))

@[simp] theorem fillPort_answered (c : Instr) (p : Port) (r : Response) (s : State) :
    (fillPort c p r s).answered = s.answered := by
  cases p with
  | text => rfl
  | wire => unfold fillPort; dsimp only; split <;> [split <;> rfl; rfl; rfl]

@[simp] theorem openPort_answered (c : Instr) (p : Port) (s : State) : (openPort c p s).answered = s.answered := by
  unfold openPort
  cases p <;> dsimp only <;> split <;> rfl

/-- The delivery of a response changes the ports, the commands with their blocks and the answer, and nothing else. -/
theorem deliver_keeps (c : Instr) (p : Port) (r : Response) (s : State) : Keeps responseParts s (deliver c p r s) := by
  have first : Keeps responseParts s { s with answered := some (p, r) } := by
    intro part hp
    cases part <;> first | rfl | (simp [responseParts] at hp)
  unfold deliver
  dsimp only
  split
  · next h _ =>
    have second : Keeps responseParts s { s with answered := some (p, r), handed := s.handed.erase h } := by
      intro part hp
      cases part <;> first | rfl | (simp [responseParts] at hp)
    split
    · exact second.trans (fillPort_keeps _ _ _ _)
    · exact second
  · exact (first.trans (openPort_keeps _ _ _)).trans (fillPort_keeps _ _ _ _)

/-- The block's response is the one answered. -/
@[simp] theorem deliver_answered (c : Instr) (p : Port) (r : Response) (s : State) :
    (deliver c p r s).answered = some (p, r) := by
  unfold deliver
  dsimp only
  split
  · split <;> simp
  · simp

/-- A command that only reads: under power it answers what its view gives and changes nothing else. -/
theorem reading_powered (c : Instr) (p : Port) (view : State → Response) (s : State) (h : s.powered = true) :
    ∃ t, command c p (reading view) s = .next t ∧ Keeps responseParts s t ∧
      t.answered = some (p, view (nothingRaised s)) := by
  refine ⟨_, command_powered c p _ s h, ?_, deliver_answered _ _ _ _⟩
  rw [show (reading view (nothingRaised s)).1 = nothingRaised s from rfl, eventsTaken_of_nil rfl,
    setRaised_nothingRaised]
  exact deliver_keeps _ _ _ _

/-- A refused command: it answers its word and changes nothing else. -/
theorem refused_powered (c : Instr) (p : Port) (block : State → State × Response) (w : ErrorWord) (s : State)
    (h : s.powered = true) (hb : block (nothingRaised s) = (nothingRaised s, refuse w)) :
    ∃ t, command c p block s = .next t ∧ Keeps responseParts s t ∧ t.answered = some (p, .er w) := by
  refine ⟨_, command_powered c p _ s h, ?_, ?_⟩
  · rw [hb, show (nothingRaised s, refuse w).1 = nothingRaised s from rfl, eventsTaken_of_nil rfl,
      setRaised_nothingRaised]
    exact deliver_keeps _ _ _ _
  · rw [hb]
    exact deliver_answered _ _ _ _

/-! ## Fields as indices -/

/-- A field is an index exactly where it is that index's number. -/
theorem index_eq_some_iff (n : Nat) (v : Int) (i : Fin n) : index n v = some i ↔ v = i.val := by
  unfold index
  split
  · next h =>
    simp only [Option.some.injEq, Fin.ext_iff]
    omega
  · next h =>
    have := i.isLt
    simp only [reduceCtorEq, false_iff]
    omega

@[simp] theorem index_val (n : Nat) (i : Fin n) : index n (i.val : Int) = some i := (index_eq_some_iff n _ i).2 rfl

/-- A field out of range is no index. -/
theorem index_eq_none_iff (n : Nat) (v : Int) : index n v = none ↔ v < 0 ∨ n ≤ v := by
  unfold index
  split
  · next h => simp only [reduceCtorEq, false_iff]; omega
  · next h => simp only [true_iff]; omega

theorem within_iff (lo hi v : Int) : within lo hi v = true ↔ lo ≤ v ∧ v ≤ hi := by simp [within]

/-- A clamped value lies in its range. -/
theorem clamp_mem (lo hi v : Int) (h : lo ≤ hi) : lo ≤ clamp lo hi v ∧ clamp lo hi v ≤ hi := by
  unfold clamp
  split <;> [skip; split] <;> omega

end Sys2Proof.Machine
end

