-- ==== Sys2Proof/Laws/Controller.lean ====
section
/-!
SUPPORT. What the firing controller's operations reach: the controller itself, the hold set of the valve driver and the
source events raised; with a lockout, the notices too.
-/

namespace Sys2Proof.Machine

/-- A passage of the controller: it keeps every part but its own, the events raised and the driver's latest hold set. -/
def Reaches (s t : State) : Prop := Keeps passageParts s t ∧ OnlyHoldWritten s.valves t.valves

/-- A passage that may also post. -/
def ReachesPosting (s t : State) : Prop := Keeps (passageParts ++ [.notices]) s t ∧ OnlyHoldWritten s.valves t.valves

theorem OnlyHoldWritten.refl (v : Valves) : OnlyHoldWritten v v := ⟨rfl, rfl, rfl⟩

theorem OnlyHoldWritten.trans {u v w : Valves} (h : OnlyHoldWritten u v) (k : OnlyHoldWritten v w) :
    OnlyHoldWritten u w :=
  ⟨k.1.trans h.1, k.2.1.trans h.2.1, k.2.2.trans h.2.2⟩

theorem Reaches.refl (s : State) : Reaches s s := ⟨Keeps.refl _ _, OnlyHoldWritten.refl _⟩

theorem Reaches.trans {s t u : State} (h : Reaches s t) (k : Reaches t u) : Reaches s u :=
  ⟨h.1.trans k.1, h.2.trans k.2⟩

theorem ReachesPosting.trans {s t u : State} (h : ReachesPosting s t) (k : ReachesPosting t u) : ReachesPosting s u :=
  ⟨h.1.trans k.1, h.2.trans k.2⟩

theorem Reaches.posting {s t : State} (h : Reaches s t) : ReachesPosting s t :=
  ⟨h.1.mono fun _ hx => List.mem_append_left _ hx, h.2⟩

/-- A passage composed with one that starts where it ends. -/
theorem Reaches.andThen {s t : State} {f : State → State} (h : Reaches s t) (k : ∀ u, Reaches u (f u)) :
    Reaches s (f t) :=
  h.trans (k t)

theorem modFiring_reaches (f : Firing → Firing) (s : State) : Reaches s (modFiring f s) := by
  refine ⟨?_, OnlyHoldWritten.refl _⟩
  intro part hp
  cases part <;> first | rfl | (simp [passageParts] at hp)

theorem raiseFor_reaches (k : SourceKind) (i : Fin 16) (s : State) : Reaches s (raiseFor k i s) := by
  refine ⟨?_, OnlyHoldWritten.refl _⟩
  intro part hp
  cases part <;> first | rfl | (simp [passageParts] at hp)

theorem raise_reaches (k : SourceKind) (s : State) : Reaches s (raise k s) := raiseFor_reaches k 0 s

theorem writeHold_reaches (h : ChannelSet) (s : State) : Reaches s (writeHold h s) := by
  refine ⟨?_, rfl, rfl, rfl⟩
  intro part hp
  cases part <;> first | rfl | (simp [passageParts] at hp)

theorem postBoth_reaches (n : Notice) (s : State) : ReachesPosting s (postBoth n s) := by
  refine ⟨?_, OnlyHoldWritten.refl _⟩
  intro part hp
  cases part <;> first | rfl | (simp [passageParts] at hp)

theorem post_reaches (p : Port) (n : Notice) (s : State) : ReachesPosting s (post p n s) := by
  refine ⟨?_, OnlyHoldWritten.refl _⟩
  intro part hp
  cases part <;> first | rfl | (simp [passageParts] at hp)

/-! ## Lines, hold set and targets -/

theorem setBurner_reaches (on : Bool) (s : State) : Reaches s (setBurner on s) := by
  unfold setBurner
  split
  · exact Reaches.refl _
  · exact (modFiring_reaches _ _).andThen (raise_reaches _)

theorem setPump_reaches (on : Bool) (s : State) : Reaches s (setPump on s) := by
  unfold setPump
  split
  · exact Reaches.refl _
  · exact (modFiring_reaches _ _).andThen (raise_reaches _)

theorem setDiverter_reaches (s : State) : Reaches s (setDiverter s) := by
  unfold setDiverter
  dsimp only
  split
  · exact Reaches.refl _
  · exact modFiring_reaches _ _

theorem fixHold_reaches (s : State) : Reaches s (fixHold s) :=
  (modFiring_reaches _ _).andThen (writeHold_reaches _)

theorem releaseHold_reaches (s : State) : Reaches s (releaseHold s) :=
  ((modFiring_reaches _ _).andThen (writeHold_reaches _)).andThen setDiverter_reaches

theorem releaseAnyHold_reaches (s : State) : Reaches s (releaseAnyHold s) := by
  unfold releaseAnyHold
  split
  · exact releaseHold_reaches s
  · exact Reaches.refl _

theorem formFlow_reaches (s : State) : Reaches s (formFlow s) := by
  unfold formFlow
  split
  · split
    · exact Reaches.refl _
    · exact modFiring_reaches _ _
  · exact Reaches.refl _

theorem formHeating_reaches (s : State) : Reaches s (formHeating s) := by
  unfold formHeating
  split
  · exact (modFiring_reaches _ _).andThen formFlow_reaches
  · exact Reaches.refl _

/-! ## The states -/

theorem enterFiring_reaches (s : State) : Reaches s (enterFiring s) :=
  ((((setPump_reaches _ _).andThen (setBurner_reaches _)).trans (modFiring_reaches _ _)).andThen
    formHeating_reaches).andThen releaseAnyHold_reaches

theorem enterQuiet_reaches (state : FiringState) (s : State) : Reaches s (enterQuiet state s) := modFiring_reaches _ _

theorem select_reaches (s : State) : Reaches s (select s) := by
  unfold select
  split
  · exact enterFiring_reaches s
  · exact enterQuiet_reaches _ s

theorem selectQuiet_reaches (s : State) : Reaches s (selectQuiet s) := by
  unfold selectQuiet
  split <;> first | exact select_reaches s | exact Reaches.refl s

theorem leaveFiring_reaches (s : State) : Reaches s (leaveFiring s) :=
  (setBurner_reaches _ _).trans (modFiring_reaches _ _)

theorem endOverrun_reaches (s : State) : Reaches s (endOverrun s) := by
  unfold endOverrun
  split
  · exact enterFiring_reaches s
  · exact (((setPump_reaches _ _).andThen releaseHold_reaches).andThen (enterQuiet_reaches _)).andThen
      selectQuiet_reaches

theorem startOverrun_reaches (s : State) : Reaches s (startOverrun s) := by
  unfold startOverrun
  dsimp only
  split
  · exact modFiring_reaches _ _
  · exact (modFiring_reaches _ _).andThen fixHold_reaches

theorem enterOverrun_reaches (s : State) : Reaches s (enterOverrun s) := by
  unfold enterOverrun
  split
  · exact (startOverrun_reaches s).andThen endOverrun_reaches
  · exact startOverrun_reaches s

/-- What an event that can change the call, the path or the permission can reach (R122, R126, R128). -/
theorem settle_reaches (s : State) : Reaches s (settle s) := by
  unfold settle
  split
  · exact select_reaches s
  · exact select_reaches s
  · exact select_reaches s
  · split
    · exact enterFiring_reaches s
    · exact Reaches.refl s
  · split
    · exact (leaveFiring_reaches s).andThen enterOverrun_reaches
    · exact Reaches.refl s
  · exact Reaches.refl s

/-! ## What other blocks hand on -/

theorem takeDemand_reaches (stood : Option Int) (d : Demand) (s : State) : Reaches s (takeDemand stood d s) :=
  ((modFiring_reaches _ _).andThen formHeating_reaches).andThen settle_reaches

theorem takeReport_reaches (r : PathReport) (s : State) : Reaches s (takeReport r s) :=
  ((modFiring_reaches _ _).andThen formHeating_reaches).andThen settle_reaches

theorem startCall_reaches (s : State) : Reaches s (startCall s) :=
  (((raise_reaches _ _).trans (modFiring_reaches _ _)).andThen setDiverter_reaches).andThen formFlow_reaches

theorem endCall_reaches (s : State) : Reaches s (endCall s) :=
  (((raise_reaches _ _).trans (modFiring_reaches _ _)).andThen setDiverter_reaches).andThen formFlow_reaches

theorem deriveCall_reaches (s : State) : Reaches s (deriveCall s) := by
  unfold deriveCall
  split
  · exact (startCall_reaches s).andThen settle_reaches
  · split
    · exact (endCall_reaches s).andThen settle_reaches
    · exact Reaches.refl s

theorem setTimedCall_reaches (n : Nat) (s : State) : Reaches s (setTimedCall n s) :=
  (modFiring_reaches _ _).andThen deriveCall_reaches

theorem endPriority_reaches (s : State) : Reaches s (endPriority s) :=
  (modFiring_reaches _ _).andThen formFlow_reaches

theorem takeSchedule_reaches (on : Bool) (s : State) : Reaches s (takeSchedule on s) := by
  unfold takeSchedule
  split
  · exact Reaches.refl s
  · exact (modFiring_reaches _ _).andThen deriveCall_reaches

/-! ## Lockout -/

theorem holdForLockout_reaches (s : State) : Reaches s (holdForLockout s) := by
  unfold holdForLockout
  split
  · exact fixHold_reaches s
  · exact releaseAnyHold_reaches s

theorem enterLockout_reaches (reason : LockoutReason) (s : State) : ReachesPosting s (enterLockout reason s) := by
  have first : Reaches s (if s.firing.state = .firing then leaveFiring s else s) := by
    split
    · exact leaveFiring_reaches s
    · exact Reaches.refl s
  unfold enterLockout
  exact (((((first.trans (modFiring_reaches _ _)).andThen (setPump_reaches _)).andThen
    holdForLockout_reaches).andThen (raise_reaches _)).posting).trans (postBoth_reaches _ _)

/-- What a cause of lockout can reach (R132 to R135). -/
theorem lockOut_reaches (reason : LockoutReason) (s : State) : ReachesPosting s (lockOut reason s) := by
  unfold lockOut
  split
  · split
    · exact (Reaches.refl s).posting
    · split
      · exact (Reaches.refl s).posting
      · exact (modFiring_reaches _ s).posting.trans (postBoth_reaches _ _)
  · exact enterLockout_reaches reason s

theorem testHighLimit_reaches (s : State) : ReachesPosting s (testHighLimit s) := by
  unfold testHighLimit
  split
  · exact lockOut_reaches _ s
  · exact (Reaches.refl s).posting

theorem lockoutPublication_reaches (s : State) : Reaches s (lockoutPublication s) := by
  unfold lockoutPublication
  dsimp only
  split
  · exact ((modFiring_reaches _ s).andThen (setPump_reaches _)).andThen releaseHold_reaches
  · exact modFiring_reaches _ s

/-- What a publication can reach beyond the capture unit (R73, R132, R135). -/
theorem takePublication_reaches (s : State) : ReachesPosting s (takePublication s) := by
  unfold takePublication
  dsimp only
  split
  · exact ((modFiring_reaches _ s).posting.trans (testHighLimit_reaches _)).trans
      (lockoutPublication_reaches _).posting
  · split
    · exact (modFiring_reaches _ s).posting.trans (lockOut_reaches _ _)
    · exact ((modFiring_reaches _ s).andThen settle_reaches).posting

end Sys2Proof.Machine
end

