-- ==== Sys2Proof/Laws/PerInstr.lean ====
section
/-!
SUPPORT. For every row of the table: the code and the fields that spell a command of the catalogue (R155) build that
command again, on the port that carries it.
-/

namespace Sys2Proof.Laws

open Sys2Proof.Machine

/-- The spelling of a well-formed command, if it has one, has a code of the catalogue and builds the command. -/
def Spelling.Statement (i : Instr) : Prop :=
  WellFormed i = true → ∀ p code fields, spelling i = some (p, code, fields) →
    code ∈ codes ∧ build p code fields = some i

/-- A row that is no command of the catalogue has no spelling. -/
theorem Spelling.of_none {i : Instr} (h : spelling i = none) : Spelling.Statement i := by
  intro _ p code fields hs
  rw [h] at hs
  cases hs

/-- A command whose code and fields are known builds itself when they do. -/
theorem Spelling.of_some {i : Instr} {q : Port} {c : Nat} {fs : List Int} (h : spelling i = some (q, c, fs))
    (hc : c ∈ codes) (hb : build q c fs = some i) : Spelling.Statement i := by
  intro _ p code fields hs
  rw [h] at hs
  cases hs
  exact ⟨hc, hb⟩

theorem Spelling.powerUp : Spelling.Statement .powerUp := Spelling.of_none rfl

theorem Spelling.externalReset : Spelling.Statement .externalReset := Spelling.of_none rfl

theorem Spelling.powerLoss : Spelling.Statement .powerLoss := Spelling.of_none rfl

theorem Spelling.textCharacter (c : Byte) (framingError : Bool) :
    Spelling.Statement (.textCharacter c framingError) := Spelling.of_none rfl

theorem Spelling.textResponseSend : Spelling.Statement .textResponseSend := Spelling.of_none rfl

theorem Spelling.textResponseSent : Spelling.Statement .textResponseSent := Spelling.of_none rfl

theorem Spelling.writeTransfer (body sign : List Levels) :
    Spelling.Statement (.writeTransfer body sign) := Spelling.of_none rfl

theorem Spelling.readTransfer (body sign : List Levels) :
    Spelling.Statement (.readTransfer body sign) := Spelling.of_none rfl

theorem Spelling.repeatedStart (body sign : List Levels) :
    Spelling.Statement (.repeatedStart body sign) := Spelling.of_none rfl

theorem Spelling.busError (body sign : List Levels) :
    Spelling.Statement (.busError body sign) := Spelling.of_none rfl

theorem Spelling.ident (p : Port) : Spelling.Statement (.ident p) := Spelling.of_some rfl (by decide) rfl

theorem Spelling.status (p : Port) : Spelling.Statement (.status p) := Spelling.of_some rfl (by decide) rfl

theorem Spelling.zoneGet (p : Port) (zone : Int) : Spelling.Statement (.zoneGet p zone) :=
  Spelling.of_some rfl (by decide) rfl

theorem Spelling.clockSet (p : Port) (day minute second : Int) : Spelling.Statement (.clockSet p day minute second) :=
  Spelling.of_some rfl (by decide) rfl

theorem Spelling.clockGet (p : Port) : Spelling.Statement (.clockGet p) := Spelling.of_some rfl (by decide) rfl

theorem Spelling.secondBoundary : Spelling.Statement .secondBoundary := Spelling.of_none rfl

theorem Spelling.pointAdd (p : Port) (bank list days start target : Int) (revision : Option Int) :
    Spelling.Statement (.pointAdd p bank list days start target revision) := by
  cases revision <;> exact Spelling.of_some rfl (by decide) rfl

theorem Spelling.pointDel (p : Port) (bank list days start : Int) (revision : Option Int) :
    Spelling.Statement (.pointDel p bank list days start revision) := by
  cases revision <;> exact Spelling.of_some rfl (by decide) rfl

theorem Spelling.listClear (p : Port) (bank list : Int) (revision : Option Int) :
    Spelling.Statement (.listClear p bank list revision) := by
  cases revision <;> exact Spelling.of_some rfl (by decide) rfl

theorem Spelling.pointGet (p : Port) (bank list index : Int) : Spelling.Statement (.pointGet p bank list index) :=
  Spelling.of_some rfl (by decide) rfl

theorem Spelling.bankGet (p : Port) (bank : Int) : Spelling.Statement (.bankGet p bank) :=
  Spelling.of_some rfl (by decide) rfl

theorem Spelling.bankCopy (p : Port) (source destination : Int) (revision : Option Int) :
    Spelling.Statement (.bankCopy p source destination revision) := by
  cases revision <;> exact Spelling.of_some rfl (by decide) rfl

theorem Spelling.bankSelect (p : Port) (bank : Int) : Spelling.Statement (.bankSelect p bank) :=
  Spelling.of_some rfl (by decide) rfl

theorem Spelling.bankTimed (p : Port) (bank days endMinute : Int) :
    Spelling.Statement (.bankTimed p bank days endMinute) := Spelling.of_some rfl (by decide) rfl

theorem Spelling.bankCancel (p : Port) : Spelling.Statement (.bankCancel p) := Spelling.of_some rfl (by decide) rfl

theorem Spelling.bankSave (p : Port) (bank : Int) : Spelling.Statement (.bankSave p bank) :=
  Spelling.of_some rfl (by decide) rfl

theorem Spelling.bankLoad (p : Port) (bank : Int) : Spelling.Statement (.bankLoad p bank) :=
  Spelling.of_some rfl (by decide) rfl

theorem Spelling.ovrSet (p : Port) (zone setpoint kind : Int) (endDay endMinute : Option Int) :
    Spelling.Statement (.ovrSet p zone setpoint kind endDay endMinute) := by
  cases endDay with
  | none =>
    cases endMinute with
    | none => exact Spelling.of_some rfl (by decide) rfl
    | some m =>
      intro hw
      simp [WellFormed, trailingOk] at hw
  | some d => cases endMinute <;> exact Spelling.of_some rfl (by decide) rfl

theorem Spelling.ovrHold (p : Port) (zone : Int) (setpoint : Option Int) :
    Spelling.Statement (.ovrHold p zone setpoint) := by
  cases setpoint <;> exact Spelling.of_some rfl (by decide) rfl

theorem Spelling.ovrRelease (p : Port) (zone : Int) : Spelling.Statement (.ovrRelease p zone) :=
  Spelling.of_some rfl (by decide) rfl

theorem Spelling.ovrList (p : Port) (position : Option Int) : Spelling.Statement (.ovrList p position) := by
  cases position <;> exact Spelling.of_some rfl (by decide) rfl

theorem Spelling.tempReport (p : Port) (zone value : Int) : Spelling.Statement (.tempReport p zone value) :=
  Spelling.of_some rfl (by decide) rfl

theorem Spelling.captureGet (p : Port) (channel : Int) : Spelling.Statement (.captureGet p channel) :=
  Spelling.of_some rfl (by decide) rfl

theorem Spelling.rawInputChange (ch : Fin 18) (level : Bool) (elapsed : Nat) :
    Spelling.Statement (.rawInputChange ch level elapsed) := Spelling.of_none rfl

theorem Spelling.acceptedEdge (ch : Fin 18) (elapsed : Nat) : Spelling.Statement (.acceptedEdge ch elapsed) :=
  Spelling.of_none rfl

theorem Spelling.timeout (ch : Fin 18) : Spelling.Statement (.timeout ch) := Spelling.of_none rfl

theorem Spelling.captureSecond : Spelling.Statement .captureSecond := Spelling.of_none rfl

theorem Spelling.windowExpiry : Spelling.Statement .windowExpiry := Spelling.of_none rfl

theorem Spelling.regGet (p : Port) (zone : Int) : Spelling.Statement (.regGet p zone) :=
  Spelling.of_some rfl (by decide) rfl

theorem Spelling.pass : Spelling.Statement .pass := Spelling.of_none rfl

theorem Spelling.valveClear (p : Port) (channel : Int) : Spelling.Statement (.valveClear p channel) :=
  Spelling.of_some rfl (by decide) rfl

theorem Spelling.valveGet (p : Port) (channel : Int) : Spelling.Statement (.valveGet p channel) :=
  Spelling.of_some rfl (by decide) rfl

theorem Spelling.valveUpdate : Spelling.Statement .valveUpdate := Spelling.of_none rfl

theorem Spelling.confirmTimeout (ch : Fin 16) : Spelling.Statement (.confirmTimeout ch) := Spelling.of_none rfl

theorem Spelling.endSwitchEdge (ch : Fin 16) (closed : Bool) : Spelling.Statement (.endSwitchEdge ch closed) :=
  Spelling.of_none rfl

theorem Spelling.cycleStart (ch : Fin 16) : Spelling.Statement (.cycleStart ch) := Spelling.of_none rfl

theorem Spelling.driveLineOff (ch : Fin 16) : Spelling.Statement (.driveLineOff ch) := Spelling.of_none rfl

theorem Spelling.inhibit (p : Port) (value : Int) : Spelling.Statement (.inhibit p value) :=
  Spelling.of_some rfl (by decide) rfl

theorem Spelling.lockoutClear (p : Port) : Spelling.Statement (.lockoutClear p) :=
  Spelling.of_some rfl (by decide) rfl

theorem Spelling.dhwBoost (p : Port) (minutes : Int) : Spelling.Statement (.dhwBoost p minutes) :=
  Spelling.of_some rfl (by decide) rfl

theorem Spelling.flameEdge (asserted : Bool) : Spelling.Statement (.flameEdge asserted) := Spelling.of_none rfl

theorem Spelling.boilerFaultEdge (asserted : Bool) : Spelling.Statement (.boilerFaultEdge asserted) :=
  Spelling.of_none rfl

theorem Spelling.interlockEdge (closed : Bool) : Spelling.Statement (.interlockEdge closed) := Spelling.of_none rfl

theorem Spelling.hotWaterRequestEdge (asserted : Bool) : Spelling.Statement (.hotWaterRequestEdge asserted) :=
  Spelling.of_none rfl

theorem Spelling.minOnExpiry : Spelling.Statement .minOnExpiry := Spelling.of_none rfl

theorem Spelling.minOffExpiry : Spelling.Statement .minOffExpiry := Spelling.of_none rfl

theorem Spelling.overrunExpiry : Spelling.Statement .overrunExpiry := Spelling.of_none rfl

theorem Spelling.pathWaitExpiry : Spelling.Statement .pathWaitExpiry := Spelling.of_none rfl

theorem Spelling.flameWaitExpiry : Spelling.Statement .flameWaitExpiry := Spelling.of_none rfl

theorem Spelling.faultPersistenceExpiry : Spelling.Statement .faultPersistenceExpiry := Spelling.of_none rfl

theorem Spelling.timedCallExpiry : Spelling.Statement .timedCallExpiry := Spelling.of_none rfl

theorem Spelling.priorityExpiry : Spelling.Statement .priorityExpiry := Spelling.of_none rfl

theorem Spelling.diverterOpen : Spelling.Statement .diverterOpen := Spelling.of_none rfl

theorem Spelling.lineSet (p : Port) (lines : Int) : Spelling.Statement (.lineSet p lines) :=
  Spelling.of_some rfl (by decide) rfl

theorem Spelling.lineClear (p : Port) (lines : Int) : Spelling.Statement (.lineClear p lines) :=
  Spelling.of_some rfl (by decide) rfl

theorem Spelling.lineToggle (p : Port) (lines : Int) : Spelling.Statement (.lineToggle p lines) :=
  Spelling.of_some rfl (by decide) rfl

theorem Spelling.lineGet (p : Port) : Spelling.Statement (.lineGet p) := Spelling.of_some rfl (by decide) rfl

theorem Spelling.linkGet (p : Port) (channel : Int) : Spelling.Statement (.linkGet p channel) :=
  Spelling.of_some rfl (by decide) rfl

theorem Spelling.noticeRead (p : Port) : Spelling.Statement (.noticeRead p) := Spelling.of_some rfl (by decide) rfl

theorem Spelling.noticeMask (p : Port) (mask : Int) : Spelling.Statement (.noticeMask p mask) :=
  Spelling.of_some rfl (by decide) rfl

theorem Spelling.paramSet (p : Port) (group index field value : Int) :
    Spelling.Statement (.paramSet p group index field value) := Spelling.of_some rfl (by decide) rfl

theorem Spelling.paramGet (p : Port) (group index field : Int) : Spelling.Statement (.paramGet p group index field) :=
  Spelling.of_some rfl (by decide) rfl

theorem Spelling.configSave (p : Port) : Spelling.Statement (.configSave p) := Spelling.of_some rfl (by decide) rfl

theorem Spelling.saveCompletion (good : Bool) : Spelling.Statement (.saveCompletion good) := Spelling.of_none rfl

theorem Spelling.softReset (p : Port) : Spelling.Statement (.softReset p) := Spelling.of_some rfl (by decide) rfl

end Sys2Proof.Laws
end

