-- ==== Sys2Proof/Laws/Sets.lean ====
section
/-!
SUPPORT. The sets that travel as masks (R1), read one member at a time, and the members of a set in a chosen order.
-/

namespace Sys2Proof.Machine

variable {n : Nat}

@[simp] theorem getLsbD_single (i k : Nat) (h : i < n) : (single n i).getLsbD k = decide (k = i) := by
  unfold single
  rw [BitVec.getLsbD_ofNat, Nat.testBit_two_pow]
  by_cases hk : k = i
  · subst hk; simp [h]
  · simp [hk, Ne.symm hk]

@[simp] theorem getLsbD_setOf (p : Fin n → Bool) (i : Fin n) : (setOf p).getLsbD i.val = p i := by
  simp [setOf]

/-- A set is determined by its members. -/
theorem set_ext {s t : BitVec n} (h : ∀ i : Fin n, s.getLsbD i.val = t.getLsbD i.val) : s = t :=
  BitVec.eq_of_getLsbD_eq fun i hi => h ⟨i, hi⟩

/-- A set that has a member is not empty, and one without members is. -/
theorem set_ne_zero_iff (s : BitVec n) : s ≠ 0 ↔ ∃ i : Fin n, s.getLsbD i.val = true := by
  constructor
  · intro h
    by_contra hn
    apply h
    apply set_ext
    intro i
    cases hb : s.getLsbD i.val with
    | false => simp
    | true => exact absurd ⟨i, hb⟩ hn
  · rintro ⟨i, hi⟩ rfl
    simp at hi

@[simp] theorem mem_members (s : BitVec n) (i : Fin n) : i ∈ members s ↔ s.getLsbD i.val = true := by
  simp [members]

/-- A set's members stand in the chosen order once each (log entry 4). -/
@[simp] theorem mem_arranged (first : List (Fin 16)) (s : ZoneSet) (i : Fin 16) :
    i ∈ arranged first s ↔ s.getLsbD i.val = true := by
  simp only [arranged, List.mem_append, List.mem_filter, List.mem_dedup, mem_members]
  by_cases h : i ∈ first <;> simp [h]

theorem nodup_arranged (first : List (Fin 16)) (s : ZoneSet) : (arranged first s).Nodup := by
  unfold arranged
  rw [List.nodup_append']
  refine ⟨(List.nodup_dedup _).filter _, ((List.nodup_finRange 16).filter _).filter _, ?_⟩
  intro i h1 h2
  simp only [List.mem_filter, List.mem_dedup] at h1 h2
  simp [h1.1] at h2

/-- A port's attention line is asserted while a pending kind is in its mask (R174). -/
theorem attention_iff (r : PortNotices) :
    r.attention = true ↔ ∃ k : Fin 16, r.kinds.getLsbD k.val = true ∧ r.mask.getLsbD k.val = true := by
  have h := set_ne_zero_iff (r.kinds &&& r.mask)
  simpa [PortNotices.attention] using h

end Sys2Proof.Machine
end

