-- ==== Sys2Proof/Laws/Table.lean ====
section
/-!
SUPPORT. What is read back from a family of records after each of its writes, and that two families with the same
records are one.
-/

namespace Sys2Proof.Machine

variable {n : Nat} {α : Type}

@[simp] theorem Tab.get_ofFn (f : Fin n → α) (i : Fin n) : (Tab.ofFn f).get i = f i := by
  simp [Tab.get, Tab.ofFn]

@[simp] theorem Tab.get_all (v : α) (i : Fin n) : (Tab.all v : Tab n α).get i = v := by
  simp [Tab.all]

theorem Tab.get_set (t : Tab n α) (i j : Fin n) (v : α) : (t.set i v).get j = if j = i then v else t.get j := by
  simp only [Tab.get, Tab.set, List.getElem_set, Fin.ext_iff, eq_comm (a := i.val)]

@[simp] theorem Tab.get_set_self (t : Tab n α) (i : Fin n) (v : α) : (t.set i v).get i = v := by
  simp [Tab.get_set]

@[simp] theorem Tab.get_set_ne (t : Tab n α) {i j : Fin n} (v : α) (h : j ≠ i) : (t.set i v).get j = t.get j := by
  simp [Tab.get_set, h]

theorem Tab.get_modify (t : Tab n α) (i j : Fin n) (f : α → α) :
    (t.modify i f).get j = if j = i then f (t.get j) else t.get j := by
  rw [Tab.modify, Tab.get_set]
  split
  · next h => rw [h]
  · rfl

@[simp] theorem Tab.get_modify_self (t : Tab n α) (i : Fin n) (f : α → α) : (t.modify i f).get i = f (t.get i) := by
  simp [Tab.get_modify]

@[simp] theorem Tab.get_modify_ne (t : Tab n α) {i j : Fin n} (f : α → α) (h : j ≠ i) :
    (t.modify i f).get j = t.get j := by
  simp [Tab.get_modify, h]

/-- Two families with the same records are equal. -/
theorem Tab.ext_get {s t : Tab n α} (h : ∀ i, s.get i = t.get i) : s = t := by
  obtain ⟨l, hl⟩ := s
  obtain ⟨m, hm⟩ := t
  have key : l = m := by
    apply List.ext_getElem (by rw [hl, hm])
    intro i h1 h2
    exact h ⟨i, by omega⟩
  subst key
  rfl

/-- A family is the list of its records. -/
theorem Tab.list_eq (t : Tab n α) : t.list = (List.finRange n).map t.get := by
  apply List.ext_getElem
  · simp [t.size]
  · intro i h1 h2
    simp [Tab.get]

/-- A list of a family is replaced at one place. -/
@[simp] theorem Tab.list_set (t : Tab n α) (i : Fin n) (v : α) : (t.set i v).list = t.list.set i.val v := rfl

end Sys2Proof.Machine
end

