-- ==== Sys2Proof/Tests/Slice0.lean ====
section
/-!
SUPPORT. The model's own tests: ill-formed terms that WellFormed refuses; one step or two of every row, with what the
spec's tables and worked sequences say of it; and for every statement with hypotheses a state and operands that meet them.
-/

namespace Sys2Proof.Tests

-- one theorem at a time: a hundred at once would each ask for a thread with the compiler's large stack
set_option Elab.async false

open Sys2Proof Sys2Proof.Machine

/-! ## Small states -/

/-- One choice of every order that the manual leaves open. -/
def someOrder : Order := ⟨.controllerFirst, [], [], false, 16, 0, true⟩

/-- The state after reset, with the order of its next steps named. -/
def start : State := { State.reset with orders := ⟨[someOrder, someOrder], 0⟩ }

/-- The state after a row. -/
def after (i : Instr) (s : State) : State :=
  match exec i s with
  | .next t => t
  | .fault _ => s
  | .refused _ => s

/-- The clock VALID at a time. -/
def at_ (day minute second : Nat) (s : State) : State := { s with clock := ⟨true, day, minute, second, some .wire, some 0⟩ }

/-- One list of a bank. -/
def withList (b : Fin 4) (l : Fin 17) (points : List SwitchPoint) (s : State) : State :=
  putBank b { s.program.banks.get b with lists := (s.program.banks.get b).lists.set l points } s

/-- A bank's revision. -/
def withRevision (b : Fin 4) (r : Nat) (s : State) : State := putBank b { s.program.banks.get b with revision := r } s

/-- The slots of the override table, top first. -/
def withSlots (slots : List Slot) (s : State) : State := { s with overrides := { s.overrides with slots := slots } }

/-- A zone enabled, with an effective setpoint. -/
def heated (z : Fin 16) (setpoint : Int) (s : State) : State :=
  { s with
    settings := s.settings.modZone z fun c => { c with enabled := true }
    overrides := { s.overrides with effective := s.overrides.effective.set z (some setpoint) } }

/-- A zone's published temperature. -/
def measured (z : Fin 16) (t : Int) (s : State) : State :=
  { s with capture := { s.capture with publication := { s.capture.publication with
      zones := s.capture.publication.zones.set z ⟨some t, .valid, .channel⟩ } } }

/-- One valve channel's settings. -/
def valveSet (v : Fin 16) (c : ValveSettings) (s : State) : State :=
  { s with settings := s.settings.modValve v fun _ => c }

/-- FIRING with the interlock closed, a path through V4 and zone 4 calling. -/
def fired (s : State) : State :=
  { s with
    inputs := { s.inputs with interlock := true }
    valves := { s.valves with
      channels := s.valves.channels.modify 4 fun v =>
        { v with state := .opened, position := 60000, outputDuty := 53, demandDuty := 53, running := true,
                 appliedDuty := 53, drive := true }
      demand := ⟨Tab.ofFn fun z => if z = 4 then 3434 else 0, 16⟩
      report := ⟨16, 16⟩ }
    firing := { s.firing with
      state := .firing, burner := true, pump := true, minOff := none, minOn := some 20, heating := some 3200,
      ceiling := some 3200, flowTarget := some 3200, code := 2809,
      demand := ⟨Tab.ofFn fun z => if z = 4 then 3434 else 0, 16⟩, report := ⟨16, 16⟩, flow := some 4500,
      flowStatus := .valid } }

/-- The controller's record changed. -/
def controller (f : Firing → Firing) (s : State) : State := { s with firing := f s.firing }

/-- LOCKOUT with a record and the flow temperature. -/
def lockedOut (l : Lockout) (flow : Int) (s : State) : State :=
  controller (fun f => { f with state := .lockout, lockout := some l, flow := some flow, flowStatus := .valid,
                                minOff := some 10 }) s

/-- The hot-water settings changed. -/
def hotWater (f : HotWaterSettings → HotWaterSettings) (s : State) : State :=
  { s with settings := s.settings.modHotWater f }

/-- The text port with the characters of a line in its buffer. -/
def typed (line : List Char) (s : State) : State :=
  { s with text := { s.text with buffer := line.map fun c => BitVec.ofNat 8 c.toNat } }

/-- The bytes of a transfer, each acknowledged by whoever receives it. -/
def taken (bytes : List Byte) : List (Byte × Bool) := bytes.map fun b => (b, false)

/-- A port's pending kinds and OVERRIDE_CHANGED set. -/
def pendingAt (p : Port) (kinds : KindSet) (zones : ZoneSet) (s : State) : State :=
  { s with notices := s.notices.put p { s.notices.of p with kinds := kinds, overrideChanged := zones } }

/-! ## WellFormed refuses -/

/-- An end minute without an end day has no place on a port (R155). -/
theorem test_wellFormed_refuses_minute_without_day : WellFormed (.ovrSet .text 3 2300 1 none (some 1320)) = false := by
  decide

/-- A text field has nine digits at most (R157). -/
theorem test_wellFormed_refuses_ten_digits : WellFormed (.zoneGet .text 1000000000) = false := by decide

theorem test_wellFormed_refuses_ten_digits_below : WellFormed (.zoneGet .text (-1000000000)) = false := by decide

/-- A signed two-wire parameter lies in −32,768 to 32,767, an unsigned one in 0 to 65,535 (R165). -/
theorem test_wellFormed_refuses_signed_word_above : WellFormed (.tempReport .wire 4 32768) = false := by decide

theorem test_wellFormed_refuses_signed_word_below : WellFormed (.tempReport .wire 4 (-32769)) = false := by decide

theorem test_wellFormed_refuses_unsigned_word_above : WellFormed (.noticeMask .wire 65536) = false := by decide

theorem test_wellFormed_refuses_unsigned_word_below : WellFormed (.listClear .wire 1 5 (some (-1))) = false := by decide

/-! ## Power and the ports -/

/-- R181, step 2: a stored configuration that fails gives the factory defaults, and CONFIG_LOST to both ports. -/
theorem test_powerUp_without_configuration :
    let t := after .powerUp { start with store := { start.store with config := ⟨factorySettings, false⟩ } }
    t.settings = factorySettings ∧ t.notices.text.kinds = 0x2000 ∧ t.notices.wire.kinds = 0x2000 := by decide +kernel

/-- R181, step 3: a bank that fails loads empty with revision 0 and dirty SET, and is named in BANK_LOST. -/
theorem test_powerUp_without_bank :
    let t := after .powerUp { start with store := { start.store with banks := start.store.banks.set 1 ⟨emptyLists, false⟩ } }
    (t.program.banks.get 1).dirty = true ∧ t.notices.wire.kinds = 0x4000 ∧ t.notices.wire.bankLost = 2 := by
  decide +kernel

/-- Stored settings, worked sequence: the saved band comes back, the integral time written after the save does not. -/
theorem test_externalReset_loads_saved_band :
    let saved := factorySettings.modZone 3 fun c => { c with band := 150 }
    let t := after .externalReset { start with
      store := { start.store with config := ⟨saved, true⟩ }
      settings := saved.modZone 3 fun c => { c with integralTime := 45 } }
    (t.settings.zones.get 3).band = 150 ∧ (t.settings.zones.get 3).integralTime = 30 := by decide +kernel

/-- R179: power that goes during a save leaves its object corrupt. -/
theorem test_powerLoss_during_save :
    let t := after .powerLoss { start with store := { start.store with operation := some ⟨.bank 1 emptyLists, .text⟩ } }
    t.powered = false ∧ (t.store.banks.get 1).good = false ∧ (t.store.banks.get 2).good = true ∧
      t.store.operation = none := by decide +kernel

/-- Command ports, a burst of text lines: the first line is judged a command whatever its case. -/
theorem test_textCharacter_completes_clock_get :
    let t := after (.textCharacter 13 false) (typed ['c', 'l', 'o', 'c', 'k', ' ', 'g', 'e', 't'] start)
    t.text.places = [.waiting (.clockGet .text)] ∧ t.handed = [⟨.clockGet .text, true⟩] ∧ t.text.buffer = [] := by
  decide +kernel

/-- Command ports, a burst of text lines: ZONE GET 4 x fails check 4. -/
theorem test_textCharacter_completes_malformed_line :
    (after (.textCharacter 13 false)
      (typed ['Z', 'O', 'N', 'E', ' ', 'G', 'E', 'T', ' ', '4', ' ', 'x'] start)).text.places =
        [.ready (.er .badForm)] := by decide +kernel

/-- R158: the response of CLOCK GET at 08:00:13 on Wednesday goes out as fifteen characters with CR and LF. -/
theorem test_textResponseSend_spells_response :
    let t := after .textResponseSend { start with text := { start.text with places :=
      [.ready (.ok [.word 1, .word 2, .word 480, .word 13, .word 1]), .waiting (.regGet .text 4)] } }
    t.text.transmitting = (['O', 'K', ' ', '1', ' ', '2', ' ', '4', '8', '0', ' ', '1', '3', ' ', '1', '\r', '\n'].map
      fun c => BitVec.ofNat 8 c.toNat) := by decide +kernel

/-- R159: the place of a response that has been sent is free. -/
theorem test_textResponseSent_frees_place :
    (after .textResponseSent { start with text := { start.text with places :=
      [.sending (.er .range), .ready (.er .badForm)] } }).text.places = [.ready (.er .badForm)] := by decide +kernel

/-- Command ports, a two-wire override: the frame of seven bytes is in progress. -/
theorem test_writeTransfer_takes_override_frame :
    let t := after (.writeTransfer
      (transferLevels 0x2C false false (taken [0x30, 0x05, 0x00, 0x6C, 0x07, 0x00, 0x00])) stopLevels) start
    t.wire.record = .inProgress 0x30 (.ovrSet .wire 5 1900 0 none none) := by decide +kernel

/-- Command ports, a two-wire override: a stray byte after the third parameter is refused LENGTH. -/
theorem test_writeTransfer_refuses_stray_byte :
    (after (.writeTransfer (transferLevels 0x2C false false
      (taken [0x30, 0x05, 0x00, 0x6C, 0x07, 0x00, 0x00, 0x00])) stopLevels) start).wire.record =
        .judged 0x30 (.er .length) := by decide +kernel

/-- Command ports, a two-wire override: a read of eight bytes after the table has answered. -/
theorem test_readTransfer_returns_record :
    (after (.readTransfer (transferLevels 0x2C true false (taken (List.replicate 8 0))) stopLevels)
      { start with wire := { start.wire with
      record := .judged 0x30 (.ok [.word 1900, .word 16]) } }).wire.transfer.bytes =
        [0x00, 0x30, 0x6C, 0x07, 0x10, 0x00, 0xFF, 0xFF] := by decide +kernel

/-- Command ports, a two-wire override: a read of four bytes taken while in progress. -/
theorem test_readTransfer_in_progress :
    (after (.readTransfer (transferLevels 0x2C true false (taken (List.replicate 4 0))) stopLevels)
      { start with wire := { start.wire with
      record := .inProgress 0x30 (.ovrSet .wire 5 1900 0 none none) } }).wire.transfer.bytes =
        [0xFE, 0x30, 0xFF, 0xFF] := by decide +kernel

/-- Command ports, a two-wire override: a write that ends at a repeated START is discarded. -/
theorem test_repeatedStart_discards :
    let t := after (.repeatedStart
      (transferLevels 0x2C false false (taken [0x30, 0x05, 0x00, 0x6C, 0x07, 0x00, 0x00])) startLevels) start
    t.wire.record = .statusRecord ∧ t.wire.buffer = [] ∧ t.handed = [] := by decide +kernel

/-- R163: a bus error executes nothing. -/
theorem test_busError_executes_nothing :
    let t := after (.busError (transferLevels 0x2C false false (taken [0x93]) ++ bitLevels true) stopLevels) start
    t.wire.record = .statusRecord ∧ t.handed = [] := by decide +kernel

/-- R160, level by level: a START (data falls while the clock is high), the bits 0101100 of the address 0x2C and the
direction 0, most significant bit first, and the clock pulse of the acknowledge. -/
theorem test_bus_takes_address_bits :
    let t := after (.writeTransfer [⟨true, false⟩, ⟨false, false⟩, ⟨true, false⟩, ⟨false, false⟩, ⟨false, true⟩,
      ⟨true, true⟩, ⟨false, true⟩, ⟨false, false⟩, ⟨true, false⟩, ⟨false, false⟩, ⟨false, true⟩, ⟨true, true⟩,
      ⟨false, true⟩, ⟨true, true⟩, ⟨false, true⟩, ⟨false, false⟩, ⟨true, false⟩, ⟨false, false⟩, ⟨true, false⟩,
      ⟨false, false⟩, ⟨true, false⟩, ⟨false, false⟩, ⟨true, false⟩, ⟨false, false⟩] []) start
    t.wire.bus = ⟨false, false, false, some ⟨.write, []⟩⟩ ∧ t.wire.transfer = ⟨true, [], []⟩ := by decide +kernel

/-- R171: a write transfer whose START came before a SOFT RESET is discarded by it, and its STOP executes nothing. -/
theorem test_softReset_discards_open_transfer :
    let s := after (.writeTransfer (transferLevels 0x2C false false (taken [0x02])) []) start
    let t := after (.writeTransfer (byteLevels 0 false) stopLevels) (after (.softReset .text) s)
    s.wire.buffer = [0x02] ∧ t.wire.record = .statusRecord ∧ t.handed = [] ∧ t.wire.buffer = [] := by decide +kernel

/-- R169, on the two-wire port. -/
theorem test_ident_on_wire :
    (after (.ident .wire) start).answered = some (.wire, .ok ([75, 16, 1, 16, 18, 16, 4, 256, 8, 8, 8, 2, 44, 44].map
      Field.word)) := by decide +kernel

/-- R167, in FIRING: position 12 is 3, the two lines after it are on, and the flow target is at positions 33 to 35. -/
theorem test_status_in_firing :
    (after (.status .text) (at_ 2 480 13 (fired start))).answered = some (.text, .ok ([1, 2, 480, 13, 2, 0, 0, 0, 0, 0,
      0, 3, 1, 1, 0, 1, 0, 0, 0, 0, 0, 0, 0, 0, 0, 0, 0, 0, 0, 0, 0, 0, 1, 3200, 2809].map Field.word)) := by
  decide +kernel

/-- R168: a zone with an UNTIL slot, its list's base setpoint and its temperature. -/
theorem test_zoneGet_shows_slot :
    (after (.zoneGet .text 3) (withSlots [⟨3, some 2300, .untilTime ⟨0, 1320⟩ 240, .text, some ⟨0, 1080⟩⟩]
      (measured 3 1940 (heated 3 2300 (at_ 0 1080 0 start))))).answered =
      some (.text, .ok ([1, 1, 1940, 1, 2000, 1, 2300, 1, 0, 1320, 240, 1, 2300, 0, 0, 0, 0, 0].map Field.word)) := by
  decide +kernel

/-! ## The week clock -/

/-- Week clock, a forward set across midnight. -/
theorem test_clockSet_forward :
    let t := after (.clockSet .text 2 5 0) (at_ 1 1439 21 start)
    t.clock = ⟨true, 2, 5, 0, some .text, some 0⟩ ∧ t.notices.wire.kinds = 1 ∧ t.notices.text.kinds = 0 := by
  decide +kernel

/-- Overrides, an UNTIL slot across two clock sets: the backward jump of 1160 minutes leaves 1380 remaining. -/
theorem test_clockSet_moves_until_slot :
    (after (.clockSet .wire 6 1380 0) (withSlots [⟨3, some 2300, .untilTime ⟨0, 1320⟩ 220, .text, none⟩]
      (at_ 0 1100 0 start))).overrides.slots = [⟨3, some 2300, .untilTime ⟨0, 1320⟩ 1380, .text, none⟩] := by
  decide +kernel

/-- Week clock, a first set: before it CLOCK GET returns five zeros. -/
theorem test_clockGet_invalid :
    (after (.clockGet .text) start).answered = some (.text, .ok ([0, 0, 0, 0, 0].map Field.word)) := by decide +kernel

/-- Week clock, a backward set: the fifth minute boundary is a midnight. -/
theorem test_secondBoundary_midnight :
    (after .secondBoundary (at_ 2 1439 59 start)).clock = ⟨true, 3, 0, 0, some .wire, some 0⟩ := by decide +kernel

/-- Schedule programs, a timed program across a clock set: the return at minute 1080, with BANK_CHANGED to both ports. -/
theorem test_secondBoundary_returns_timed_program :
    let s := at_ 6 1079 59 start
    let t := after .secondBoundary { s with program := { s.program with active := 2, timed := some ⟨2, 0, 0, 1080⟩ } }
    t.program.active = 0 ∧ t.program.timed = none ∧ t.notices.text.kinds = 2 ∧ t.notices.wire.kinds = 2 := by
  decide +kernel

/-! ## The program store -/

/-- The list of the worked sequence on evaluating a zone list. -/
def listThree : List SwitchPoint :=
  [⟨0x1F, 390, .temp 2100⟩, ⟨0x1F, 480, .temp 1700⟩, ⟨0x60, 480, .temp 2100⟩, ⟨0x10, 1020, .off⟩,
   ⟨0x7F, 1320, .temp 1600⟩]

/-- Schedule programs, evaluating a zone list: Monday 05:00 finds Sunday's last point. -/
theorem test_evaluate_searches_back : evaluate listThree 0 300 = some ⟨⟨0x7F, 1320, .temp 1600⟩, 6⟩ := by decide

/-- Schedule programs, evaluating a zone list: a single point found at step 7, a week before. -/
theorem test_evaluate_finds_last_week : evaluate [⟨4, 600, .temp 1900⟩] 2 540 = some ⟨⟨4, 600, .temp 1900⟩, 2⟩ := by
  decide

/-- Schedule programs, two masters: the first command at revision 41 is accepted. -/
theorem test_pointAdd_at_revision :
    let t := after (.pointAdd .wire 1 5 31 420 2000 (some 41)) (withRevision 1 41 start)
    (t.program.banks.get 1).lists.get 5 = [⟨31, 420, .temp 2000⟩] ∧ t.notices.text.kinds = 4 ∧
      t.answered = some (.wire, .ok [.word 42, .word 0]) := by decide +kernel

/-- Schedule programs, evaluating a zone list: position 1 comes before position 2 by its lowest day. -/
theorem test_pointAdd_orders_by_lowest_day :
    (after (.pointAdd .text 0 3 31 480 1700 none) (withList 0 3 [⟨0x60, 480, .temp 2100⟩] start)).answered =
      some (.text, .ok [.word 1, .word 0]) := by decide +kernel

/-- Schedule programs, two masters: the second command at revision 41 is stale. -/
theorem test_pointDel_stale :
    (after (.pointDel .text 1 5 96 540 (some 41)) (withRevision 1 42 start)).answered = some (.text, .er .stale) := by
  decide +kernel

/-- R25: exactly the named point goes. -/
theorem test_pointDel_removes_point :
    ((after (.pointDel .text 0 3 31 480 none) (withList 0 3 listThree start)).program.banks.get 0).lists.get 3 =
      listThree.eraseIdx 1 := by decide +kernel

/-- R26: the response carries the revision and the number of points removed. -/
theorem test_listClear_counts :
    (after (.listClear .wire 0 3 none) (withList 0 3 listThree start)).answered =
      some (.wire, .ok [.word 1, .word 5]) := by decide +kernel

/-- R27, on position 3 of the worked list: Friday 17:00, OFF. -/
theorem test_pointGet_returns_point :
    (after (.pointGet .text 0 3 3) (withList 0 3 listThree start)).answered =
      some (.text, .ok [.word 16, .word 1020, .word 0, .word 5, .word 0]) := by decide +kernel

theorem test_pointGet_beyond_count :
    (after (.pointGet .text 0 3 5) (withList 0 3 listThree start)).answered = some (.text, .er .notFound) := by
  decide +kernel

/-- R27. -/
theorem test_bankGet_counts_pool :
    (after (.bankGet .text 0) (withList 0 3 listThree start)).answered =
      some (.text, .ok [.word 0, .word 0, .word 5, .word 0, .word 1]) := by decide +kernel

/-- Schedule programs, editing during a save: BANK COPY 0 1 is refused BUSY. -/
theorem test_bankCopy_busy :
    (after (.bankCopy .wire 0 1 none) { start with store := { start.store with
      operation := some ⟨.bank 1 emptyLists, .text⟩ } }).answered = some (.wire, .er .busy) := by decide +kernel

/-- R28: the copy is an accepted change of the destination. -/
theorem test_bankCopy_copies :
    let t := after (.bankCopy .wire 0 1 none) (withList 0 3 listThree start)
    (t.program.banks.get 1).lists.get 3 = listThree ∧ (t.program.banks.get 1).revision = 1 ∧
      (t.program.banks.get 1).dirty = true := by decide +kernel

/-- R29, R30: the other port is told and a NEXT override ends. -/
theorem test_bankSelect_ends_next :
    let t := after (.bankSelect .text 2) (withSlots [⟨5, some 1900, .next, .wire, none⟩] start)
    t.program.active = 2 ∧ t.overrides.slots = [] ∧ t.notices.wire.kinds = 0x12 ∧ t.notices.wire.overrideEnded = 32 ∧
      t.answered = some (.text, .ok [.word 2]) := by decide +kernel

/-- Schedule programs, a timed program: Thursday 15:20, two days, end 1080. -/
theorem test_bankTimed_records :
    let t := after (.bankTimed .text 2 2 1080) (at_ 3 920 0 start)
    t.program.active = 2 ∧ t.program.timed = some ⟨2, 0, 2, 1080⟩ ∧ t.notices.wire.kinds = 2 := by decide +kernel

theorem test_bankTimed_clock_invalid :
    (after (.bankTimed .text 2 2 1080) start).answered = some (.text, .er .clock) := by decide +kernel

/-- R33. -/
theorem test_bankCancel_returns :
    let t := after (.bankCancel .wire)
      { start with program := { start.program with active := 2, timed := some ⟨2, 0, 2, 1080⟩ } }
    t.program.active = 0 ∧ t.program.timed = none ∧ t.answered = some (.wire, .ok [.word 0]) := by decide +kernel

/-- Schedule programs, editing during a save: the snapshot is taken and dirty becomes CLEAR. -/
theorem test_bankSave_takes_snapshot :
    let t := after (.bankSave .text 1) (putBank 1 ⟨emptyLists.set 3 listThree, 43, true⟩ start)
    (t.program.banks.get 1).dirty = false ∧ (t.program.banks.get 1).revision = 43 ∧
      t.store.operation = some ⟨.bank 1 (emptyLists.set 3 listThree), .text⟩ := by decide +kernel

/-- Schedule programs, editing during a save: BANK LOAD 1 is refused CORRUPT after a loss. -/
theorem test_bankLoad_corrupt :
    (after (.bankLoad .text 1) { start with store := { start.store with
      banks := start.store.banks.set 1 ⟨emptyLists, false⟩ } }).answered = some (.text, .er .corrupt) := by
  decide +kernel

/-- R36. -/
theorem test_bankLoad_replaces :
    let t := after (.bankLoad .text 1) (putBank 1 ⟨emptyLists.set 3 listThree, 65535, true⟩ start)
    t.program.banks.get 1 = ⟨emptyLists, 0, false⟩ ∧ t.answered = some (.text, .ok [.word 0]) := by decide +kernel

/-! ## The override table -/

/-- The table of the worked sequence on filling the table, top first. -/
def sevenSlots : List Slot :=
  [⟨4, some 2200, .next, .text, none⟩, ⟨9, none, .hold, .wire, none⟩,
   ⟨1, some 1900, .untilTime ⟨2, 0⟩ 300, .wire, none⟩, ⟨12, some 2000, .next, .wire, none⟩,
   ⟨6, some 1500, .hold, .text, none⟩, ⟨2, some 2400, .next, .text, none⟩, ⟨15, some 1000, .hold, .text, none⟩]

/-- Filling the table: OVR SET 7 2155 2 stores 2160 at the top and evicts nothing. -/
theorem test_ovrSet_fills_table :
    let t := after (.ovrSet .wire 7 2155 2 none none) (withSlots sevenSlots (at_ 1 1140 0 start))
    t.overrides.slots = ⟨7, some 2160, .hold, .wire, some ⟨1, 1140⟩⟩ :: sevenSlots ∧
      t.answered = some (.wire, .ok [.word 2160, .word 16]) := by decide +kernel

/-- Filling the table: OVR SET 11 2000 0 evicts zone 2, the lowest slot that is no HOLD. -/
theorem test_ovrSet_evicts :
    let t := after (.ovrSet .text 11 2000 0 none none)
      (withSlots (⟨7, some 2160, .hold, .wire, none⟩ :: sevenSlots) (at_ 1 1140 0 start))
    t.overrides.slots.map Slot.zone = [11, 7, 4, 9, 1, 12, 6, 15] ∧ t.notices.text.overrideChanged = 4 ∧
      t.answered = some (.text, .ok [.word 2000, .word 2]) := by decide +kernel

/-- Resolution through a switch crossing: the HOLD copies the scheduled OFF. -/
theorem test_ovrHold_copies_schedule :
    let s := at_ 3 1320 0 start
    (after (.ovrHold .wire 5 none) { s with program := { s.program with
      remembered := s.program.remembered.set 5 (some ⟨⟨0x7F, 1320, .off⟩, 3⟩) } }).overrides.slots =
        [⟨5, none, .hold, .wire, some ⟨3, 1320⟩⟩] := by decide +kernel

/-- R46: the zone's own setpoint is held where none is given. -/
theorem test_ovrHold_keeps_setpoint :
    (after (.ovrHold .text 4 none) (withSlots sevenSlots start)).answered =
      some (.text, .ok [.word 2200, .word 16]) := by decide +kernel

/-- Filling the table: the release tells the text port, whose set already holds zone 2. -/
theorem test_ovrRelease_merges_notice :
    let t := after (.ovrRelease .wire 4) (pendingAt .text 8 4 (withSlots sevenSlots start))
    t.overrides.slots = sevenSlots.tail ∧ t.notices.text.overrideChanged = 20 ∧
      t.answered = some (.wire, .ok [.word 1]) := by decide +kernel

/-- R49. -/
theorem test_ovrList_lists_zones :
    (after (.ovrList .text none) (withSlots sevenSlots start)).answered =
      some (.text, .ok ([7, 4, 9, 1, 12, 6, 2, 15].map Field.word)) := by decide +kernel

theorem test_ovrList_shows_slot :
    (after (.ovrList .text (some 2)) (withSlots sevenSlots start)).answered =
      some (.text, .ok ([1, 1900, 1, 2, 0, 300, 2, 0, 0, 0].map Field.word)) := by decide +kernel

/-! ## The capture unit -/

/-- A channel in TIMING with a window. -/
def timing (c : Fin 18) (timer sum count rejects : Nat) (s : State) : State :=
  modChannel c (fun x => { x with raw := true, timing := true, timer := timer, sum := sum, count := count,
                                  rejects := rejects }) s

/-- A remote report going stale: the report of zone 9 is answered 1 in REMOTE_PREFERRED. -/
theorem test_tempReport_is_used :
    let t := after (.tempReport .text 9 2050)
      { start with settings := start.settings.modZone 9 fun c => { c with mode := .remotePreferred } }
    t.capture.reports.get 9 = some ⟨2050, 0⟩ ∧ t.answered = some (.text, .ok [.word 1]) := by decide +kernel

/-- R67: a value above 12500 is refused. -/
theorem test_tempReport_out_of_range :
    (after (.tempReport .text 9 12501) start).answered = some (.text, .er .range) := by decide +kernel

/-- R74, after the first expiry of the worked sequence. -/
theorem test_captureGet_shows_window :
    (after (.captureGet .text 4) (modChannel 4 (fun x => { x with
      status := .valid, last := some 1985, timing := true, lastCount := 4, lastRejects := 1 }) start)).answered =
      some (.text, .ok ([1, 1, 1985, 1, 0, 4, 1, 0, 8, 0].map Field.word)) := by decide +kernel

/-- R59: with a filter of 0 the filtered level follows at once, and the rising edge starts TIMING. -/
theorem test_rawInputChange_unfiltered :
    let s := { start with settings := start.settings.modCapture 4 fun c => { c with filter := 0 } }
    let t := after (.rawInputChange 4 true 0) s
    (t.capture.channels.get 4).filtered = true ∧ (t.capture.channels.get 4).timing = true := by decide +kernel

/-- R59: with the filter of 8 µs the filtered level waits. -/
theorem test_rawInputChange_filtered :
    let t := after (.rawInputChange 4 true 0) start
    (t.capture.channels.get 4).raw = true ∧ (t.capture.channels.get 4).filtered = false := by decide +kernel

/-- From periods to a zone temperature: 10,798 is counted. -/
theorem test_acceptedEdge_counts_period :
    let c := (after (.acceptedEdge 4 8) (timing 4 10790 0 0 0 start)).capture.channels.get 4
    c.sum = 10798 ∧ c.count = 1 ∧ c.rejects = 0 ∧ c.timer = 0 ∧ c.timing = true := by decide +kernel

/-- From periods to a zone temperature: 21,600 is a reject. -/
theorem test_acceptedEdge_rejects_period :
    let c := (after (.acceptedEdge 4 8) (timing 4 21592 21598 2 0 start)).capture.channels.get 4
    c.sum = 21598 ∧ c.count = 2 ∧ c.rejects = 1 := by decide +kernel

/-- R59: a raw change that has held for 7 µs of the filter's 8 is no change of the filtered level yet. -/
theorem test_acceptedEdge_waits_for_filter :
    let c := (after (.acceptedEdge 4 7) (timing 4 10790 0 0 0 start)).capture.channels.get 4
    c.filtered = false ∧ c.held = 7 ∧ c.count = 0 ∧ c.timer = 10797 := by decide +kernel

/-- R61: a timeout yields no period. -/
theorem test_timeout_idles :
    let c := (after (.timeout 4) (timing 4 65535 21598 2 1 start)).capture.channels.get 4
    c.timing = false ∧ c.sum = 21598 ∧ c.count = 2 ∧ c.rejects = 1 := by decide +kernel

/-- R68: an age rises with each capture second and stays at 65,535. -/
theorem test_captureSecond_ages :
    let t := after .captureSecond { start with capture := { start.capture with
      reports := (start.capture.reports.set 9 (some ⟨2050, 3⟩)).set 2 (some ⟨1900, 65535⟩) } }
    t.capture.reports.get 9 = some ⟨2050, 4⟩ ∧ t.capture.reports.get 2 = some ⟨1900, 65535⟩ := by decide +kernel

/-- From periods to a zone temperature: the window of four periods gives 1985. -/
theorem test_windowExpiry_computes_temperature :
    let calibrated := start.settings.modCapture 4 fun c => { c with offset := -13 }
    let enabled := calibrated.modZone 4 fun c => { c with enabled := true }
    let t := after .windowExpiry (timing 4 0 43196 4 1 { start with settings := enabled })
    (t.capture.channels.get 4).last = some 1985 ∧ t.capture.publication.zones.get 4 = ⟨some 1985, .valid, .channel⟩ ∧
      (t.capture.channels.get 4).lastRejects = 1 ∧ (t.capture.channels.get 4).count = 0 := by decide +kernel

/-- A sensor lost and found, expiry n + 3: SENSOR_LOST and one ZONE_SENSOR for zone 4. -/
theorem test_windowExpiry_loses_sensor :
    let s := modChannel 4 (fun x => { x with status := .held, last := some 1985, run := 2 })
      { start with settings := start.settings.modZone 4 fun c => { c with enabled := true } }
    let t := after .windowExpiry s
    (t.capture.channels.get 4).status = .noSignal ∧ (t.capture.channels.get 4).last = none ∧
      t.notices.text.kinds = 32 ∧ t.notices.wire.zoneSensor = 16 ∧ t.capture.lost = 16 := by decide +kernel

/-! ## The zone regulator -/

/-- A regulator record with an integral. -/
def withIntegral (z : Fin 16) (i : Int) (s : State) : State :=
  { s with regulator := { s.regulator with zones := s.regulator.zones.modify z fun r => { r with integral := i } } }

/-- R95. -/
theorem test_regGet_counts_to_pass :
    (after (.regGet .wire 15) (withIntegral 15 256000 { start with regulator := { start.regulator with
      timer := 59 } })).answered = some (.wire, .ok [.word 0, .word 0, .word 0, .word 0, .word 0, .wide 0, .wide 0,
        .wide 256000, .word 0, .word 0, .word 0, .word 0, .word 0, .word 0, .word 1]) := by decide +kernel

/-- From captured periods to duty. -/
theorem test_pass_regulates :
    let t := after .pass (withIntegral 4 256000 (measured 4 1985 (heated 4 2100 start)))
    (t.regulator.zones.get 4).lastError = 115 ∧ (t.regulator.zones.get 4).lastP = 2355 ∧
      (t.regulator.zones.get 4).integral = 276098 ∧ (t.regulator.zones.get 4).delivered = 3434 ∧
      (t.valves.channels.get 4).outputDuty = 53 := by decide +kernel

/-- A cold start without wind-up, pass 1: conditional integration keeps the integral at 0. -/
theorem test_pass_holds_integral :
    let t := after .pass (measured 12 500 (heated 12 2100 start))
    (t.regulator.zones.get 12).lastIncrement = 279620 ∧ (t.regulator.zones.get 12).integral = 0 ∧
      (t.regulator.zones.get 12).demand = 4096 ∧ (t.regulator.zones.get 12).frost = false := by decide +kernel

/-- Ties and limits. -/
theorem test_divRound_ties :
    divRound 128128 256 = 500 ∧ divRound 128384 256 = 502 ∧ divRound (2048 * 63) 4096 = 32 ∧ divRound (-5) 2 = -2 ∧
      divRound (-7) 2 = -4 ∧ roundTen 2105 = 2100 ∧ roundTen 2115 = 2120 := by decide

/-! ## The valve driver -/

/-- A channel with a switch, as V7 of the worked sequence. -/
def switched : ValveSettings := ⟨some 7, 0, 63, 120, 240, .switch⟩

/-- One valve channel's state. -/
def channel (v : Fin 16) (f : ValveChannel → ValveChannel) (s : State) : State := modValve v f s

/-- V7 driven at 40 with its confirm timer at a count. -/
def confirmingAt (n : Nat) (s : State) : State :=
  channel 7 (fun v => { v with demandDuty := 40, outputDuty := 40, running := true, drive := true, appliedDuty := 40,
                               position := 60000, state := .opening, confirmTimer := some n })
    (valveSet 7 switched s)

/-- A valve that fails to confirm: VALVE CLEAR drives the channel again. -/
theorem test_valveClear_drives_again :
    let t := after (.valveClear .wire 7)
      (channel 7 (fun v => { v with demandDuty := 40, state := .fault }) (valveSet 7 switched start))
    (t.valves.channels.get 7).state = .opening ∧ (t.valves.channels.get 7).outputDuty = 40 ∧
      (t.valves.channels.get 7).drive = true ∧ (t.valves.channels.get 7).position = 0 ∧
      t.answered = some (.wire, .ok [.word 1]) := by decide +kernel

/-- R112. -/
theorem test_valveGet_shows_channel :
    (after (.valveGet .text 7) (confirmingAt 5 start)).answered =
      some (.text, .ok ([7, 1, 40, 40, 40, 0, 1, 0, 60000, 0, 5, 0, 0, 63, 120, 240, 1].map Field.word)) := by
  decide +kernel

/-- One zone through a call, t = 179.5: the 180th update takes h to 60,000 and the channel to OPEN. -/
theorem test_valveUpdate_opens :
    let t := after .valveUpdate (channel 4 (fun v => { v with
      demandDuty := 10, outputDuty := 10, running := true, appliedDuty := 10, position := 59786, state := .opening })
        start)
    (t.valves.channels.get 4).position = 60000 ∧ (t.valves.channels.get 4).state = .opened ∧
      t.valves.report.path = 16 := by decide +kernel

/-- A valve that fails to confirm, t = 239.5: the update that takes the confirm timer to 120 faults the channel. -/
theorem test_valveUpdate_faults :
    let t := after .valveUpdate (confirmingAt 119 start)
    (t.valves.channels.get 7).state = .fault ∧ (t.valves.channels.get 7).outputDuty = 0 ∧
      t.notices.text.valveFault = 128 ∧ t.notices.wire.kinds = 128 := by decide +kernel

/-- R106: the confirm timeout itself. -/
theorem test_confirmTimeout_faults :
    (after (.confirmTimeout 7) (confirmingAt 119 start)).valves.channels.get 7 =
      { (confirmingAt 119 start).valves.channels.get 7 with
        state := .fault, outputDuty := 0, running := false, drive := false, appliedDuty := 0, position := 0,
        confirmTimer := none } := by decide +kernel

/-- A valve that fails to confirm, t = 350: the closing edge opens the channel at once. -/
theorem test_endSwitchEdge_confirms :
    let t := after (.endSwitchEdge 7 true) (channel 7 (fun v => { v with position := 20000, confirmTimer := none })
      (confirmingAt 0 start))
    (t.valves.channels.get 7).state = .opened ∧ (t.valves.channels.get 7).position = 60000 ∧
      t.valves.report.path = 128 := by decide +kernel

/-- R108: an OPEN channel whose switch opens faults. -/
theorem test_endSwitchEdge_faults :
    ((after (.endSwitchEdge 7 false) (channel 7 (fun v => { v with
      state := .opened, endSwitch := true, confirmTimer := none }) (confirmingAt 0 start))).valves.channels.get 7).state =
        .fault := by decide +kernel

/-- One zone through a call, t = 63: cycle 2 takes the duty of 30. -/
theorem test_cycleStart_takes_duty :
    let t := after (.cycleStart 4) (channel 4 (fun v => { v with
      outputDuty := 30, running := true, appliedDuty := 53, cycleTime := 63, drive := false }) start)
    (t.valves.channels.get 4).appliedDuty = 30 ∧ (t.valves.channels.get 4).cycleTime = 0 ∧
      (t.valves.channels.get 4).drive = true := by decide +kernel

/-- One zone through a call, t = 53: the line goes OFF at cycle time 53. -/
theorem test_driveLineOff_at_duty :
    let t := after (.driveLineOff 4) (channel 4 (fun v => { v with
      outputDuty := 53, running := true, appliedDuty := 53, cycleTime := 52, drive := true }) start)
    (t.valves.channels.get 4).cycleTime = 53 ∧ (t.valves.channels.get 4).drive = false := by decide +kernel

/-- R103: at an applied duty of 63 the line stays ON. -/
theorem test_driveLineOff_at_full_duty :
    ((after (.driveLineOff 4) (channel 4 (fun v => { v with
      outputDuty := 63, running := true, appliedDuty := 63, cycleTime := 62, drive := true })
        start)).valves.channels.get 4).drive = true := by decide +kernel

/-! ## The firing controller -/

/-- R120, R126: a flag that becomes SET ends FIRING at once. -/
theorem test_inhibit_ends_firing :
    let t := after (.inhibit .wire 1) (fired start)
    t.firing.state = .overrun ∧ t.firing.burner = false ∧ t.firing.pump = true ∧ t.valves.latestHold = 16 ∧
      t.answered = some (.wire, .ok [.word 0, .word 1]) := by decide +kernel

theorem test_inhibit_out_of_range : (after (.inhibit .wire 2) start).answered = some (.wire, .er .range) := by
  decide +kernel

/-- Lockout with a second reason: BOILER_FAULT is unresolved while the input is asserted. -/
theorem test_lockoutClear_not_ready :
    (after (.lockoutClear .text) (lockedOut ⟨true, true, none, some 8610⟩ 7480
      { start with inputs := { start.inputs with fault := true } })).answered = some (.text, .er .notReady) := by
  decide +kernel

/-- Lockout with a second reason: at 7200 with the input deasserted the zones call with a path and min-off runs. -/
theorem test_lockoutClear_blocks :
    let t := after (.lockoutClear .text) (lockedOut ⟨true, true, none, some 8610⟩ 7200 (controller (fun f =>
      { f with pump := false, burner := false }) (fired start)))
    t.firing.state = .blocked ∧ t.firing.lockout = none ∧ t.notices.wire.kinds = 256 ∧ t.notices.text.kinds = 0 ∧
      t.answered = some (.text, .ok [.word 1]) := by decide +kernel

/-- R138, at the largest number of minutes. -/
theorem test_dhwBoost_times_call :
    let t := after (.dhwBoost .text 120) (hotWater (fun c => { c with mode := .gate }) start)
    t.firing.timedCall = some 7200 ∧ t.firing.call = true ∧ t.firing.diverter = true := by decide +kernel

theorem test_dhwBoost_mode_off : (after (.dhwBoost .text 120) start).answered = some (.text, .er .notReady) := by
  decide +kernel

/-- R125. -/
theorem test_flameEdge_stops_wait :
    (after (.flameEdge true) (controller (fun f => { f with flameWait := some 30 }) (fired start))).firing.flameWait =
      none := by decide +kernel

/-- R133. -/
theorem test_boilerFaultEdge_starts_timer : (after (.boilerFaultEdge true) start).firing.faultTimer = some 0 := by
  decide +kernel

/-- R119, R126: the interlock opens in FIRING, and the min-off timer starts from its setting. -/
theorem test_interlockEdge_ends_firing :
    let t := after (.interlockEdge false) (fired start)
    t.firing.state = .overrun ∧ t.firing.minOff = some 300 ∧ t.firing.overrun = some 180 ∧ t.firing.flowTarget = none ∧
      t.firing.code = 0 := by decide +kernel

/-- A hot-water call with priority, t = 0: the flow target is 6500 and the code 10,532. -/
theorem test_hotWaterRequestEdge_takes_priority :
    let t := after (.hotWaterRequestEdge true) (hotWater (fun c => { c with mode := .follow }) (fired start))
    t.firing.call = true ∧ t.firing.priority = some 0 ∧ t.firing.flowTarget = some 6500 ∧ t.firing.code = 10532 ∧
      t.firing.diverter = true := by decide +kernel

/-- R137: a mode of PULSE times its call. -/
theorem test_hotWaterRequestEdge_pulse :
    (after (.hotWaterRequestEdge true) (hotWater (fun c => { c with mode := .pulse }) start)).firing.timedCall =
      some 1800 := by decide +kernel

/-- R126: with no call, the min-on expiry ends FIRING. -/
theorem test_minOnExpiry_ends_firing :
    let t := after .minOnExpiry (controller (fun f => { f with minOn := some 0, demand := ⟨Tab.all 0, 0⟩ }) (fired start))
    t.firing.state = .overrun ∧ t.firing.minOn = none ∧ t.firing.burner = false := by decide +kernel

/-- R126: the min-on timer expires with the heating call present, as in one zone from waiting to overrun at t = 299.5. -/
theorem test_minOnExpiry_keeps_firing :
    (after .minOnExpiry (controller (fun f => { f with minOn := some 0 }) (fired start))).firing.state = .firing := by
  decide +kernel

/-- One zone from waiting to overrun, t = 179.5, reached from BLOCKED: ceiling and target 3200, code 2809. -/
theorem test_minOffExpiry_fires :
    let t := after .minOffExpiry (controller (fun f => { f with
      state := .blocked, burner := false, pump := false, minOff := some 0, minOn := none, heating := none,
      ceiling := none, flowTarget := none, code := 0 }) (fired start))
    t.firing.state = .firing ∧ t.firing.burner = true ∧ t.firing.pump = true ∧ t.firing.minOn = some 120 ∧
      t.firing.flowTarget = some 3200 ∧ t.firing.code = 2809 := by decide +kernel

/-- One zone from waiting to overrun, t = 480. -/
theorem test_overrunExpiry_idles :
    let t := after .overrunExpiry (controller (fun f => { f with
      state := .overrun, burner := false, overrun := some 0, hold := some ⟨16, false⟩, demand := ⟨Tab.all 0, 0⟩,
      heating := none, ceiling := none, flowTarget := none, code := 0 }) (fired start))
    t.firing.state = .idle ∧ t.firing.pump = false ∧ t.firing.hold = none ∧ t.valves.latestHold = 0 := by
  decide +kernel

/-- R123. -/
theorem test_pathWaitExpiry_posts :
    let t := after .pathWaitExpiry (controller (fun f => { f with
      state := .waitPath, pathWait := some 600, demand := ⟨Tab.all 0, 20⟩ }) start)
    t.notices.text.noPath = 20 ∧ t.notices.wire.kinds = 512 ∧ t.firing.pathWait = none := by decide +kernel

/-- R125. -/
theorem test_flameWaitExpiry_posts :
    (after .flameWaitExpiry (controller (fun f => { f with flameWait := some 120 }) (fired start))).notices.wire.kinds =
      1024 := by decide +kernel

/-- R133 to R135: in LOCKOUT the reason is added and both ports are told again. -/
theorem test_faultPersistenceExpiry_adds_reason :
    let t := after .faultPersistenceExpiry (lockedOut ⟨true, false, none, some 8610⟩ 8300
      (controller (fun f => { f with faultTimer := some 10 }) start))
    t.firing.lockout = some ⟨true, true, none, some 8610⟩ ∧ t.notices.text.kinds = 256 ∧
      t.notices.wire.kinds = 256 := by decide +kernel

/-- R134: entry from FIRING at 4500, below the pump threshold, with no hold set. -/
theorem test_faultPersistenceExpiry_locks_out :
    let t := after .faultPersistenceExpiry (controller (fun f => { f with faultTimer := some 10 }) (fired start))
    t.firing.state = .lockout ∧ t.firing.burner = false ∧ t.firing.pump = false ∧
      t.firing.lockout = some ⟨false, true, none, some 4500⟩ ∧ t.firing.minOff = some 300 := by decide +kernel

/-- R138: the call ends with its timed part. -/
theorem test_timedCallExpiry_ends_call :
    let t := after .timedCallExpiry (controller (fun f => { f with
      timedCall := some 0, call := true, priority := some 30, diverter := true, diverterOn := 5 })
        (hotWater (fun c => { c with mode := .pulse }) start))
    t.firing.call = false ∧ t.firing.diverter = false ∧ t.firing.priority = none := by decide +kernel

/-- A hot-water call with priority, t = 1200: the greater of 3000 and 6500. -/
theorem test_priorityExpiry_shares :
    let t := after .priorityExpiry (controller (fun f => { f with
      call := true, priority := some 1200, heating := some 3000 }) (hotWater (fun c => { c with
        mode := .follow, maxPriority := 20 }) (fired start)))
    t.firing.priority = none ∧ t.firing.call = true ∧ t.firing.flowTarget = some 6500 ∧ t.firing.code = 10532 := by
  decide +kernel

/-- A hot-water call with priority, t = 30: the hot-water path exists. -/
theorem test_diverterOpen_gives_path :
    let t := after .diverterOpen (controller (fun f => { f with
      call := true, diverter := true, diverterOn := 30 }) (hotWater (fun c => { c with mode := .follow }) start))
    t.firing.dhwPath = true := by decide +kernel

/-! ## The link matrix -/

/-- The matrix of the worked sequence. -/
def worked (lines : LineSet) (s : State) : State :=
  let row (l : List (Fin 8 × Binding)) : Tab 8 Binding := l.foldl (fun t x => t.set x.1 x.2) (Tab.all .nothing)
  let event (on : Bool) (kind : SourceKind) (z : Option (Fin 16)) : EventSettings := ⟨on, kind, z⟩
  { s with
    links := { s.links with lines := lines }
    settings := { s.settings with
      linked := Tab.ofFn fun l => decide (l.val < 4)
      events := ⟨[event true .burnerOn none, event true .burnerOff none, event true .zoneCallOn (some 3),
        event true .zoneCallOff none, event true .lockoutOn none, event true .lockoutOn none,
        event true .zoneCallOn none, event false .bankChange none], rfl⟩
      bindings := ⟨[row [(0, .set)], row [(0, .clear)], row [(1, .set)], row [(1, .clear)],
        row [(2, .set), (3, .toggle), (4, .set)], row [(2, .clear), (3, .toggle)], row [(3, .toggle)],
        row [(2, .clear)]], rfl⟩ } }

/-- The worked sequence: ZONE_CALL_ON(3) fires E2 and E6. -/
theorem test_zoneCallOn_fires_two :
    let t := takeRaised (raiseFor .zoneCallOn 3 (worked 0 start))
    t.links.lines = 10 ∧ t.links.counts.list = [0, 0, 1, 0, 0, 0, 1, 0] := by decide +kernel

/-- The worked sequence: LOCKOUT_ON fires E4 and E5, SET prevails on A2, one toggle acts on A3, and A4 is MASTER. -/
theorem test_lockoutOn_combines : (takeRaised (raise .lockoutOn (worked 2 start))).links.lines = 14 := by decide +kernel

/-- R149: with turns of their own the blocks interleave, each block's events staying in order. -/
theorem test_inTurns_interleaves_blocks :
    inTurns [1, 0, 0] [⟨.zoneCallOff, 2⟩, ⟨.burnerOff, 0⟩, ⟨.zoneCallOff, 5⟩] =
      [⟨.burnerOff, 0⟩, ⟨.zoneCallOff, 2⟩, ⟨.zoneCallOff, 5⟩] ∧
    inTurns [0, 0] [⟨.zoneCallOff, 2⟩, ⟨.zoneCallOff, 5⟩, ⟨.burnerOff, 0⟩] =
      [⟨.zoneCallOff, 2⟩, ⟨.zoneCallOff, 5⟩, ⟨.burnerOff, 0⟩] ∧
    inTurns [0, 1] [⟨.zoneCallOff, 2⟩, ⟨.zoneCallOff, 5⟩, ⟨.burnerOff, 0⟩] =
      [⟨.zoneCallOff, 2⟩, ⟨.burnerOff, 0⟩, ⟨.zoneCallOff, 5⟩] := by decide +kernel

/-- The worked sequence: LINE SET 2 from the two-wire port. -/
theorem test_lineSet_of_worked_matrix :
    let t := after (.lineSet .wire 2) (worked 1 start)
    t.links.lines = 3 ∧ t.answered = some (.wire, .ok [.word 3, .word 15]) := by decide +kernel

/-- R150. -/
theorem test_lineClear_clears : (after (.lineClear .text 0x0F) (worked 0x1E start)).links.lines = 0x10 := by
  decide +kernel

/-- R150. -/
theorem test_lineToggle_toggles : (after (.lineToggle .text 0xFF) (worked 0x1E start)).links.lines = 0xE1 := by
  decide +kernel

/-- R151, at the end of the worked sequence. -/
theorem test_lineGet_shows_states :
    (after (.lineGet .text) (worked 30 start)).answered = some (.text, .ok [.word 30, .word 15]) := by decide +kernel

/-- R151, on E4 of the worked sequence. -/
theorem test_linkGet_shows_channel :
    (after (.linkGet .text 4) (worked 14 start)).answered =
      some (.text, .ok ([1, 10, 16, 0, 0, 1, 3, 1, 0, 0, 0, 0].map Field.word)) := by decide +kernel

/-! ## The notice unit -/

/-- The worked sequence: the read returns kind mask 12 and zone set 528, and clears the record. -/
theorem test_noticeRead_returns_record :
    let t := after (.noticeRead .wire) (pendingAt .wire 12 528 start)
    t.answered = some (.wire, .ok ([12, 528, 0, 0, 0, 0, 0, 0].map Field.word)) ∧ t.notices.wire.kinds = 0 ∧
      t.notices.wire.attention = false := by decide +kernel

/-- The worked sequence: under mask 65,531 a pending SCHEDULE_EDITED does not assert the line. -/
theorem test_noticeMask_masks :
    (after (.noticeMask .wire 65531) (pendingAt .wire 4 0 start)).answered =
      some (.wire, .ok [.word 65531, .word 0]) := by decide +kernel

/-! ## Settings and the store -/

/-- The worked sequence: zone 3's proportional band written to 150. -/
theorem test_paramSet_writes_band :
    let t := after (.paramSet .text 1 3 3 150) start
    (t.settings.zones.get 3).band = 150 ∧ t.answered = some (.text, .ok [.word 150, .word 0]) := by decide +kernel

/-- R100: a minimum duty above the maximum moves the maximum with it. -/
theorem test_paramSet_moves_maximum :
    (after (.paramSet .text 3 2 1 50) (valveSet 2 ⟨some 2, 0, 40, 180, 240, .timer⟩ start)).answered =
      some (.text, .ok [.word 50, .word 1, .word 3, .word 2, .word 2, .word 50]) := by decide +kernel

/-- R180: the factory value of the high limit. -/
theorem test_paramGet_reads_limit :
    (after (.paramGet .wire 4 0 3) start).answered = some (.wire, .ok [.word 8500]) := by decide +kernel

/-- R180: field 9 of group 4 is outside the table. -/
theorem test_paramGet_outside_table :
    (after (.paramGet .wire 4 0 9) start).answered = some (.wire, .er .range) := by decide +kernel

/-- The worked sequence: the save takes a snapshot and names the text port. -/
theorem test_configSave_takes_snapshot :
    (after (.configSave .text) start).store.operation = some ⟨.config factorySettings, .text⟩ := by decide +kernel

/-- The worked sequence: the completion posts SAVE_DONE to the text port alone. -/
theorem test_saveCompletion_posts_done :
    let t := after (.saveCompletion true) { start with store := { start.store with
      operation := some ⟨.config factorySettings, .text⟩ } }
    t.notices.text.kinds = 2048 ∧ t.notices.wire.kinds = 0 ∧ t.store.operation = none ∧ t.store.config.good = true := by
  decide +kernel

/-- R35: a bank save that fails sets the dirty flag again. -/
theorem test_saveCompletion_fails :
    let t := after (.saveCompletion false) { start with store := { start.store with
      operation := some ⟨.bank 1 emptyLists, .wire⟩ } }
    t.notices.wire.kinds = 4096 ∧ (t.program.banks.get 1).dirty = true ∧ (t.store.banks.get 1).good = false := by
  decide +kernel

/-- The link matrix's worked sequence: after a SOFT RESET in LOCKOUT every line is OFF. -/
theorem test_softReset_in_lockout :
    let t := after (.softReset .wire) (worked 14 (lockedOut ⟨true, false, none, some 8610⟩ 7900 start))
    t.links.lines = 0 ∧ t.firing.state = .lockout ∧ t.wire.record = .judged 0x93 (.ok []) := by decide +kernel

/-- R143: FIRING becomes OVERRUN with the burner OFF. -/
theorem test_softReset_in_firing :
    let t := after (.softReset .text) (fired start)
    t.firing.state = .overrun ∧ t.firing.burner = false ∧ t.firing.pump = true ∧ t.firing.overrun = some 180 ∧
      t.text.places = [.ready (.ok [])] := by decide +kernel

/-- R143: in LOCKOUT with the pump ON and the bypass since written YES no fresh set is fixed, and the diverter goes OFF. -/
theorem test_softReset_drops_held_diverter :
    let s := controller (fun f => { f with pump := true, diverter := true, hold := some ⟨16, true⟩ })
      (lockedOut ⟨true, false, none, some 8610⟩ 8540 start)
    (after (.softReset .text) { s with settings := s.settings.modFiring fun c => { c with bypass := true } })
      |>.firing.diverter = false := by decide +kernel

/-- FIRING at 7000 with zones 2 and 5 calling through open valves of their own. -/
def firedForTwo : State :=
  let demand : Demand := ⟨Tab.ofFn fun z => if z = 2 then 4096 else if z = 5 then 1000 else 0, 36⟩
  let open_ (v : ValveChannel) : ValveChannel :=
    { v with state := .opened, position := 60000, outputDuty := 63, demandDuty := 63, running := true, drive := true }
  let s := channel 5 open_ (channel 2 open_ (fired start))
  controller (fun f => { f with heating := some 7000, ceiling := some 7000, demand := demand, report := ⟨52, 36⟩ })
    { s with valves := { s.valves with demand := demand, report := ⟨52, 36⟩ } }

/-- R118: zone 2 stops and zone 5 asks for full demand; the heating target is the same in every order. -/
theorem test_handDemand_any_order :
    let d : Demand := ⟨Tab.ofFn fun z => if z = 5 then 4096 else 0, 32⟩
    ([PassOrder.controllerFirst, .driverFirst, .reportFirst].map fun o =>
      ((handDemand o d firedForTwo).firing.heating, (handDemand o d firedForTwo).firing.ceiling)) =
        List.replicate 3 (some 7000, some 7200) := by decide +kernel

/-! ## States and operands that meet the statements' hypotheses, clause by clause -/

theorem witness_StepRunsFrontOfQueue : (start.pushFront .pass).pending = .pass :: [] := rfl

theorem witness_NoStepStopsThePart :
    (let s := { start with powered := false }
     s.pending = [] ∧ s.powered = false) ∧
    (let s := { start with handed := [⟨.clockGet .text, true⟩] }
     s.pending = [] ∧ s.powered = true ∧ s.handed = ⟨.clockGet .text, true⟩ :: []) := by decide +kernel

theorem witness_FrameStandsForItsCommand :
    (WellFormed (.noticeMask .wire 65535) = true ∧ spelling (.noticeMask .wire 65535) = some (.wire, 0x81, [65535])) ∧
    (WellFormed (.tempReport .wire 15 (-32768)) = true ∧
      spelling (.tempReport .wire 15 (-32768)) = some (.wire, 0x40, [15, -32768])) ∧
    (WellFormed (.ovrSet .wire 3 2300 1 (some 0) none) = true ∧
      spelling (.ovrSet .wire 3 2300 1 (some 0) none) = some (.wire, 0x30, [3, 2300, 1, 0])) := by decide +kernel

theorem witness_LineStandsForItsCommand :
    WellFormed (.zoneGet .text (-999999999)) = true ∧
      spelling (.zoneGet .text (-999999999)) = some (.text, 0x03, [-999999999]) ∧
      let port := (typed ['Z', 'O', 'N', 'E', ' ', 'G', 'E', 'T', ' ', '-', '9', '9', '9', '9', '9', '9', '9', '9', '9']
        start).text
      port.overlong = false ∧ port.badCharacter = false ∧
        port.line = List.intercalate [32]
          (([['Z', 'O', 'N', 'E'], ['G', 'E', 'T']] ++ [(-999999999 : Int)].map decimal).map fun w => w.map Char.toNat) := by
  decide +kernel

theorem witness_PowerUpLoadsStoredObjects :
    (start.store.operation = none ∧ start.settings.hotWater.mode ≠ .follow) ∧
    (let s := { start with store := { start.store with operation := some ⟨.bank 3 emptyLists, .wire⟩ } }
     s.powered = true ∧ s.store.operation.isSome = true) ∧
    (let s := { start with
        store := { start.store with config := ⟨(hotWater (fun c => { c with mode := .follow }) start).settings, true⟩ }
        inputs := { start.inputs with request := true } }
     s.powered = true ∧ (after .externalReset s).settings.hotWater.mode = .follow ∧ s.inputs.request = true) ∧
    (let s := { start with store := { start.store with config := ⟨factorySettings, false⟩ } }
     s.powered = true ∧ s.store.operation = none ∧ s.inputs.request = false) := by decide +kernel

theorem witness_PowerLossKeepsOnlyTheStore :
    (let s := { start with store := { start.store with operation := some ⟨.config factorySettings, .wire⟩ } }
     s.powered = true ∧ s.store.operation = some ⟨.config factorySettings, .wire⟩) ∧
    (let s := { start with store := { start.store with operation := some ⟨.bank 3 emptyLists, .wire⟩ } }
     s.powered = true ∧ s.store.operation = some ⟨.bank 3 emptyLists, .wire⟩) ∧
    (start.powered = true ∧ start.store.operation = none) := by decide +kernel

theorem witness_SoftResetKeepsAndRestarts :
    (let s := channel 7 (fun v => { v with state := .fault }) (fired start)
     s.powered = true ∧ (s.valves.channels.get 7).state = .fault ∧ (s.valves.channels.get 4).state ≠ .fault ∧
        s.settings.linked.get 7 = false ∧ (s.settings.events.get 7).enabled = false) ∧
    (let s := worked 14 start
     s.powered = true ∧ (s.settings.events.get 1).kind = .burnerOff ∧ (s.settings.events.get 4).kind = .lockoutOn ∧
        s.firing.burner = false ∧ s.firing.pump = false ∧ s.firing.state ≠ .firing ∧ s.firing.state ≠ .overrun ∧
        s.firing.call = false ∧ s.settings.hotWater.mode = .off) := by
  decide +kernel

theorem witness_SoftResetRestartsController :
    (let s := controller (fun f => { f with pump := true, diverter := true })
        (lockedOut ⟨true, false, none, none⟩ 8540 start)
     s.powered = true ∧ s.firing.state = .lockout ∧ s.firing.pump = true ∧ s.settings.firing.bypass = false ∧
        (after (.softReset .text) s).firing.diverter = true) ∧
    (let s := lockedOut ⟨true, false, none, none⟩ 8540 start
     s.powered = true ∧ s.firing.state = .lockout ∧ s.firing.pump = false) ∧
    (let s := fired start
     s.powered = true ∧ s.firing.state = .firing ∧ 0 < s.settings.firing.minOff ∧ 0 < s.settings.firing.overrun ∧
        s.settings.firing.bypass = false) ∧
    (let s := controller (fun f => { f with state := .overrun, burner := false }) (fired start)
     s.powered = true ∧ s.firing.state = .overrun ∧ s.settings.hotWater.mode = .off) := by decide +kernel

theorem witness_CharactersFillAndCompleteLines :
    (let s := typed (List.replicate 64 'A') start
     s.powered = true ∧ (65 : Byte) ≠ 10 ∧ (65 : Byte) ≠ 13 ∧ s.text.buffer.length = 64) ∧
    (let s := typed [' ', ' '] start
     s.powered = true ∧ (∀ d ∈ s.text.buffer, d = 32) ∧ s.text.overlong = false ∧ s.text.badCharacter = false) ∧
    (let s := typed ['A'] { start with text := { start.text with places := List.replicate 4 (.ready (.ok [])) } }
     s.powered = true ∧ (∃ d ∈ s.text.buffer, d ≠ 32) ∧ 4 ≤ s.text.places.length) ∧
    (let s := typed ['S', 'T', 'A', 'T', 'U', 'S']
        { start with text := { start.text with places := List.replicate 3 (.ready (.ok [])) } }
     s.powered = true ∧ (∃ d ∈ s.text.buffer, d ≠ 32) ∧ s.text.places.length < 4 ∧
        s.text.judge = .command (.status .text)) ∧
    (let s := { start with text := { start.text with overlong := true } }
     s.powered = true ∧ s.text.overlong = true ∧ s.text.places.length < 4 ∧ s.text.judge = .refused .tooLong) ∧
    (let s := { start with text := { start.text with badCharacter := true } }
     s.powered = true ∧ s.text.overlong = false ∧ s.text.badCharacter = true ∧ s.text.places.length < 4 ∧
        s.text.judge = .refused .badForm) := by decide +kernel

theorem witness_ResponsesReachTheirPorts :
    (let s := { start with text := { start.text with places := [.ready (.er .range), .waiting .pass] } }
     s.powered = true ∧ s.text.places = .ready (.er .range) :: [.waiting .pass]) ∧
    (let s := { start with text := { start.text with places := [.sending (.er .range)] } }
     s.powered = true ∧ s.text.places = .sending (.er .range) :: []) ∧
    (let s := { start with text := { start.text with places := [.waiting (.status .text)] } }
     s.powered = true ∧ s.text.places = .waiting (.status .text) :: []) ∧
    (let s := { start with
        handed := [⟨.status .text, true⟩]
        text := { start.text with places := [.ready (.ok []), .waiting (.status .text)] } }
     s.handed = ⟨.status .text, true⟩ :: [] ∧ s.text.places = [.ready (.ok [])] ++ .waiting (.status .text) :: [] ∧
        Place.waiting (.status .text) ∉ [Place.ready (.ok [])]) ∧
    (let s := { start with
        handed := [⟨.status .wire, true⟩], wire := { start.wire with record := .inProgress 0x02 (.status .wire) } }
     s.handed = ⟨.status .wire, true⟩ :: [] ∧ s.wire.record = .inProgress 0x02 (.status .wire)) ∧
    (let s := { start with handed := [⟨.status .wire, false⟩] }
     s.handed = ⟨.status .wire, false⟩ :: []) ∧
    (start.powered = true ∧ ∀ r rest, start.text.places ≠ Place.sending r :: rest) := by
  refine ⟨by decide +kernel, by decide +kernel, by decide +kernel, by decide +kernel, by decide +kernel,
    by decide +kernel, rfl, ?_⟩
  intro r rest h
  cases h

theorem witness_WriteTransfersAreJudged :
    start.powered = true ∧ start.wire.bus.carried = none ∧ (0x2C : BitVec 7).toNat = start.wire.address ∧
    start.wire.busy = false ∧
    taken (0x93 :: List.replicate 24 0) = (0x93, false) :: taken (List.replicate 24 0) ∧
    24 < (taken (0x93 :: List.replicate 24 0)).length ∧ (taken (0x93 :: List.replicate 23 0)).length ≤ 24 ∧
    ((0xFF : Byte).toNat ∉ codes ∧
      ((0x01 : Byte).toNat ∈ codes ∧ commandOf (0x01 : Byte).toNat ((taken [0]).map Prod.fst) = none) ∧
      ((0x93 : Byte).toNat ∈ codes ∧ commandOf (0x93 : Byte).toNat ((taken []).map Prod.fst) =
        some (.softReset .wire))) ∧
    (0x2D : BitVec 7).toNat ≠ start.wire.address ∧
    (let s := { start with wire := { start.wire with record := .inProgress 0x02 (.status .wire) } }
     s.powered = true ∧ s.wire.bus.carried = none ∧ s.wire.busy = true) ∧
    (start.wire.buffer = [] ∧ start.wire.overlong = false) ∧
    ([true] ≠ [] ∧ (List.replicate 8 true).length ≤ 8 ∧ startLevels ≠ stopLevels) := by decide +kernel

theorem witness_ReadTransferReturnsRecord :
    start.powered = true ∧ start.wire.bus.carried = none ∧ (0x2D : BitVec 7).toNat ≠ start.wire.address ∧ (0x2C : BitVec 7).toNat = start.wire.address ∧ start.wire.record = .statusRecord ∧
    (71 : Nat) < 72 ∧
    (let s := { start with wire := { start.wire with record := .inProgress 0x02 (.status .wire) } }
     s.wire.record = .inProgress 0x02 (.status .wire)) ∧
    (let s := { start with wire := { start.wire with record := .judged 0x50 (.er .range) } }
     s.wire.record = .judged 0x50 (.er .range)) ∧
    (let s := { start with wire := { start.wire with record := .judged 0x50 (.ok [.word 1]) } }
     s.wire.record = .judged 0x50 (.ok [.word 1])) := by decide +kernel

theorem witness_PortReadsAnswerRecords :
    start.powered = true ∧ ((-1 : Int) < 0 ∨ 15 < (-1 : Int)) ∧ ((16 : Int) < 0 ∨ 15 < (16 : Int)) := by decide +kernel

theorem witness_ProgramAndTableReadsAnswer :
    (let s := withSlots sevenSlots (withList 0 3 listThree start)
     s.powered = true ∧ (4 < 256 ∧ ((s.program.banks.get 0).lists.get 3)[4]? = some ⟨0x7F, 1320, .temp 1600⟩) ∧
        (255 < 256 ∧ ((s.program.banks.get 0).lists.get 3).length ≤ 255) ∧
        ((4 : Int) < 0 ∨ 3 < (4 : Int)) ∧ ((17 : Int) < 0 ∨ 16 < (17 : Int)) ∧
        (6 < 8 ∧ s.overrides.slots[6]? = some ⟨15, some 1000, .hold, .text, none⟩) ∧
        (7 < 8 ∧ s.overrides.slots.length ≤ 7) ∧ ((8 : Int) < 0 ∨ 7 < (8 : Int))) := by decide +kernel

theorem witness_UnitReadsAnswerRecords :
    start.powered = true ∧ ((18 : Int) < 0 ∨ 17 < (18 : Int)) ∧ ((16 : Int) < 0 ∨ 15 < (16 : Int)) ∧
      ((8 : Int) < 0 ∨ 7 < (8 : Int)) := by decide +kernel

theorem witness_ClockSetStoresTime :
    start.powered = true ∧ ((0 : Int) ≤ 6 ∧ (6 : Int) ≤ 6 ∧ (0 : Int) ≤ 1439 ∧ (1439 : Int) ≤ 1439 ∧ (0 : Int) ≤ 59 ∧
      (59 : Int) ≤ 59) ∧ ((7 : Int) < 0 ∨ 6 < (7 : Int)) ∧ (1439 : Int) < 1440 ∧ (59 : Int) < 60 ∧
    (let s := withSlots sevenSlots (at_ 2 0 0 start)
     s.powered = true ∧ s.clock.valid = true ∧ ⟨1, some 1900, .untilTime ⟨2, 0⟩ 300, .wire, none⟩ ∈ s.overrides.slots ∧
        ⟨4, some 2200, .next, .text, none⟩ ∈ s.overrides.slots) ∧
    (6 < 7 ∧ 1439 < 1440 ∧ (∀ q ∈ listThree, q.start < 1440) ∧
      evaluate listThree 0 0 = some ⟨⟨0x7F, 1320, .temp 1600⟩, 6⟩) := by decide +kernel

theorem witness_SecondBoundaryAdvancesClock :
    (start.powered = true ∧ start.clock.valid = false) ∧
    (let s := at_ 1 1438 58 start
     s.powered = true ∧ s.clock.valid = true ∧ s.clock.second ≠ 59) ∧
    (let s := at_ 6 1439 59 start
     s.powered = true ∧ s.clock.valid = true ∧ s.clock.second = 59 ∧ s.clock.minute = 1439) ∧
    (let s := at_ 1 1438 59 start
     s.powered = true ∧ s.clock.valid = true ∧ s.clock.second = 59 ∧ s.clock.minute ≠ 1439) := by decide +kernel

/-- A part with a timed program. -/
def timedTo (days endMinute : Nat) (s : State) : State :=
  { s with program := { s.program with active := 2, timed := some ⟨2, 0, days, endMinute⟩ } }

/-- The override table's two kinds that a minute event can end: a NEXT slot of zone 3 and an UNTIL slot at its end. -/
def ending : List Slot := [⟨3, none, .next, .text, none⟩, ⟨1, some 1900, .untilTime ⟨4, 1020⟩ 1, .wire, none⟩]

/-- A list with a switch point at minute 0 of Wednesday alone. -/
def listMidnight : List SwitchPoint := [⟨0x04, 0, .temp 2100⟩]

theorem witness_MinuteEventMovesProgram :
    (let s := withSlots ending (at_ 4 1019 59 (withList 0 3 listThree start))
     s.powered = true ∧ s.clock.valid = true ∧ s.clock.second = 59 ∧ s.clock.minute ≠ 1439 ∧ s.program.timed = none ∧
        ((s.program.banks.get s.program.active).lists.get 3).find? (fun q =>
          q.days.getLsbD 4 && decide (q.start = 1020)) = some ⟨0x10, 1020, .off⟩ ∧
        (after .secondBoundary s).overrides.slots = []) ∧
    (let s := withSlots ending (at_ 1 1439 59 (withList 0 3 listMidnight start))
     s.powered = true ∧ s.clock.valid = true ∧ s.clock.second = 59 ∧ s.clock.minute = 1439 ∧ s.program.timed = none ∧
        ((s.program.banks.get s.program.active).lists.get 3).find? (fun q =>
          q.days.getLsbD 2 && decide (q.start = 0)) = some ⟨0x04, 0, .temp 2100⟩ ∧
        (after .secondBoundary s).overrides.slots = []) ∧
    (let s := timedTo 0 1439 (at_ 6 1438 59 start)
     s.powered = true ∧ s.clock.valid = true ∧ s.clock.second = 59 ∧ s.program.timed = some ⟨2, 0, 0, 1439⟩ ∧
        s.clock.minute + 1 = 1439 ∧ (0 : Fin 4) ≠ s.program.active) ∧
    (let s := timedTo 0 1020 (at_ 4 1019 59 (withList 2 3 listThree start))
     let t := { s with program := { s.program with timed := some ⟨2, 2, 0, 1020⟩ } }
     t.powered = true ∧ t.clock.valid = true ∧ t.clock.second = 59 ∧ (2 : Fin 4) = t.program.active ∧
        (after .secondBoundary t).program.timed = none ∧
        (after .secondBoundary t).program.remembered.get 3 = some ⟨⟨0x10, 1020, .off⟩, 4⟩) ∧
    (let s := timedTo 0 1080 (at_ 6 1078 59 start)
     s.powered = true ∧ s.clock.valid = true ∧ s.clock.second = 59 ∧ s.program.timed = some ⟨2, 0, 0, 1080⟩ ∧
        s.clock.minute + 1 < 1080) ∧
    (let s := timedTo 2 1080 (at_ 1 1439 59 (withList 2 3 listMidnight start))
     s.powered = true ∧ s.clock.valid = true ∧ s.clock.second = 59 ∧ s.clock.minute = 1439 ∧
        s.program.timed = some ⟨2, 0, 2, 1080⟩ ∧
        (after .secondBoundary s).program.timed = some ⟨2, 0, 1, 1080⟩ ∧
        (after .secondBoundary s).program.remembered.get 3 = some ⟨⟨0x04, 0, .temp 2100⟩, 2⟩) ∧
    (let s := timedTo 1 0 (at_ 6 1439 59 start)
     s.powered = true ∧ s.clock.valid = true ∧ s.clock.second = 59 ∧ s.clock.minute = 1439 ∧
        s.program.timed = some ⟨2, 0, 1, 0⟩ ∧ (after .secondBoundary s).program.timed = none ∧
        (after .secondBoundary s).program.active = 0) := by decide +kernel

theorem witness_EditsCountAsChanges :
    (let s := withList 1 3 listThree (withRevision 1 65535 start)
     s.powered = true ∧ (0x1F : DaySet) ≠ 0 ∧ 1439 < 1440 ∧ (targetOf 3 2000).isSome = true ∧
        (∀ q ∈ (s.program.banks.get 1).lists.get 3, q.start = 1439 → q.days &&& 0x1F = 0) ∧
        ((s.program.banks.get 1).lists.list.map List.length).sum < 256 ∧
        (∃ q ∈ (s.program.banks.get 1).lists.get 3, q.days = 0x1F ∧ q.start = 390) ∧ saving s 1 = false ∧
        some (65535 : Int) = some ((s.program.banks.get 1).revision : Int) ∧ 1 ≠ s.program.active ∧
        (65536 : Int) ≠ (s.program.banks.get 1).revision) ∧
    (let s := at_ 4 1019 59 (withList 0 3 listThree start)
     s.powered = true ∧ 0 = s.program.active ∧ s.clock.valid = true) := by decide +kernel

theorem witness_EditsPlaceAndRemovePoints :
    (let s := withList 1 3 listThree start
     s.powered = true ∧ (0x60 : DaySet) ≠ 0 ∧ 390 < 1440 ∧ targetOf 3 3001 = some (.temp 3000) ∧
        (∀ q ∈ (s.program.banks.get 1).lists.get 3, q.start = 390 → q.days &&& 0x60 = 0) ∧
        ((s.program.banks.get 1).lists.list.map List.length).sum < 256 ∧
        (∃ q ∈ (s.program.banks.get 1).lists.get 3, q.start = 390 ∧ q.days &&& 0x01 ≠ 0) ∧
        ((s.program.banks.get 1).lists.get 3 = listThree.take 3 ++ ⟨0x10, 1020, .off⟩ :: listThree.drop 4 ∧
          ∀ r ∈ listThree.take 3, ¬(r.days = 0x10 ∧ r.start = 1020)) ∧ saving s 1 = false ∧
        (∀ q ∈ (s.program.banks.get 1).lists.get 3, ¬(q.days = 0x60 ∧ q.start = 390))) ∧
    (let s := withList 1 3 (List.replicate 256 ⟨0x01, 390, .off⟩) start
     s.powered = true ∧ (∀ q ∈ (s.program.banks.get 1).lists.get 3, q.start = 1439 → q.days &&& 0x01 = 0) ∧
        256 ≤ ((s.program.banks.get 1).lists.list.map List.length).sum) ∧
    (let s := { start with store := { start.store with operation := some ⟨.bank 1 emptyLists, .wire⟩ } }
     s.powered = true ∧ s.store.operation = some ⟨.bank 1 emptyLists, .wire⟩) ∧
    ((128 : Int) < 1 ∨ 127 < (128 : Int)) ∧ ((16 : Int) = 16 ∧ (2 : Int) ≠ 0 ∧ (2 : Int) ≠ 1) := by decide +kernel

theorem witness_BankCommandsChangeActiveBank :
    (let s := timedTo 2 1080 (at_ 3 920 0 start)
     s.powered = true ∧ 1 ≤ 99 ∧ 99 ≤ 99 ∧ 1439 < 1440 ∧ s.clock.valid = true ∧
        (∃ r, s.program.timed = some r ∧ r.returnBank = 0) ∧ (0 : Fin 4) ≠ s.program.active) ∧
    (start.powered = true ∧ start.clock.valid = false ∧ start.program.timed = none ∧ (0 : Fin 4) = start.program.active) ∧
    ((4 : Int) < 0 ∨ 3 < (4 : Int)) := by
  refine ⟨⟨rfl, by decide, by decide, by decide, rfl, ⟨_, rfl, rfl⟩, by decide⟩, ?_, by decide⟩
  decide +kernel

theorem witness_SavesStartAndComplete :
    (start.powered = true ∧ start.store.operation = none) ∧
    (let s := { start with store := { start.store with operation := some ⟨.bank 3 emptyLists, .wire⟩ } }
     s.powered = true ∧ s.store.operation.isSome = true ∧ s.store.operation = some ⟨.bank 3 emptyLists, .wire⟩) ∧
    (let s := { start with store := { start.store with operation := some ⟨.config factorySettings, .text⟩ } }
     s.powered = true ∧ s.store.operation = some ⟨.config factorySettings, .text⟩) := by decide +kernel

theorem witness_BankLoadTakesStoredCopy :
    (let s := at_ 1 0 0 start
     s.powered = true ∧ s.store.operation = none ∧ (s.store.banks.get 0).good = true ∧ 0 = s.program.active ∧
        s.clock.valid = true ∧ 3 ≠ s.program.active) ∧
    (let s := { start with store := { start.store with banks := start.store.banks.set 3 ⟨emptyLists, false⟩ } }
     s.powered = true ∧ s.store.operation = none ∧ (s.store.banks.get 3).good = false) ∧
    (let s := { start with store := { start.store with operation := some ⟨.bank 3 emptyLists, .wire⟩ } }
     s.powered = true ∧ s.store.operation.isSome = true) ∧ ((4 : Int) < 0 ∨ 3 < (4 : Int)) := by decide +kernel

theorem witness_OverrideWritesAndReleases :
    (let s := withSlots sevenSlots start
     s.powered = true ∧ slotOf s 15 = some ⟨15, some 1000, .hold, .text, none⟩ ∧
        givenSetpoint 3001 = some 3000 ∧ Port.text ≠ .wire ∧ slotOf s 0 = none) ∧ ((16 : Int) < 0 ∨ 15 < (16 : Int)) ∧
    ((3 : Int) < 0 ∨ 2 < (3 : Int)) ∧ (∃ e ∈ some (7 : Int), e < 0 ∨ 6 < e) ∧ (∃ e ∈ some (1440 : Int), e < 0 ∨ 1439 < e) ∧
    WritesOverride .wire 15 3001 start (.ovrHold .wire 15 (some 3001)) .hold ∧
    WritesOverride .wire 15 3001 start (.ovrSet .wire 15 3001 0 none none) .next ∧
    WritesOverride .wire 15 3001 (at_ 6 1439 0 start) (.ovrSet .wire 15 3001 1 (some 6) (some 1439))
      (.untilTime ⟨6, 1439⟩ 10080) :=
  ⟨by decide +kernel, by decide, by decide, ⟨7, rfl, by decide⟩, ⟨1440, rfl, by decide⟩,
    .inr (.inr (.inl ⟨rfl, rfl⟩)), .inl ⟨_, _, rfl, rfl⟩, .inr (.inr (.inr ⟨6, 1439, rfl, rfl, by decide +kernel⟩))⟩

theorem witness_UntilOverrideMeasuresItsEnd :
    (let s := withSlots sevenSlots (at_ 6 1439 0 start)
     s.powered = true ∧ s.clock.valid = true ∧ s.overrides.slots.length < 8 ∧ slotOf s 0 = none ∧ s.clock.day < 7 ∧
        s.clock.minute < 1440 ∧ (slotOf s 15).isSome = true) ∧
    (let s := withSlots (⟨7, some 2160, .hold, .wire, none⟩ :: sevenSlots) (at_ 6 1439 0 start)
     s.powered = true ∧ s.clock.valid = true ∧ slotOf s 0 = none ∧ 8 ≤ s.overrides.slots.length ∧
        ∃ o ∈ s.overrides.slots, o.kind ≠ .hold) ∧
    (start.powered = true ∧ start.clock.valid = false) := by decide +kernel

theorem witness_FullTableEvictsLowestUnheldSlot :
    (let s := withSlots (⟨7, some 2160, .hold, .wire, none⟩ :: sevenSlots) start
     s.powered = true ∧ slotOf s 11 = none ∧ s.overrides.slots.length = 8 ∧ (s.overrides.slots.map Slot.zone).Nodup ∧
        s.overrides.slots = (⟨7, some 2160, .hold, .wire, none⟩ :: sevenSlots.take 5) ++
          ⟨2, some 2400, .next, .text, none⟩ :: sevenSlots.drop 6 ∧
        Kind.next ≠ .hold ∧ ∀ q ∈ sevenSlots.drop 6, q.kind = .hold) ∧
    (let s := withSlots ((List.finRange 8).map fun k => ⟨⟨k.val, by omega⟩, none, .hold, .wire, none⟩) start
     s.powered = true ∧ slotOf s 11 = none ∧ s.overrides.slots.length = 8 ∧ (s.overrides.slots.map Slot.zone).Nodup ∧
        ∀ q ∈ s.overrides.slots, q.kind = .hold) ∧
    (let s := withSlots sevenSlots start
     s.powered = true ∧ slotOf s 11 = none ∧ s.overrides.slots.length < 8) := by decide +kernel

theorem witness_ReportsAreStoredAndAge :
    start.powered = true ∧ ((-4000 : Int) ≤ -4000 ∧ (-4000 : Int) ≤ 12500) ∧ ((-4000 : Int) ≤ 12500 ∧
      (12500 : Int) ≤ 12500) ∧ (12500 : Int) < 12501 ∧ (15 : Int) < 16 := by decide +kernel

theorem witness_EdgesYieldJudgedPeriods :
    (let v := start.capture.channels.get 17
     start.powered = true ∧ true ≠ v.raw ∧ 0 < (start.settings.capture.get 17).filter ∧ v.raw = v.filtered ∧
        v.timing = false) ∧
    (let s := modChannel 17 (fun x => { x with held := 6 }) (timing 17 65534 21598 2 1 start)
     let v := s.capture.channels.get 17
     s.powered = true ∧ false ≠ v.raw ∧ v.raw ≠ v.filtered ∧ v.held + 1 < (s.settings.capture.get 17).filter ∧
        v.timer + 1 ≤ 65535) ∧
    (let s := timing 17 8392 21598 2 1 start
     let v := s.capture.channels.get 17
     s.powered = true ∧ v.raw ≠ v.filtered ∧ v.raw ≠ (s.settings.capture.get 17).falling ∧
        8 = (s.settings.capture.get 17).filter - v.held ∧ v.timing = true ∧ 8400 ≤ v.timer + 8 ∧
        v.timer + 8 ≤ 15000 ∧ v.count < 4095 ∧ 0 < 8 ∧ 0 < 57135 ∧ v.timer + (8 + 57135) = 65535) ∧
    (let s := timing 17 14993 21598 4095 4095 start
     let v := s.capture.channels.get 17
     s.powered = true ∧ v.raw ≠ v.filtered ∧ v.timing = true ∧ 15000 < v.timer + 8 ∧ 4095 ≤ v.count ∧
        65535 < v.timer + 50543) ∧
    (let s := { start with settings := start.settings.modCapture 0 fun c => { c with filter := 0 } }
     let v := s.capture.channels.get 0
     s.powered = true ∧ v.raw = v.filtered ∧ true ≠ v.raw ∧ (s.settings.capture.get 0).filter = 0) ∧
    (let s := modChannel 0 (fun x => { x with filtered := true, timing := true, timer := 65527 }) start
     let v := s.capture.channels.get 0
     s.powered = true ∧ v.raw ≠ v.filtered ∧ v.raw = (s.settings.capture.get 0).falling ∧ v.timing = true ∧
        65535 - v.timer ≤ (s.settings.capture.get 0).filter - v.held) ∧
    (let s := modChannel 0 (fun x => { x with filtered := true, timing := true, timer := 65526 }) start
     let v := s.capture.channels.get 0
     s.powered = true ∧ (s.settings.capture.get 0).filter - v.held < 65535 - v.timer ∧
        v.raw = (s.settings.capture.get 0).falling) ∧
    (let s := modChannel 0 (fun x => { x with timing := true, timer := 65535 }) start
     let v := s.capture.channels.get 0
     s.powered = true ∧ v.timing = true ∧ v.raw = v.filtered ∧ s.pending = [] ∧ s.handed = [] ∧
        (s.settings.capture.get 0).filter ≤ 32) := by
  decide +kernel

/-- A part in FIRING, its hot-water call, diverter and priority period as their causes have them. -/
theorem fired_call : CallKept (fired start) := by
  refine ⟨?_, ?_, ?_, ?_, ?_⟩ <;> decide +kernel

/-- A part in WAIT_PATH, whose request input makes a hot-water call that waits for the diverter. -/
def requested : State :=
  controller (fun f => { f with
      state := .waitPath, call := true, diverter := true, diverterOn := 30, flow := some 4500, flowStatus := .valid,
      minOff := none })
    (hotWater (fun c => { c with mode := .follow })
      { start with inputs := { start.inputs with interlock := true, request := true } })

theorem requested_call : CallKept requested := by
  refine ⟨?_, ?_, ?_, ?_, ?_⟩ <;> decide +kernel

theorem witness_WindowExpiryJudgesWindows :
    (let s := timing 4 0 43196 4 4 start
     s.powered = true ∧ 4 ≤ (s.capture.channels.get 4).count ∧
        (s.capture.channels.get 4).rejects ≤ (s.capture.channels.get 4).count) ∧
    (let s := modChannel 4 (fun x => { x with status := .held, last := some 1985, run := 2 }) start
     s.powered = true ∧ ¬(4 ≤ (s.capture.channels.get 4).count ∧
        (s.capture.channels.get 4).rejects ≤ (s.capture.channels.get 4).count) ∧
        (s.capture.channels.get 4).status = .held ∧ (s.capture.channels.get 4).run = 2) ∧
    (let s := { start with
        settings := start.settings.modZone 9 fun c => { c with mode := .remotePreferred, staleness := 5 }
        capture := { start.capture with reports := start.capture.reports.set 9 (some ⟨2050, 300⟩) } }
     s.powered = true ∧ (s.capture.reports.get 9).filter (fun r =>
        decide (r.age ≤ (s.settings.zones.get 9).staleness * 60)) = some ⟨2050, 300⟩ ∧
        (s.settings.zones.get 9).mode ≠ .localOnly) ∧
    (let s := modChannel 17 (fun x => { x with sum := 53608, count := 4 }) (fired start)
     s.powered = true ∧ s.firing.state = .firing ∧ (after .windowExpiry s).firing.flow = some 8505 ∧
        (after .windowExpiry s).firing.flowStatus ≠ .invalid ∧ s.settings.firing.highLimit < 8505) ∧
    (let s := fired start
     s.powered = true ∧ s.firing.state = .firing ∧ (after .windowExpiry s).firing.flowStatus = .invalid ∧
        0 < s.settings.firing.minOff ∧ 0 < s.settings.firing.overrun) ∧
    (let s := controller (fun f => { f with pump := true }) (lockedOut ⟨false, true, none, some 8610⟩ 8540 start)
     s.powered = true ∧ s.firing.state = .lockout ∧ s.firing.lockout = some ⟨false, true, none, some 8610⟩ ∧
        s.firing.pump = true ∧ (after .windowExpiry s).firing.flowStatus = .invalid) ∧
    (let s := modChannel 17 (fun x => { x with sum := 53608, count := 4 })
        (controller (fun f => { f with pump := true }) (lockedOut ⟨false, true, none, none⟩ 8540 start))
     s.powered = true ∧ s.firing.state = .lockout ∧ s.firing.lockout = some ⟨false, true, none, none⟩ ∧
        (after .windowExpiry s).firing.flow = some 8505 ∧ (after .windowExpiry s).firing.pump = true) ∧ CallKept (fired start) := by
  refine ⟨?_, ?_, ?_, ?_, ?_, ?_, ?_, fired_call⟩ <;> decide +kernel

theorem witness_PassComputesEveryZone :
    (let s := heated 15 3000 start
     s.powered = true ∧ s.overrides.effective.get 0 = none ∧ s.overrides.effective.get 15 = some 3000 ∧
        (s.capture.publication.zones.get 15).status = .invalid ∧ (s.settings.valves.get 15).zone = some 15 ∧
        (s.settings.valves.get 15).minDuty ≤ (s.settings.valves.get 15).maxDuty) ∧
    (let s := valveSet 3 ⟨none, 0, 63, 180, 240, .timer⟩ start
     s.powered = true ∧ (s.settings.valves.get 3).zone = none) ∧
    (let s := measured 12 400 (heated 12 2100 start)
     let t := after .pass s
     s.powered = true ∧ (s.regulator.zones.get 12).frost = false ∧ (t.regulator.zones.get 12).frost = true ∧
        (s.regulator.zones.get 12).calling = false ∧ (t.regulator.zones.get 12).calling = true) := by decide +kernel

theorem witness_PassRegulatesZone :
    (let s := measured 12 (-4000) (heated 12 3000 start)
     s.powered = true ∧ s.overrides.effective.get 12 = some 3000 ∧
        (s.capture.publication.zones.get 12).status ≠ .invalid ∧
        (s.capture.publication.zones.get 12).temp = some (-4000)) := by decide +kernel

theorem witness_ArithmeticRoundsConvergently :
    (0 : Int) < 256 ∧ ((2 : Int) * (128128 - 256 * divRound 128128 256) = 256) ∧ ((500 : Int) ≤ 3000) ∧ (3001 : Int) > 3000 := by
  decide

theorem witness_ValveUpdateStepsAndReports :
    (let s := channel 4 (fun v => { v with demandDuty := 10, outputDuty := 10, position := 59786, state := .opening }) start
     s.powered = true ∧ s.firing.report = s.valves.report ∧ (s.settings.valves.get 4).confirm = .timer ∧
        (s.valves.channels.get 4).state ≠ .fault ∧ 0 < (s.settings.valves.get 4).openTime ∧
        (s.settings.valves.get 4).openTime * 334 < 60000 + (s.settings.valves.get 4).openTime ∧
        60000 ≤ (s.settings.valves.get 4).openTime * 334 ∧ 0 < (s.settings.valves.get 4).closeTime ∧
        (s.settings.valves.get 4).closeTime * 250 < 60000 + (s.settings.valves.get 4).closeTime ∧
        60000 ≤ (s.settings.valves.get 4).closeTime * 250 ∧ ((after .valveUpdate s).valves.channels.get 4).state ≠ .fault) ∧
    (let s := { start with valves := { start.valves with latestHold := 16 } }
     s.powered = true ∧ s.firing.report = s.valves.report ∧ (s.valves.channels.get 4).outputDuty = 0 ∧
        0 < max (s.valves.channels.get 4).demandDuty
          (if s.valves.latestHold.getLsbD 4 then (s.settings.valves.get 4).maxDuty else 0)) ∧
    (let s := channel 4 (fun v => { v with hold := true, outputDuty := 63 }) start
     s.powered = true ∧ s.firing.report = s.valves.report ∧ 0 < (s.valves.channels.get 4).outputDuty ∧
        (s.valves.channels.get 4).state ≠ .fault ∧ max (s.valves.channels.get 4).demandDuty
          (if s.valves.latestHold.getLsbD 4 then (s.settings.valves.get 4).maxDuty else 0) = 0) ∧
    (let s := channel 7 (fun v => { v with confirmTimer := none, position := 59500 }) (confirmingAt 0 start)
     s.powered = true ∧ s.firing.report = s.valves.report ∧ (s.settings.valves.get 7).confirm = .switch ∧
        (s.valves.channels.get 7).endSwitch = false ∧ (s.valves.channels.get 7).confirmTimer = none ∧
        (s.settings.valves.get 7).openTime * 500 < 60000 + (s.settings.valves.get 7).openTime ∧
        60000 ≤ (s.settings.valves.get 7).openTime * 500 ∧ min 60000 (59500 + 500) = 60000) ∧
    (let s := channel 7 (fun v => { v with state := .closing, confirmTimer := none, endSwitch := true })
        (confirmingAt 0 start)
     s.powered = true ∧ s.firing.report = s.valves.report ∧ (s.valves.channels.get 7).endSwitch = true) ∧
    (let s := confirmingAt 118 start
     s.powered = true ∧ s.firing.report = s.valves.report ∧ (s.valves.channels.get 7).state = .opening ∧
        (s.valves.channels.get 7).position = 60000 ∧ (s.valves.channels.get 7).confirmTimer = some 118 ∧ 118 < 119) ∧
    (let s := channel 7 (fun v => { v with state := .fault }) (valveSet 7 switched start)
     s.powered = true ∧ s.firing.report = s.valves.report ∧ (s.valves.channels.get 7).state = .fault ∧
        (s.valves.channels.get 7).outputDuty = 0 ∧ (s.valves.channels.get 7).confirmTimer = none) ∧
    (let s := confirmingAt 119 start
     s.powered = true ∧ s.firing.report = s.valves.report ∧ (s.valves.channels.get 7).state ≠ .fault ∧
        ((after .valveUpdate s).valves.channels.get 7).state = .fault) := by decide +kernel

theorem witness_EndSwitchesConfirmAndFault :
    (let s := confirmingAt 119 start
     s.powered = true ∧ (s.settings.valves.get 7).confirm = .switch ∧ (s.valves.channels.get 7).state = .opening ∧
        (s.valves.channels.get 7).endSwitch = false ∧ (s.valves.channels.get 7).confirmTimer.isSome = true ∧
        (s.settings.valves.get 0).confirm = .timer) ∧
    (let s := channel 7 (fun v => { v with state := .opened, endSwitch := true }) (confirmingAt 0 start)
     s.powered = true ∧ (s.settings.valves.get 7).confirm = .switch ∧ (s.valves.channels.get 7).state = .opened ∧
        (s.valves.channels.get 7).endSwitch = true) := by decide +kernel

theorem witness_ValveClearRestartsChannel :
    (let s := channel 7 (fun v => { v with demandDuty := 40, state := .fault }) (valveSet 7 switched start)
     s.powered = true ∧ (s.valves.channels.get 7).state = .fault ∧ (s.valves.channels.get 7).outputDuty = 0 ∧
        (s.valves.channels.get 7).drive = false ∧ s.firing.report = s.valves.report ∧
        (s.settings.valves.get 7).confirm = .switch ∧ (s.valves.channels.get 7).endSwitch = false) ∧
    (let s := channel 7 (fun v => { v with demandDuty := 40, state := .fault })
        (valveSet 7 { switched with openTime := 0 } start)
     (s.settings.valves.get 7).confirm = .switch ∧ (s.valves.channels.get 7).state = .fault ∧
        (s.valves.channels.get 7).outputDuty = 0 ∧ (s.valves.channels.get 7).drive = false ∧
        ((after (.valveClear .text 7) s).valves.channels.get 7).confirmTimer = some 0) ∧
    (let s := channel 7 (fun v => { v with demandDuty := 40, state := .fault, endSwitch := true }) (valveSet 7 switched start)
     (s.settings.valves.get 7).confirm = .switch ∧ (s.valves.channels.get 7).endSwitch = true ∧
        ((after (.valveClear .text 7) s).valves.channels.get 7).state = .opened) ∧
    (let s := channel 7 (fun v => { v with demandDuty := 40, state := .fault })
        (valveSet 7 { switched with confirm := .timer, openTime := 0 } start)
     (s.settings.valves.get 7).confirm = .timer ∧ (s.valves.channels.get 7).outputDuty = 0 ∧
        ((after (.valveClear .text 7) s).valves.channels.get 7).state = .opened) ∧
    (start.powered = true ∧ (start.valves.channels.get 7).state ≠ .fault) ∧ ((16 : Int) < 0 ∨ 15 < (16 : Int)) := by
  decide +kernel

theorem witness_DriveCyclesFollowAppliedDuty :
    (let s := channel 4 (fun v => { v with outputDuty := 30, running := true, appliedDuty := 62, drive := true }) start
     s.powered = true ∧ (s.valves.channels.get 4).running = true ∧ (s.valves.channels.get 4).drive = true ∧
        (s.valves.channels.get 4).appliedDuty < 63) := by decide +kernel

/-- BLOCKED by the min-off timer alone. -/
def held (s : State) : State :=
  controller (fun f => { f with
    state := .blocked, burner := false, pump := false, minOff := none, minOn := none, heating := none, ceiling := none,
    flowTarget := none, code := 0 }) (fired s)

theorem witness_PermissionWithdrawalEndsFiring :
    (let s := fired start
     s.powered = true ∧ s.firing.state = .firing ∧ s.inputs.interlock = true ∧ 0 < s.settings.firing.minOff ∧
        0 < s.settings.firing.overrun) ∧
    (let s := controller (fun f => { f with inhibitText := true }) (held start)
     s.powered = true ∧ s.firing.state = .blocked ∧ s.firing.anyCall = true ∧ s.firing.pathExists = true ∧
        s.inputs.interlock = true ∧ s.firing.flowStatus ≠ .invalid ∧ s.firing.minOff = none ∧
        (after (.inhibit .text 0) s).firing.inhibitText = false ∧
        (after (.inhibit .text 0) s).firing.inhibitWire = false) ∧
    (let s := { held start with inputs := { (held start).inputs with interlock := false } }
     s.powered = true ∧ s.firing.state = .blocked ∧ s.inputs.interlock = false ∧ s.firing.anyCall = true ∧
        s.firing.pathExists = true ∧ s.firing.inhibitText = false ∧ s.firing.inhibitWire = false ∧
        s.firing.flowStatus ≠ .invalid ∧ s.firing.minOff = none) ∧
    ((fired start).settings.firing.bypass = false) ∧
    (let s := lockedOut ⟨true, false, none, none⟩ 8540 start
     s.powered = true ∧ s.firing.state = .lockout) ∧ ((2 : Int) ≠ 0 ∧ (2 : Int) ≠ 1) ∧
    (let s := { fired start with settings := (fired start).settings.modFiring fun c => { c with overrun := 0 } }
     s.powered = true ∧ s.firing.state = .firing ∧ s.firing.burner = true ∧ s.firing.pump = true ∧
        s.settings.firing.overrun = 0 ∧ s.inputs.interlock = true) ∧
    ((held start).firing.burner = false ∧ (held start).firing.pump = false) ∧ CallKept (fired start) := by
  refine ⟨?_, ?_, ?_, ?_, ?_, ?_, ?_, ?_, fired_call⟩ <;> decide +kernel

theorem witness_LockoutClearNeedsResolvedReasons :
    (let s := lockedOut ⟨true, true, none, some 8610⟩ 7499 start
     s.powered = true ∧ s.firing.state = .lockout ∧ s.firing.lockout = some ⟨true, true, none, some 8610⟩ ∧
        s.firing.flowStatus = .valid ∧ s.firing.flow = some 7499 ∧ 7499 < s.settings.firing.highLimit - 1000 ∧
        s.inputs.fault = false) ∧
    (let s := lockedOut ⟨true, false, none, some 8610⟩ 7500 start
     s.powered = true ∧ s.firing.state = .lockout ∧ s.firing.flow = some 7500 ∧
        s.settings.firing.highLimit - 1000 ≤ 7500) ∧
    (start.powered = true ∧ start.firing.state ≠ .lockout) := by decide +kernel

theorem witness_HotWaterCausesMakeTheCall :
    (let s := hotWater (fun c => { c with mode := .gate }) start
     s.powered = true ∧ (1 : Int) ≤ 120 ∧ (120 : Int) ≤ 120 ∧ s.settings.hotWater.mode ≠ .off ∧
        s.firing.call = false ∧ s.inputs.request = !true) ∧
    (let s := controller (fun f => { f with call := true, timedCall := some 1 })
        (hotWater (fun c => { c with mode := .follow }) { start with inputs := { start.inputs with request := true } })
     s.powered = true ∧ s.firing.call = true ∧ s.inputs.request = !false ∧ s.settings.hotWater.mode = .follow) ∧
    (let s := hotWater (fun c => { c with mode := .pulse }) start
     s.powered = true ∧ s.inputs.request = !true ∧ s.settings.hotWater.mode = .pulse) ∧
    (start.powered = true ∧ start.settings.hotWater.mode = .off ∧ (1 : Int) ≤ 1) ∧ (120 : Int) < 121 ∧
    (let s := hotWater (fun c => { c with mode := .pulse, openTime := 1 }) start
     s.powered = true ∧ s.firing.call = false ∧ s.firing.report.path = 0 ∧ s.firing.dhwPath = false ∧
        0 < s.settings.hotWater.openTime ∧ s.firing.state = .idle) ∧
    (let s := controller (fun f => { f with
          state := .waitPath, pathWait := some 599, demand := ⟨Tab.ofFn fun z => if z = 4 then 3434 else 0, 16⟩ })
        (hotWater (fun c => { c with mode := .pulse }) start)
     s.powered = true ∧ s.firing.call = false ∧ s.firing.report.path = 0 ∧ s.firing.dhwPath = false ∧
        0 < s.settings.hotWater.openTime ∧ s.firing.state = .waitPath) ∧
    (let s := controller (fun f => { f with report := ⟨16, 0⟩ }) (hotWater (fun c => { c with mode := .pulse }) start)
     s.powered = true ∧ s.firing.call = false ∧ s.firing.report.path ≠ 0 ∧ s.inputs.interlock = false ∧
        s.firing.state = .idle) := by
  decide +kernel

theorem witness_FlameAndPathTimersAct :
    (let s := controller (fun f => { f with flameWait := some 120 }) (fired start)
     s.powered = true ∧ s.inputs.flame = !true ∧ s.inputs.fault = !true ∧ s.firing.state = .firing ∧
        s.firing.flameWait.isSome = true ∧ s.firing.pathWait = none) ∧
    (let s := controller (fun f => { f with state := .waitPath, pathWait := some 600 }) start
     s.powered = true ∧ s.firing.pathWait.isSome = true ∧ s.firing.flameWait = none) := by decide +kernel

theorem witness_PersistentFaultLocksOut :
    (let s := controller (fun f => { f with faultTimer := some 10, flow := some 7500 }) (fired start)
     s.powered = true ∧ s.firing.faultTimer.isSome = true ∧ s.firing.state ≠ .lockout ∧ s.firing.state = .firing ∧
        0 < s.settings.firing.minOff ∧ s.firing.flow = some 7500 ∧ s.firing.flowStatus ≠ .invalid ∧
        (after .faultPersistenceExpiry s).firing.pump = true ∧ s.settings.firing.bypass = false) ∧
    (let s := controller (fun f => { f with faultTimer := some 10 }) (lockedOut ⟨true, false, none, some 8610⟩ 8300 start)
     s.powered = true ∧ s.firing.faultTimer.isSome = true ∧ s.firing.lockout = some ⟨true, false, none, some 8610⟩ ∧
        s.firing.state = .lockout) ∧
    (let s := controller (fun f => { f with faultTimer := some 10 }) start
     s.powered = true ∧ s.firing.faultTimer.isSome = true ∧ s.firing.flowStatus = .invalid ∧
        s.firing.state ≠ .lockout) := by decide +kernel

/-- OVERRUN with the call and the path of `fired`, a hold set in force and permission to fire. -/
def overrunning (s : State) : State :=
  controller (fun f => { f with
    state := .overrun, burner := false, minOn := none, heating := none, ceiling := none, flowTarget := none, code := 0,
    overrun := some 0, hold := some ⟨16, false⟩ }) (fired s)

theorem witness_FiringTimersExpire :
    -- the min-on, the min-off and the overrun expiry
    ((let s := controller (fun f => { f with demand := ⟨Tab.all 0, 0⟩ }) (fired start)
      s.powered = true ∧ s.firing.state = .firing ∧ s.firing.minOn.isSome = true ∧ s.firing.anyCall = false ∧
         s.firing.pathExists = true ∧ 0 < s.settings.firing.overrun ∧ s.settings.firing.bypass = false) ∧
     (let s := controller (fun f => { f with report := ⟨16, 0⟩ })
         { fired start with settings := (fired start).settings.modFiring fun c => { c with overrun := 0 } }
      s.powered = true ∧ s.firing.state = .firing ∧ s.firing.minOn.isSome = true ∧ s.firing.anyCall = false ∧
         s.settings.firing.overrun = 0 ∧ s.firing.demand.calling ≠ 0 ∧
         (after .minOnExpiry s).firing.state = .waitPath) ∧
     (let s := fired start
      s.powered = true ∧ s.firing.state = .firing ∧ s.firing.minOn.isSome = true ∧
         s.firing.demand.calling &&& s.firing.report.ready ≠ 0 ∧ s.firing.report.path ≠ 0 ∧ s.inputs.interlock = true ∧
         s.firing.inhibitText = false ∧ s.firing.inhibitWire = false ∧ s.firing.flowStatus ≠ .invalid)) ∧
    ((let s := controller (fun f => { f with minOff := some 0 }) (held start)
      s.powered = true ∧ s.firing.state = .blocked ∧ s.firing.minOff.isSome = true ∧ s.firing.anyCall = true ∧
         s.firing.pathExists = true ∧ s.inputs.interlock = true ∧ s.firing.inhibitText = false ∧
         s.firing.inhibitWire = false ∧ s.firing.flowStatus ≠ .invalid) ∧
     (let s := controller (fun f => { f with minOff := some 0 }) (overrunning start)
      s.powered = true ∧ s.firing.state = .overrun ∧ s.firing.minOff.isSome = true ∧ s.firing.anyCall = true ∧
         s.firing.pathExists = true ∧ s.inputs.interlock = true ∧ s.firing.inhibitText = false ∧
         s.firing.inhibitWire = false ∧ s.firing.flowStatus ≠ .invalid ∧
         (after .minOffExpiry s).firing.state = .firing ∧ (after .minOffExpiry s).valves.latestHold = 0) ∧
     (let s := controller (fun f => { f with minOff := some 0, inhibitWire := true }) (overrunning start)
      s.powered = true ∧ s.firing.state = .overrun ∧ s.firing.minOff.isSome = true ∧ s.firing.inhibitWire = true ∧
         (after .minOffExpiry s).firing.state = .overrun) ∧
     (let s := controller (fun f => { f with minOff := some 0, inhibitWire := true }) (held start)
      s.powered = true ∧ s.firing.state = .blocked ∧ s.firing.minOff.isSome = true ∧ s.firing.overrun = none ∧
         s.firing.pathWait = none ∧ s.firing.demand.calling &&& s.firing.report.ready ≠ 0 ∧ s.firing.report.path ≠ 0)) ∧
    ((let s := controller (fun f => { f with state := .overrun, overrun := some 0, demand := ⟨Tab.all 0, 0⟩ }) (fired start)
      s.powered = true ∧ s.firing.state = .overrun ∧ s.firing.overrun.isSome = true ∧ s.firing.anyCall = false ∧
         s.firing.demand.calling = 0 ∧ s.firing.call = false) ∧
     (let s := controller (fun f => { f with state := .overrun, overrun := some 0, report := ⟨16, 0⟩ }) (fired start)
      s.powered = true ∧ s.firing.state = .overrun ∧ s.firing.overrun.isSome = true ∧ s.firing.anyCall = false ∧
         s.firing.demand.calling ≠ 0 ∧ s.firing.call = false) ∧
     (let s := overrunning start
      s.powered = true ∧ s.firing.state = .overrun ∧ s.firing.overrun.isSome = true ∧
         s.firing.demand.calling &&& s.firing.report.ready ≠ 0 ∧ s.firing.report.path ≠ 0 ∧ s.inputs.interlock = true ∧
         s.firing.inhibitText = false ∧ s.firing.inhibitWire = false ∧ s.firing.minOff = none ∧
         s.firing.flowStatus = .valid ∧ (after .overrunExpiry s).firing.state = .firing) ∧
     (let s := controller (fun f => { f with minOff := some 100 }) (overrunning start)
      s.powered = true ∧ s.firing.state = .overrun ∧ s.firing.overrun.isSome = true ∧
         s.firing.demand.calling &&& s.firing.report.ready ≠ 0 ∧ s.firing.report.path ≠ 0 ∧ s.firing.minOff ≠ none ∧
         (after .overrunExpiry s).firing.state = .blocked) ∧
     (let s := controller (fun f => { f with call := true, diverter := true, report := ⟨0, 0⟩ }) (overrunning start)
      s.powered = true ∧ s.firing.state = .overrun ∧ s.firing.overrun.isSome = true ∧ s.firing.call = true ∧
         s.firing.diverter = true ∧ s.firing.report.path = 0 ∧ s.firing.dhwPath = false ∧
         (after .overrunExpiry s).firing.state = .waitPath)) := by
  refine ⟨?_, ?_, ?_⟩ <;> decide +kernel

theorem witness_HotWaterTimersExpire :
    (let s := controller (fun f => { f with timedCall := some 0, call := true })
        (hotWater (fun c => { c with mode := .pulse }) start)
     s.powered = true ∧ s.firing.timedCall.isSome = true ∧ ownCondition s = false ∧ s.firing.call = true ∧
        s.firing.hold = none) ∧
    (let s := controller (fun f => { f with timedCall := some 0, call := true })
        (hotWater (fun c => { c with mode := .follow }) { start with inputs := { start.inputs with request := true } })
     s.powered = true ∧ s.firing.timedCall.isSome = true ∧ s.settings.hotWater.mode ≠ .off ∧ ownCondition s = true ∧
        s.firing.call = true) ∧
    (let s := controller (fun f => { f with call := true, priority := some 3600 }) (fired start)
     s.powered = true ∧ s.firing.priority.isSome = true ∧ s.settings.hotWater.maxPriority ≠ 0 ∧
        s.firing.heating = some 3200 ∧ s.firing.state = .firing ∧ s.firing.call = true) ∧
    (let s := requested
     s.powered = true ∧ s.firing.diverter = true ∧ s.firing.dhwPath = false ∧ s.firing.call = true ∧
        s.firing.state = .waitPath ∧ permitted s = true) ∧ CallKept requested :=
  ⟨by decide +kernel, by decide +kernel, by decide +kernel, by decide +kernel, requested_call⟩

theorem witness_FlowTargetFollowsRateCeiling :
    (let s := controller (fun f => { f with call := true, priority := some 0 }) (fired start)
     s.firing.state = .firing ∧ s.firing.ceiling = some 3200 ∧ s.firing.umax = 3434 ∧ s.firing.call = true ∧
        s.firing.priority.isSome = true) ∧
    (let s := controller (fun f => { f with ceiling := some 6354 }) (fired start)
     s.firing.state = .firing ∧ s.firing.ceiling = some 6354 ∧ s.firing.call = false) ∧
    ((fired start).firing.demand.calling.getLsbD 4 = true ∧ (fired start).firing.report.ready.getLsbD 4 = true) ∧
    (let s := measured 4 1985 (heated 4 2100 (fired start))
     s.powered = true ∧ s.firing.state = .firing ∧ s.firing.heating = some 3200 ∧ 0 < s.settings.firing.minOff ∧
        (after .pass s).firing.state = .firing) := by decide +kernel

theorem witness_SourceEventsActOnLinkedLines :
    (let s := worked 2 start
     s.settings.linked.get 3 = true ∧ s.settings.linked.get 4 = false ∧ (s.settings.events.get 4).enabled = true ∧
        (s.settings.events.get 4).kind = .lockoutOn) := by decide +kernel

theorem witness_LineWritesChangeTheirSet :
    start.powered = true ∧ (255 : Nat) < 256 ∧ ((256 : Int) < 0 ∨ 255 < (256 : Int)) ∧ ((-1 : Int) < 0 ∨ 255 < (-1 : Int)) := by
  decide +kernel

theorem witness_NoticesMergeAndAreRead :
    (let s := pendingAt .wire 12 528 start
     s.powered = true ∧ 65535 < 65536 ∧ (s.notices.of .wire).kinds.getLsbD 3 = true) ∧
    ((65536 : Int) < 0 ∨ 65535 < (65536 : Int)) ∧ Notice.portOverrun ∈ [Notice.clockChanged, .portOverrun] := by
  decide +kernel

theorem witness_SettingsAreStoredInRange :
    (start.powered = true ∧ paramOf 6 7 1 = some (.eventKind 7) ∧ movable (.eventKind 7) = [] ∧
      Param.minOn ≠ .eventKind 7 ∧ Param.minOn ∉ movable (.eventKind 7) ∧ paramOf 4 0 9 = none ∧
      paramOf 1 16 0 = none ∧ paramOf 1 15 2 = some (.frost 15) ∧ paramOf 2 17 1 = some (.filter 17)) ∧
    (let s := confirmingAt 5 start
     s.powered = true ∧ paramOf 3 7 0 = some (.valveZone 7) ∧ (s.settings.valves.get 7).zone = some 7 ∧
        0 < (s.valves.channels.get 7).outputDuty ∧ (s.valves.channels.get 7).state ≠ .fault ∧
        (s.valves.channels.get 7).endSwitch = false) ∧
    (let s := channel 7 (fun v => { v with state := .opening, outputDuty := 40, position := 60000 }) start
     s.powered = true ∧ paramOf 3 7 5 = some (.confirm 7) ∧ (s.settings.valves.get 7).confirm = .timer ∧
        (s.valves.channels.get 7).state = .opening ∧ 0 < (s.valves.channels.get 7).outputDuty ∧
        (s.valves.channels.get 7).endSwitch = false ∧
        ((after (.paramSet .text 3 7 5 1) s).valves.channels.get 7).confirmTimer = some 0) ∧
    (let s := channel 7 (fun v => { v with state := .opened, outputDuty := 40, position := 60000 }) start
     s.powered = true ∧ paramOf 3 7 5 = some (.confirm 7) ∧ (s.valves.channels.get 7).state = .opened ∧
        0 < (s.valves.channels.get 7).outputDuty ∧ (s.valves.channels.get 7).endSwitch = false) ∧
    (let s := channel 7 (fun v => { v with state := .closing, position := 30000 }) start
     s.powered = true ∧ paramOf 3 7 4 = some (.valveClose 7) ∧ (s.valves.channels.get 7).outputDuty = 0 ∧
        (s.valves.channels.get 7).state ≠ .fault) := by decide +kernel

theorem witness_LinkedSettingsMoveTogether :
    (let s := valveSet 15 ⟨some 15, 40, 50, 180, 240, .timer⟩ (fired start)
     s.powered = true ∧ 63 ≤ 63 ∧ (s.settings.valves.get 15).maxDuty < 63 ∧ 39 < (s.settings.valves.get 15).minDuty ∧
        40 ≤ (s.settings.valves.get 15).maxDuty ∧ (s.settings.valves.get 15).minDuty ≤ 40) ∧
    (let s := controller (fun f => { f with flow := some 6001 }) (fired start)
     s.powered = true ∧ (6000 : Int) ≤ 6000 ∧ (6000 : Int) ≤ 9500 ∧ s.firing.flow = some 6001 ∧
        s.firing.flowStatus ≠ .invalid ∧ (6000 : Int) < 6001 ∧ s.firing.state ≠ .lockout) ∧
    (let s := fired start
     s.powered = true ∧ s.firing.flow = some 4500 ∧ (4500 : Int) ≤ 9500 ∧ s.firing.state = .firing ∧
        s.firing.ceiling = some 3200 ∧ s.firing.heating = some 3200) ∧
    (start.powered = true ∧ start.firing.state ≠ .firing ∧ start.firing.priority = none) ∧
    (let s := controller (fun f => { f with call := true, priority := some 3600 }) (fired start)
     s.powered = true ∧ s.firing.priority = some 3600 ∧ 60 * 60 ≤ 3600 ∧ 3600 < 61 * 60) ∧
    (let s := controller (fun f => { f with
        state := .waitPath, call := true, diverter := true, diverterOn := 30, flow := some 4500, flowStatus := .valid,
        minOff := none }) { start with inputs := { start.inputs with interlock := true } }
     s.powered = true ∧ s.firing.diverter = true ∧ s.firing.dhwPath = false ∧ 30 ≤ s.firing.diverterOn ∧
        s.firing.diverterOn < 31 ∧ s.firing.call = true ∧ s.firing.state = .waitPath ∧ permitted s = true) := by
  decide +kernel

/-! ## States that the invariants hold in, in the middle of the part's work -/

/-- Whether an outcome is a next state. -/
def answers (o : Host.Outcome State Fault Refusal) : Bool :=
  match o with
  | .next _ => true
  | .fault _ => false
  | .refused _ => false

theorem answers_next {o : Host.Outcome State Fault Refusal} (h : answers o = true) : ∃ t, o = .next t := by
  cases o with
  | next t => exact ⟨t, rfl⟩
  | fault r => cases h
  | refused r => cases h

theorem factory_settings_in_range : SettingsInRange factorySettings where
  wireAddress := by decide
  zones := by
    intro z
    rw [show factorySettings.zones.get z = factoryZone z from Tab.get_ofFn _ _]
    exact ⟨by decide +revert, by decide +revert, by decide +revert, by decide +revert, by decide +revert,
      by decide +revert⟩
  capture := by
    intro c
    rw [show factorySettings.capture.get c = factoryChannel from Tab.get_all _ _]
    exact ⟨by decide, by decide⟩
  valves := by
    intro v
    rw [show factorySettings.valves.get v = factoryValve v from Tab.get_ofFn _ _]
    exact ⟨by decide +revert, by decide +revert, by decide +revert, by decide +revert⟩
  firing := ⟨by decide, by decide, by decide, by decide, by decide, by decide, by decide⟩
  hotWater := ⟨by decide, by decide, by decide, by decide, by decide⟩

/-- A part with the worked list in its active bank and a save of another bank in flight. -/
def stocked : State :=
  withList 0 3 listThree { start with
    store := { start.store with operation := some ⟨.bank 1 (emptyLists.set 5 [⟨96, 540, .off⟩]), .text⟩ }
    pending := [.saveCompletion true] }

theorem witness_StepsKeepStoredDataInRange :
    SettingsKept stocked ∧ BanksKept stocked ∧ ∃ t, step stocked = .next t := by
  refine ⟨?_, ?_, answers_next (by decide +kernel)⟩
  · rintro c (rfl | rfl | ⟨o, ho, hc⟩)
    · exact factory_settings_in_range
    · exact factory_settings_in_range
    · cases ho
      cases hc
  · have ram : ∀ b, ListsInOrder (stocked.program.banks.get b).lists := by
      unfold ListsInOrder ListInOrder
      decide +kernel
    have stored : ∀ b, ListsInOrder (stocked.store.banks.get b).content := by
      unfold ListsInOrder ListInOrder
      decide +kernel
    have saved : ListsInOrder (emptyLists.set 5 [⟨96, 540, .off⟩]) := by
      unfold ListsInOrder ListInOrder
      decide +kernel
    rintro lists (⟨b, rfl⟩ | ⟨b, rfl⟩ | ⟨o, b, ho, hl⟩)
    · exact ram b
    · exact stored b
    · cases ho
      cases hl
      exact saved

/-- The worked table at Tuesday 19:00, at a minute boundary. -/
def scheduled : State := resolve { withSlots sevenSlots (at_ 1 1140 59 start) with pending := [.secondBoundary] }

theorem witness_StepsKeepOverrideTable :
    TableKept scheduled ∧ SetpointsResolved scheduled ∧ ∃ t, step scheduled = .next t := by
  refine ⟨⟨by unfold ClockInRange; decide +kernel, by decide +kernel, by decide +kernel, ?_⟩, ?_,
    answers_next (by decide +kernel)⟩
  · intro o ho
    change o ∈ sevenSlots at ho
    simp only [sevenSlots, List.mem_cons, List.not_mem_nil, or_false] at ho
    rcases ho with rfl | rfl | rfl | rfl | rfl | rfl | rfl
    · trivial
    · trivial
    · exact ⟨rfl, by decide, by decide, by decide +kernel⟩
    all_goals trivial
  · intro z
    exact Tab.get_ofFn _ _

/-- A zone in frost protection and one at rest, before a pass. -/
def frosty : State :=
  { heated 11 500 start with
    regulator := { start.regulator with
      priorityInForce := true
      zones := start.regulator.zones.modify 11 fun r => { r with frost := true, delivered := 4096, calling := true } }
    pending := [.pass] }

theorem witness_StepsKeepRegulatorRecords : SettingsKept frosty ∧ RecordsKept frosty ∧ ∃ t, step frosty = .next t := by
  refine ⟨?_, ?_, answers_next (by decide +kernel)⟩
  · rintro c (rfl | rfl | ⟨o, ho, _⟩)
    · exact { factory_settings_in_range with
        zones := by
          intro z
          change ZoneInRange ((factorySettings.zones.modify 11 fun c => { c with enabled := true }).get z)
          rw [Tab.get_modify]
          have h := factory_settings_in_range.zones z
          split
          · exact ⟨h.base, h.frost, h.band, h.integralTime, h.fallback, h.staleness⟩
          · exact h }
    · exact factory_settings_in_range
    · cases ho
  · have all : ∀ z, let r := frosty.regulator.zones.get z
        (0 ≤ r.integral ∧ r.integral ≤ 1048576) ∧ (0 ≤ r.demand ∧ r.demand ≤ 4096) ∧
        (0 ≤ r.delivered ∧ r.delivered ≤ 4096) ∧ r.calling = decide (0 < r.delivered) ∧
        (r.frost = true → r.delivered = 4096) ∧
        (frosty.regulator.priorityInForce = true → r.frost = false → r.delivered = 0) := by decide +kernel
    intro z
    obtain ⟨h1, h2, h3, h4, h5, h6⟩ := all z
    exact ⟨h1, h2, h3, h4, h5, h6⟩

/-- A part in FIRING, before an update of its valve driver. -/
def burning : State := { fired start with pending := [.valveUpdate] }

theorem burning_lines : LinesKept burning :=
  ⟨by decide +kernel, by decide +kernel, by decide +kernel, by decide +kernel, fun _ => .inl (.inl (by decide +kernel)),
    fun _ => ⟨fun h => absurd h (by decide +kernel), fun h => absurd h (by decide +kernel),
      fun h => absurd h (by decide +kernel)⟩,
    by decide +kernel⟩

theorem burning_call : CallKept burning := by
  refine ⟨?_, ?_, ?_, ?_, ?_⟩ <;> decide +kernel

theorem burning_settings : SettingsKept burning := by
  rintro c (rfl | rfl | ⟨o, ho, _⟩)
  · exact factory_settings_in_range
  · exact factory_settings_in_range
  · cases ho

theorem burning_demand : DemandInRange burning.firing.demand := by
  unfold DemandInRange
  decide +kernel

theorem witness_StepsKeepValveDriver :
    SettingsKept burning ∧ DutiesKept burning ∧ ChannelsKept burning ∧ ReportsCurrent burning ∧
      ∃ t, step burning = .next t := by
  have duties : ∀ v, let c := burning.settings.valves.get v
      let x := burning.valves.channels.get v
      (x.outputDuty = if x.state = .fault then 0 else max x.demandDuty (if x.hold then c.maxDuty else 0)) ∧
      (x.demandDuty = 0 ∨ (c.minDuty ≤ x.demandDuty ∧ x.demandDuty ≤ c.maxDuty)) ∧
      (x.outputDuty = 0 ∨ (c.minDuty ≤ x.outputDuty ∧ x.outputDuty ≤ c.maxDuty)) ∧
      x.demandDuty ≤ 63 ∧ x.outputDuty ≤ 63 := by decide +kernel
  have channels : ∀ v, let x := burning.valves.channels.get v
      x.running = decide (0 < x.outputDuty) ∧
      (x.running = false → x.cycleTime = 0 ∧ x.appliedDuty = 0 ∧ x.drive = false) ∧
      (x.state = .fault → x.outputDuty = 0 ∧ x.position = 0 ∧ x.confirmTimer = none) ∧
      (x.state ≠ .fault → x.outputDuty = 0 → x.state = undriven x.position) ∧
      (0 < x.outputDuty → x.state = .opening ∨ x.state = .opened) ∧ x.position ≤ 60000 := by decide +kernel
  refine ⟨burning_settings, ?_, ?_, by unfold ReportsCurrent; decide +kernel, answers_next (by decide +kernel)⟩
  · intro v
    obtain ⟨h1, h2, h3, h4, h5⟩ := duties v
    exact ⟨h1, h2, h3, h4, h5⟩
  · intro v
    obtain ⟨h1, h2, h3, h4, h5, h6⟩ := channels v
    exact ⟨h1, h2, h3, h4, h5, h6⟩

theorem witness_StepsKeepBurnerSafe :
    LinesKept burning ∧ CallKept burning ∧ ReadyHasPath burning.firing.report ∧ ∃ t, step burning = .next t :=
  ⟨burning_lines, burning_call, by unfold ReadyHasPath; decide +kernel, answers_next (by decide +kernel)⟩

theorem witness_StepsKeepCallWithCauses : CallKept burning ∧ ∃ t, step burning = .next t :=
  ⟨burning_call, answers_next (by decide +kernel)⟩

theorem witness_StepsKeepTargetsBelowLimit :
    SettingsKept burning ∧ DemandInRange burning.firing.demand ∧ TargetsKept burning ∧ ∃ t, step burning = .next t := by
  refine ⟨burning_settings, burning_demand, ⟨by decide +kernel, by decide +kernel, ?_, ?_, ?_, by decide +kernel⟩,
    answers_next (by decide +kernel)⟩
  · rintro h hh
    cases hh
    decide
  · rintro h hh
    cases hh
    decide
  · rintro t ht
    cases ht
    decide

/-- A part in LOCKOUT that can be cleared. -/
def locked : State :=
  { lockedOut ⟨true, false, none, some 8610⟩ 7499 start with pending := [.lockoutClear .text] }

theorem witness_StepsKeepLockoutRecord :
    LockoutKept locked ∧ locked.firing.state = .lockout ∧
      (after (.lockoutClear .text) locked).firing.state ≠ .lockout ∧ ∃ t, step locked = .next t := by
  refine ⟨⟨by decide +kernel, ?_⟩, by decide +kernel, by decide +kernel, answers_next (by decide +kernel)⟩
  rintro l hl
  cases hl
  decide

/-- A text port with its buffer and its queue full. -/
def full : State :=
  { typed (List.replicate 64 'A') { start with text := { start.text with
      places := List.replicate 4 (.ready (.er .range)) } } with pending := [.textCharacter 13 false] }

theorem witness_StepsKeepPortsWithinBounds : PortsKept full ∧ ∃ t, step full = .next t :=
  by
  refine ⟨⟨by decide +kernel, by decide +kernel, by decide +kernel, by decide +kernel, ?_⟩,
    answers_next (by decide +kernel)⟩
  rintro t ht
  cases ht

/-- One second on an empty queue: the clock counts (R5) and the min-off timer runs down (R127). -/
theorem test_idle_second :
    (match step (at_ 1 1438 58 start) with
     | .next t => (t.clock.minute, t.clock.second, t.firing.minOff)
     | .fault _ | .refused _ => (0, 0, none)) = (1438, 59, some 299) := by decide +kernel

/-- R61 in such a second: a TIMING channel whose input stands still has its timeout. -/
theorem test_idle_second_times_out :
    (match step (timing 4 100 21598 2 1 start) with
     | .next t => ((t.capture.channels.get 4).timing, (t.capture.channels.get 4).count)
     | .fault _ | .refused _ => (true, 0)) = (false, 2) := by decide +kernel

end Sys2Proof.Tests
end

namespace Sys2Proof.Machine

/-! ## The arithmetic of the part (R3) -/

/-- The convergent quotient: within half a unit of the exact quotient of a by b, and even where it is exactly half a unit
away (R3). -/
def NearestEven (a b q : Int) : Prop :=
  2 * (a - b * q) ≤ b ∧ -b ≤ 2 * (a - b * q) ∧
    (2 * (a - b * q) = b ∨ 2 * (a - b * q) = -b → q % 2 = 0)

/-- The branches of the division meet the convergent quotient's bounds: the remainder below half a unit, above it, and at
it beside an even or an odd floor. -/
theorem divRound_nearestEven (a b : Int) (hb : 0 < b) : NearestEven a b (divRound a b) := by
  have hfloor : a - b * (a / b) = a % b := (Int.emod_def a b).symm
  have hceil : a - b * (a / b + 1) = a % b - b := by rw [mul_add, mul_one]; omega
  have hnonneg : 0 ≤ a % b := Int.emod_nonneg a (by omega)
  have hlt : a % b < b := Int.emod_lt_of_pos a hb
  unfold divRound NearestEven
  dsimp only
  split_ifs with hbelow habove heven
  · rw [hfloor]; omega
  · rw [hceil]; omega
  · rw [hfloor]; omega
  · rw [hceil]; omega

/-- A convergent quotient is no greater than another: one unit apart, both would be exact halves, and neighbours are not
both even. -/
theorem NearestEven.le {a b q q' : Int} (hb : 0 < b) (h : NearestEven a b q) (h' : NearestEven a b q') : q ≤ q' := by
  obtain ⟨-, hlow, heven⟩ := h
  obtain ⟨hhigh', -, heven'⟩ := h'
  by_contra hlt
  have hnext : q = q' + 1 := by
    have : b * (q - q') ≤ b * 1 := by rw [mul_sub]; omega
    have := le_of_mul_le_mul_left this hb
    omega
  subst hnext
  rw [mul_add, mul_one] at hlow heven
  have hodd := heven (by omega)
  have := heven' (by omega)
  omega

theorem NearestEven.unique {a b q q' : Int} (hb : 0 < b) (h : NearestEven a b q) (h' : NearestEven a b q') : q = q' :=
  le_antisymm (h.le hb h') (h'.le hb h)

theorem NearestEven.neg {a b q : Int} (h : NearestEven a b q) : NearestEven (-a) b (-q) := by
  obtain ⟨hhigh, hlow, heven⟩ := h
  unfold NearestEven
  rw [mul_neg]
  refine ⟨by omega, by omega, fun hhalf => ?_⟩
  have := heven (by omega)
  omega

/-- Negative values round symmetrically (R3). -/
theorem divRound_neg (a b : Int) (hb : 0 < b) : divRound (-a) b = -divRound a b :=
  (divRound_nearestEven (-a) b hb).unique hb (divRound_nearestEven a b hb).neg

theorem clamp_of_lt {lo v : Int} (hi : Int) (h : v < lo) : clamp lo hi v = lo := if_pos h

theorem clamp_of_gt {lo hi v : Int} (hle : lo ≤ hi) (h : hi < v) : clamp lo hi v = hi := by
  rw [clamp, if_neg (by omega), if_pos h]

theorem clamp_of_mem {lo hi v : Int} (hlo : lo ≤ v) (hhi : v ≤ hi) : clamp lo hi v = v := by
  rw [clamp, if_neg (by omega), if_neg (by omega)]

/-- Settles O34: the quotient is the one convergent quotient, which negation carries to that of the negated value. -/
theorem arithmeticRoundsConvergently : Obligations.ArithmeticRoundsConvergently := by
  refine ⟨fun a b hb => ?_, fun v => mul_comm _ _, fun lo hi v hle =>
    ⟨clamp_of_lt hi, clamp_of_gt hle, clamp_of_mem⟩⟩
  obtain ⟨hhigh, hlow, heven⟩ := divRound_nearestEven a b hb
  exact ⟨hhigh, hlow, heven, divRound_neg a b hb⟩

/-! ## The ring of the week (R2) -/

theorem ordinal_lt {t : WeekTime} (hday : t.day < 7) (hminute : t.minute < 1440) : t.ordinal < 10080 := by
  simp only [WeekTime.ordinal, Config.minutesPerDay]
  omega

/-- The distance to an end is at least a minute and at most a week, and leads from the current minute to the end (R45). -/
theorem distanceToEnd_spec {now finish : WeekTime} (hnow : now.ordinal < 10080) (hfinish : finish.ordinal < 10080) :
    1 ≤ distanceToEnd now finish ∧ distanceToEnd now finish ≤ 10080 ∧
      (now.ordinal + distanceToEnd now finish) % 10080 = finish.ordinal := by
  unfold distanceToEnd minutesAhead Config.minutesPerWeek
  split <;> omega

/-! ## A command that raises no event -/

/-- A command whose block leaves the list of source events alone: its block's changes and the delivery's are all there is,
and what the delivery does not touch is as the block left it. -/
theorem command_of_keeps {l : List Part} (c : Instr) (p : Port) {block : State → State × Response} {s u : State}
    {r : Response} (hp : s.powered = true) (hb : block (nothingRaised s) = (u, r)) (hk : Keeps l (nothingRaised s) u)
    (hl : .raised ∉ l) :
    ∃ t, command c p block s = .next t ∧ Keeps (responseParts ++ l) s t ∧ t.answered = some (p, r) ∧
      Keeps (.raised :: responseParts) u t := by
  have hquiet : u.raised = [] := hk .raised hl
  have hrow := command_powered c p block s hp
  rw [hb, eventsTaken_of_nil hquiet] at hrow
  have hdelivered := deliver_keeps c p r (setRaised s.raised u)
  refine ⟨_, hrow, fun part hpart => ?_, deliver_answered _ _ _ _, fun part hpart => ?_⟩
  · rw [List.mem_append, not_or] at hpart
    have hblock := hk part hpart.2
    have := hdelivered part hpart.1
    by_cases hraised : part = .raised
    · subst hraised; exact this
    · exact part.same_trans (by cases part <;> first | exact hblock | exact absurd rfl hraised) this
  · rw [List.mem_cons, not_or] at hpart
    have := hdelivered part hpart.2
    exact part.same_trans (by cases part <;> first | rfl | exact absurd rfl hpart.1) this

/-! ## The slots of the override table -/

theorem withoutZone_eq_self {s : State} {z : Fin 16} (h : slotOf s z = none) :
    withoutZone s.overrides.slots z = s.overrides.slots := by
  rw [withoutZone, List.filter_eq_self]
  simpa [slotOf] using h

theorem putSlots_keeps (slots : List Slot) (s : State) : Keeps [.overrides] s (putSlots slots s) := by
  intro part hp
  cases part <;> first | rfl | (simp at hp)

/-- The effective setpoints are resolved from the slots put in place (R55). -/
theorem putSlots_resolved (slots : List Slot) (s : State) : SetpointsResolved (putSlots slots s) := fun z =>
  Tab.get_ofFn _ z

theorem post_keeps (p : Port) (n : Notice) (s : State) : Keeps [.notices] s (post p n s) := by
  intro part hp
  cases part <;> first | rfl | (simp at hp)

/-- Resolved setpoints stay resolved where the table and all that it is resolved from are kept (R54). -/
theorem SetpointsResolved.of_keeps {l : List Part} {s t : State} (h : SetpointsResolved s) (hk : Keeps l s t)
    (hl : ∀ part ∈ [Part.overrides, .clock, .program, .settings], part ∉ l) : SetpointsResolved t := by
  have ho : t.overrides = s.overrides := hk .overrides (hl _ (by decide))
  have hc : t.clock = s.clock := hk .clock (hl _ (by decide))
  have hp : t.program = s.program := hk .program (hl _ (by decide))
  have hs : t.settings = s.settings := hk .settings (hl _ (by decide))
  intro z
  have := h z
  simpa only [effectiveSetpoint, basis, slotOf, scheduledTarget, ho, hc, hp, hs] using this

theorem postChangedBy_keeps (p : Port) (o : Slot) (s : State) : Keeps [.notices] s (postChangedBy p o s) := by
  unfold postChangedBy
  split
  · exact Keeps.refl _ _
  · exact post_keeps _ _ _

theorem putOnTop_keeps (o : Slot) (s : State) : Keeps [.overrides] s (putOnTop o s) := putSlots_keeps _ _

theorem evict_keeps (s : State) : Keeps [.overrides, .notices] s (evict s) := by
  unfold evict
  split
  · exact ((putSlots_keeps _ _).mono (by simp)).trans ((post_keeps _ _ _).mono (by simp))
  · exact Keeps.refl _ _

/-- Eviction finds a slot exactly where one is no HOLD (R44). -/
theorem victim_isSome_iff (slots : List Slot) : (victim slots).isSome = true ↔ ∃ o ∈ slots, o.kind ≠ .hold := by
  simp [victim, Slot.isHold]

/-! ## Writing a slot -/

/-- Over the zone's own slot nothing is evicted (R43, R46). -/
theorem writeSlot_of_slot (p : Port) {z : Fin 16} (sp : Option Int) (k : Kind) {s : State} {o : Slot}
    (h : slotOf s z = some o) :
    writeSlot p z sp k s =
      (postChangedBy p o (putOnTop (writtenSlot p z sp k s) s), .ok [num (setpointField sp), num 16]) := by
  simp only [writeSlot, h]

/-- In a table with room nothing is evicted (R42). -/
theorem writeSlot_of_room (p : Port) {z : Fin 16} (sp : Option Int) (k : Kind) {s : State} (h : slotOf s z = none)
    (hroom : s.overrides.slots.length < 8) :
    writeSlot p z sp k s = (putOnTop (writtenSlot p z sp k s) s, .ok [num (setpointField sp), num 16]) := by
  have hnotFull : ¬ 8 ≤ s.overrides.slots.length := by omega
  simp [writeSlot, h, tableFull, makeRoom, evicts, evictedField, Config.slotCount, hnotFull]

/-- In a full table the victim makes room (R44). -/
theorem writeSlot_of_victim (p : Port) {z : Fin 16} (sp : Option Int) (k : Kind) {s : State} {v : Slot}
    (h : slotOf s z = none) (hfull : 8 ≤ s.overrides.slots.length) (hv : victim s.overrides.slots = some v) :
    writeSlot p z sp k s =
      (putOnTop (writtenSlot p z sp k s) (evict s), .ok [num (setpointField sp), num v.zone.val]) := by
  simp [writeSlot, h, tableFull, makeRoom, evicts, evictedField, Config.slotCount, hfull, hv, count, num]

/-- A state with a zone's slot written at the top, over the slots `rest`: the setpoints are resolved, and nothing but the
table and the notices has changed. -/
structure SlotWritten (w : Slot) (rest : List Slot) (s t : State) : Prop where
  slots : t.overrides.slots = w :: rest
  resolved : SetpointsResolved t
  keeps : Keeps [.overrides, .notices] s t

theorem putOnTop_slotWritten (w : Slot) {s u : State} (h : Keeps [.overrides, .notices] s u) :
    SlotWritten w (withoutZone u.overrides.slots w.zone) s (putOnTop w u) where
  slots := rfl
  resolved := putSlots_resolved _ _
  keeps := h.trans ((putOnTop_keeps w u).mono (by simp))

theorem SlotWritten.postChangedBy {w : Slot} {rest : List Slot} {s t : State} (h : SlotWritten w rest s t) (p : Port)
    (o : Slot) : SlotWritten w rest s (postChangedBy p o t) where
  slots := (congrArg Overrides.slots (postChangedBy_keeps p o t .overrides (by decide))).trans h.slots
  resolved := h.resolved.of_keeps (postChangedBy_keeps p o t) (by decide)
  keeps := h.keeps.trans ((postChangedBy_keeps p o t).mono (by simp))

/-- Where the zone has a slot, the table has room or a slot can be evicted, the write is accepted: over the zone's own
slot, beside all others, or beside those that eviction leaves (R42 to R44). -/
theorem writeSlot_accepted (p : Port) (z : Fin 16) (sp : Option Int) (k : Kind) (s : State)
    (h : (slotOf s z).isSome = true ∨ s.overrides.slots.length < 8 ∨ ∃ o ∈ s.overrides.slots, o.kind ≠ .hold) :
    ∃ u rest evicted, writeSlot p z sp k s = (u, .ok [.word (sp.getD 0), .word evicted]) ∧
      SlotWritten (writtenSlot p z sp k s) rest s u ∧
      ((slotOf s z).isSome = true → rest = withoutZone s.overrides.slots z ∧ evicted = 16) ∧
      (slotOf s z = none → s.overrides.slots.length < 8 →
        rest = s.overrides.slots ∧ evicted = 16 ∧ u.notices = s.notices) := by
  cases hslot : slotOf s z with
  | some o =>
    exact ⟨_, _, 16, writeSlot_of_slot p sp k hslot, (putOnTop_slotWritten _ (Keeps.refl _ s)).postChangedBy p o,
      fun _ => ⟨rfl, rfl⟩, nofun⟩
  | none =>
    by_cases hroom : s.overrides.slots.length < 8
    · exact ⟨_, _, 16, writeSlot_of_room p sp k hslot hroom, putOnTop_slotWritten _ (Keeps.refl _ s), nofun,
        fun _ _ => ⟨withoutZone_eq_self hslot, rfl, putOnTop_keeps _ s .notices (by decide)⟩⟩
    · have hunheld : ∃ o ∈ s.overrides.slots, o.kind ≠ .hold := by simpa [hslot, hroom] using h
      obtain ⟨v, hv⟩ := Option.isSome_iff_exists.1 ((victim_isSome_iff _).2 hunheld)
      exact ⟨_, _, _, writeSlot_of_victim p sp k hslot (by omega) hv, putOnTop_slotWritten _ (evict_keeps s), nofun,
        fun _ hlt => absurd hlt hroom⟩

/-- A command whose block writes a slot answers next with the slot at the top, the setpoints resolved, the block's response
and the block's notices. -/
theorem command_of_slotWritten (c : Instr) (p : Port) {block : State → State × Response} {s u : State} {r : Response}
    {w : Slot} {rest : List Slot} (hp : s.powered = true) (hb : block (nothingRaised s) = (u, r))
    (hw : SlotWritten w rest (nothingRaised s) u) :
    ∃ t, command c p block s = .next t ∧ Keeps (responseParts ++ [.overrides, .notices]) s t ∧ SetpointsResolved t ∧
      t.overrides.slots = w :: rest ∧ t.answered = some (p, r) ∧ t.notices = u.notices := by
  obtain ⟨t, hnext, hkeeps, hanswer, hu⟩ := command_of_keeps c p hp hb hw.keeps (by decide)
  have hoverrides : t.overrides = u.overrides := hu .overrides (by decide)
  exact ⟨t, hnext, hkeeps, hw.resolved.of_keeps hu (by decide), by rw [hoverrides, hw.slots], hanswer,
    hu .notices (by decide)⟩

/-! ## OVR SET of kind UNTIL -/

theorem endOf_val (day : Fin 7) (minute : Fin 1440) :
    endOf (some day.val) (some minute.val) = some ⟨day.val, minute.val⟩ := by
  simp [endOf]

/-- With a VALID clock an UNTIL override is written with the distance to its end (R45). -/
theorem ovrSetBlock_until (p : Port) (z : Fin 16) (v : Int) (day : Fin 7) (minute : Fin 1440) {s : State}
    (h : s.clock.valid = true) :
    ovrSetBlock p z.val v 1 (some day.val) (some minute.val) s =
      writeSlot p z (givenSetpoint v)
        (.untilTime ⟨day.val, minute.val⟩ (distanceToEnd ⟨s.clock.day, s.clock.minute⟩ ⟨day.val, minute.val⟩)) s := by
  simp only [ovrSetBlock, index_val, endOf_val, Clock.now, h, if_true]
  rfl

/-- An INVALID clock gives no distance (R42). -/
theorem ovrSetBlock_until_invalid (p : Port) (z : Fin 16) (v : Int) (day : Fin 7) (minute : Fin 1440) {s : State}
    (h : s.clock.valid = false) :
    ovrSetBlock p z.val v 1 (some day.val) (some minute.val) s = (s, refuse .clock) := by
  simp [ovrSetBlock, endOf_val, Clock.now, h]

theorem exec_ovrSet (p : Port) (zone setpoint kind : Int) (endDay endMinute : Option Int) (s : State) :
    exec (.ovrSet p zone setpoint kind endDay endMinute) s =
      command (.ovrSet p zone setpoint kind endDay endMinute) p
        (ovrSetBlock p zone setpoint kind endDay endMinute) s := rfl

/-- Settles O27: with a VALID clock the command is a slot write, whose three cases are those of `writeSlot_accepted`; the
minutes remaining are the distance around the ring of the week. -/
theorem untilOverrideMeasuresItsEnd : Obligations.UntilOverrideMeasuresItsEnd := by
  intro p z v day minute s hp
  constructor
  · intro hvalid haccept
    have hblock := ovrSetBlock_until p z v day minute (s := nothingRaised s) hvalid
    obtain ⟨u, rest, evicted, hwrite, hw, hown, hroom⟩ := writeSlot_accepted p z (givenSetpoint v)
      (.untilTime ⟨day.val, minute.val⟩ (distanceToEnd ⟨s.clock.day, s.clock.minute⟩ ⟨day.val, minute.val⟩))
      (nothingRaised s) haccept
    obtain ⟨t, hnext, hkeeps, hresolved, hslots, hanswer, hnotices⟩ := command_of_slotWritten
      (.ovrSet p z.val v 1 (some day.val) (some minute.val)) p hp (hblock.trans hwrite) hw
    have hcreated : s.clock.now = some ⟨s.clock.day, s.clock.minute⟩ := if_pos hvalid
    refine ⟨t, distanceToEnd ⟨s.clock.day, s.clock.minute⟩ ⟨day.val, minute.val⟩, rest, evicted, hnext, hkeeps,
      hresolved, ?_, hanswer, hown, ?_, ?_⟩
    · rw [hslots, ← hcreated]
      rfl
    · intro hnone hlt
      obtain ⟨hrest, hevicted, hsame⟩ := hroom hnone hlt
      exact ⟨hrest, hevicted, hnotices.trans hsame⟩
    · intro hday hminute
      exact distanceToEnd_spec (ordinal_lt hday hminute) (ordinal_lt day.isLt minute.isLt)
  · intro hinvalid
    exact refused_powered _ p _ .clock s hp (ovrSetBlock_until_invalid p z v day minute hinvalid)

end Sys2Proof.Machine

namespace Sys2Proof.Machine

/-! ## What a port's record shows after a post (R173) -/

theorem Notices.of_put (u : Notices) (p q : Port) (r : PortNotices) :
    (u.put p r).of q = if q = p then r else u.of q := by
  cases p <;> cases q <;> rfl

/-- A post adds its own kind to those pending. -/
theorem PortNotices.take_kinds (r : PortNotices) (n : Notice) :
    (r.take n).kinds = r.kinds ||| single 16 n.bit := by
  cases n <;> rfl

theorem Notice.bit_lt (n : Notice) : n.bit < 16 := by
  cases n <;> simp [Notice.bit]

theorem PortNotices.take_kinds_getLsbD (r : PortNotices) (n : Notice) (k : Nat) :
    (r.take n).kinds.getLsbD k = (k == n.bit || r.kinds.getLsbD k) := by
  rw [take_kinds, BitVec.getLsbD_or, getLsbD_single _ _ n.bit_lt, Bool.or_comm, beq_eq_decide]

/-- A posted set is merged into that of a pending kind (R173). -/
theorem mergeScope_getLsbD {n : Nat} (pending : Bool) (held posted : BitVec n) (k : Nat) :
    (mergeScope pending held posted).getLsbD k = (posted.getLsbD k || (pending && held.getLsbD k)) := by
  cases pending <;> simp [mergeScope, Bool.or_comm]

/-- OVERRIDE_ENDED of a zone is merged into a pending set, and stands alone where none is pending (R173). -/
theorem PortNotices.take_overrideEnded_getLsbD (r : PortNotices) (z y : Fin 16) :
    (r.take (.overrideEnded (zoneSet z))).overrideEnded.getLsbD y.val =
      (decide (y = z) || (r.kinds.getLsbD 4 && r.overrideEnded.getLsbD y.val)) := by
  have hmerge : (r.take (.overrideEnded (zoneSet z))).overrideEnded =
      mergeScope (r.kinds.getLsbD 4) r.overrideEnded (zoneSet z) := rfl
  rw [hmerge, mergeScope_getLsbD, zoneSet, getLsbD_single _ _ z.isLt]
  simp only [Fin.ext_iff]

/-! ## The ports that are told of ended overrides -/

/-- The records after OVERRIDE_ENDED has gone to the origin port of each ended slot, in order. -/
def tellEnded (ended : List Slot) (u : Notices) : Notices :=
  ended.foldl (fun u o => u.put o.origin ((u.of o.origin).take (.overrideEnded (zoneSet o.zone)))) u

theorem tellEnded_cons (o : Slot) (ended : List Slot) (u : Notices) :
    tellEnded (o :: ended) u =
      tellEnded ended (u.put o.origin ((u.of o.origin).take (.overrideEnded (zoneSet o.zone)))) := rfl

theorem tellEnded_append (a b : List Slot) (u : Notices) : tellEnded (a ++ b) u = tellEnded b (tellEnded a u) :=
  List.foldl_append

/-- What is posted is exactly what `tellEnded` says, and it is all that is posted. -/
theorem postEnded_notices (ended : List Slot) (s : State) :
    (postEnded ended s).notices = tellEnded ended s.notices := by
  induction ended generalizing s with
  | nil => rfl
  | cons o ended ih => exact ih _

/-- No kind but OVERRIDE_ENDED becomes pending. -/
theorem tellEnded_kinds_of_ne (ended : List Slot) (u : Notices) (p : Port) {k : Nat} (h : k ≠ 4) :
    ((tellEnded ended u).of p).kinds.getLsbD k = (u.of p).kinds.getLsbD k := by
  induction ended generalizing u with
  | nil => rfl
  | cons o ended ih =>
    rw [tellEnded_cons, ih, Notices.of_put]
    split
    · next hp => simp [PortNotices.take_kinds_getLsbD, Notice.bit, h, hp]
    · rfl

/-- A port of none of the ended slots is told nothing. -/
theorem tellEnded_of_unconcerned {ended : List Slot} {p : Port} (h : ∀ o ∈ ended, o.origin ≠ p) (u : Notices) :
    (tellEnded ended u).of p = u.of p := by
  induction ended generalizing u with
  | nil => rfl
  | cons o ended ih =>
    obtain ⟨ho, hrest⟩ := List.forall_mem_cons.1 h
    rw [tellEnded_cons, ih hrest, Notices.of_put, if_neg ho.symm]

/-- A record that tells of a zone's ended override. -/
def PortNotices.TellsEnded (r : PortNotices) (z : Fin 16) : Prop :=
  r.kinds.getLsbD 4 = true ∧ r.overrideEnded.getLsbD z.val = true

theorem PortNotices.tellsEnded_take (r : PortNotices) (z : Fin 16) :
    (r.take (.overrideEnded (zoneSet z))).TellsEnded z := by
  rw [TellsEnded, take_kinds_getLsbD, take_overrideEnded_getLsbD]
  exact ⟨rfl, by simp⟩

theorem PortNotices.TellsEnded.take {r : PortNotices} {z : Fin 16} (h : r.TellsEnded z) (y : Fin 16) :
    (r.take (.overrideEnded (zoneSet y))).TellsEnded z := by
  rw [TellsEnded, take_kinds_getLsbD, take_overrideEnded_getLsbD, h.1, h.2]
  exact ⟨rfl, by simp⟩

/-- What a port has been told of is not withdrawn by further ends. -/
theorem PortNotices.TellsEnded.tellEnded {u : Notices} {p : Port} {z : Fin 16} (h : (u.of p).TellsEnded z)
    (ended : List Slot) : ((tellEnded ended u).of p).TellsEnded z := by
  induction ended generalizing u with
  | nil => exact h
  | cons o ended ih =>
    refine ih ?_
    rw [Notices.of_put]
    split
    · next hp => subst hp; exact h.take _
    · exact h

/-- The origin port of every ended slot tells of its zone. -/
theorem tellEnded_tells {ended : List Slot} {o : Slot} (h : o ∈ ended) (u : Notices) :
    ((tellEnded ended u).of o.origin).TellsEnded o.zone := by
  induction ended generalizing u with
  | nil => exact absurd h (List.not_mem_nil)
  | cons x ended ih =>
    rcases List.mem_cons.1 h with rfl | h
    · refine PortNotices.TellsEnded.tellEnded ?_ ended
      rw [Notices.of_put, if_pos rfl]
      exact PortNotices.tellsEnded_take _ _
    · exact ih h _

/-! ## Passes over the override table -/

/-- A pass over the override table from s to t: `kept` says what becomes of each slot, no slot changes its zone or its
origin, and the origin ports of the slots that ended, and of no others, are told. -/
structure SlotsPass (kept : Slot → Option Slot) (s t : State) : Prop where
  slots : t.overrides.slots = s.overrides.slots.filterMap kept
  same : ∀ o o', kept o = some o' → o'.zone = o.zone ∧ o'.origin = o.origin
  told : ∃ ended, t.notices = tellEnded ended s.notices ∧
    (∀ o ∈ s.overrides.slots, kept o = none → ∃ e ∈ ended, e.zone = o.zone ∧ e.origin = o.origin) ∧
    (∀ e ∈ ended, ∃ o ∈ s.overrides.slots, kept o = none ∧ e.origin = o.origin)

/-- Where the slots and the notices stay, every slot is kept. -/
theorem SlotsPass.of_eq {s t : State} (hslots : t.overrides.slots = s.overrides.slots)
    (hnotices : t.notices = s.notices) : SlotsPass some s t where
  slots := by rw [hslots, List.filterMap_some]
  same := by rintro o _ ⟨⟩; exact ⟨rfl, rfl⟩
  told := ⟨[], hnotices, nofun, nofun⟩

theorem SlotsPass.trans {f g : Slot → Option Slot} {s t u : State} (h : SlotsPass f s t) (k : SlotsPass g t u) :
    SlotsPass (fun o => (f o).bind g) s u where
  slots := by rw [k.slots, h.slots, List.filterMap_filterMap]
  same := by
    intro o o'' ho
    obtain ⟨o', hf, hg⟩ := Option.bind_eq_some_iff.1 ho
    obtain ⟨hzone, horigin⟩ := h.same o o' hf
    obtain ⟨hzone', horigin'⟩ := k.same o' o'' hg
    exact ⟨hzone'.trans hzone, horigin'.trans horigin⟩
  told := by
    obtain ⟨a, hnotices, hall, honly⟩ := h.told
    obtain ⟨b, hnotices', hall', honly'⟩ := k.told
    refine ⟨a ++ b, by rw [hnotices', hnotices, tellEnded_append], fun o ho hnone => ?_, fun e he => ?_⟩
    · cases hf : f o with
      | none =>
        obtain ⟨e, he, hsame⟩ := hall o ho hf
        exact ⟨e, List.mem_append_left _ he, hsame⟩
      | some o' =>
        have hmem : o' ∈ t.overrides.slots := by rw [h.slots]; exact List.mem_filterMap.2 ⟨o, ho, hf⟩
        obtain ⟨e, he, hzone, horigin⟩ := hall' o' hmem (by simpa [hf] using hnone)
        obtain ⟨hz, hor⟩ := h.same o o' hf
        exact ⟨e, List.mem_append_right _ he, hzone.trans hz, horigin.trans hor⟩
    · rcases List.mem_append.1 he with he | he
      · obtain ⟨o, ho, hnone, horigin⟩ := honly e he
        exact ⟨o, ho, by simp [hnone], horigin⟩
      · obtain ⟨o', ho', hnone, horigin⟩ := honly' e he
        rw [h.slots] at ho'
        obtain ⟨o, ho, hf⟩ := List.mem_filterMap.1 ho'
        exact ⟨o, ho, by simp [hf, hnone], horigin.trans (h.same o o' hf).2⟩

theorem SlotsPass.congr {f g : Slot → Option Slot} {s t : State} (h : SlotsPass f s t) (hfg : ∀ o, f o = g o) :
    SlotsPass g s t := funext hfg ▸ h

/-- The origin port of each slot that ended tells of its zone. -/
theorem SlotsPass.tells {kept : Slot → Option Slot} {s t : State} (h : SlotsPass kept s t) {o : Slot}
    (ho : o ∈ s.overrides.slots) (hnone : kept o = none) : (t.notices.of o.origin).TellsEnded o.zone := by
  obtain ⟨ended, hnotices, hall, -⟩ := h.told
  obtain ⟨e, he, hzone, horigin⟩ := hall o ho hnone
  rw [hnotices, ← hzone, ← horigin]
  exact tellEnded_tells he _

/-- A port none of whose slots ended is told nothing. -/
theorem SlotsPass.silent {kept : Slot → Option Slot} {s t : State} (h : SlotsPass kept s t) {p : Port}
    (hp : ∀ o ∈ s.overrides.slots, o.origin = p → kept o ≠ none) : t.notices.of p = s.notices.of p := by
  obtain ⟨ended, hnotices, -, honly⟩ := h.told
  rw [hnotices]
  refine tellEnded_of_unconcerned (fun e he hep => ?_) _
  obtain ⟨o, ho, hnone, horigin⟩ := honly e he
  exact hp o ho (horigin.symm.trans hep) hnone

theorem SlotsPass.kinds_of_ne {kept : Slot → Option Slot} {s t : State} (h : SlotsPass kept s t) (p : Port) {k : Nat}
    (hk : k ≠ 4) : (t.notices.of p).kinds.getLsbD k = (s.notices.of p).kinds.getLsbD k := by
  obtain ⟨ended, hnotices, -, -⟩ := h.told
  rw [hnotices, tellEnded_kinds_of_ne _ _ _ hk]

theorem postEnded_keeps (ended : List Slot) (s : State) : Keeps [.notices] s (postEnded ended s) := by
  induction ended generalizing s with
  | nil => exact Keeps.refl _ _
  | cons o ended ih => exact (post_keeps _ _ _).trans (ih _)

theorem expire_keeps (p : Slot → Bool) (s : State) : Keeps [.overrides, .notices] s (expire p s) :=
  ((putSlots_keeps _ _).mono (by simp)).trans ((postEnded_keeps _ _).mono (by simp))

/-- The setpoints are resolved from what an expiry leaves (R55). -/
theorem expire_resolved (p : Slot → Bool) (s : State) : SetpointsResolved (expire p s) :=
  (putSlots_resolved _ _).of_keeps (postEnded_keeps _ _) (by decide)

/-- An expiry keeps the slots that do not satisfy the condition (R50 to R53). -/
theorem expire_slotsPass (p : Slot → Bool) (s : State) :
    SlotsPass (Option.guard fun o => !p o) s (expire p s) where
  slots := by
    rw [List.filterMap_eq_filter]
    exact congrArg Overrides.slots (postEnded_keeps _ _ .overrides (by decide))
  same := by
    intro o o' h
    obtain ⟨rfl, -⟩ := Option.guard_eq_some_iff.1 h
    exact ⟨rfl, rfl⟩
  told := by
    refine ⟨s.overrides.slots.filter p, postEnded_notices _ _, fun o ho hnone => ?_, fun e he => ?_⟩
    · exact ⟨o, List.mem_filter.2 ⟨ho, by simpa using hnone⟩, rfl, rfl⟩
    · obtain ⟨he, hp⟩ := List.mem_filter.1 he
      exact ⟨e, he, by simpa using hp, rfl⟩

/-- The minutes remaining are changed in place. -/
theorem putSlots_withRemaining_slotsPass (f : Nat → Nat) (s : State) :
    SlotsPass (fun o => some { o with kind := o.kind.withRemaining f }) s
      (putSlots (s.overrides.slots.map fun o => { o with kind := o.kind.withRemaining f }) s) where
  slots := (congrFun List.filterMap_eq_map _).symm
  same := by rintro o _ ⟨⟩; exact ⟨rfl, rfl⟩
  told := ⟨[], rfl, nofun, nofun⟩

/-! ## What a passage of the controller raises and leaves of the schedule state -/

/-- A passage of the firing controller raises events of its own block alone, behind those raised before (R144), and
leaves the hot-water schedule state. -/
structure Passage (s t : State) : Prop where
  events : ∃ own, t.raised = s.raised ++ own ∧ ∀ e ∈ own, e.kind.block = .controller
  schedule : t.firing.schedule = s.firing.schedule

theorem Passage.of_quiet {s t : State} (hraised : t.raised = s.raised)
    (hschedule : t.firing.schedule = s.firing.schedule) : Passage s t := ⟨⟨[], by simp [hraised], nofun⟩, hschedule⟩

theorem Passage.refl (s : State) : Passage s s := .of_quiet rfl rfl

theorem Passage.trans {s t u : State} (h : Passage s t) (k : Passage t u) : Passage s u where
  events := by
    obtain ⟨a, ha, hown⟩ := h.events
    obtain ⟨b, hb, hown'⟩ := k.events
    exact ⟨a ++ b, by rw [hb, ha, List.append_assoc], List.forall_mem_append.2 ⟨hown, hown'⟩⟩
  schedule := k.schedule.trans h.schedule

/-- A passage composed with one that starts where it ends. -/
theorem Passage.andThen {s t : State} {f : State → State} (h : Passage s t) (k : ∀ u, Passage u (f u)) :
    Passage s (f t) := h.trans (k t)

theorem modFiring_passage {f : Firing → Firing} {s : State} (h : (f s.firing).schedule = s.firing.schedule) :
    Passage s (modFiring f s) := .of_quiet rfl h

theorem raise_passage {k : SourceKind} (h : k.block = .controller) (s : State) : Passage s (raise k s) :=
  ⟨⟨[⟨k, 0⟩], rfl, by simpa using h⟩, rfl⟩

theorem writeHold_passage (h : ChannelSet) (s : State) : Passage s (writeHold h s) := .of_quiet rfl rfl

theorem setBurner_passage (on : Bool) (s : State) : Passage s (setBurner on s) := by
  unfold setBurner
  split
  · exact .refl s
  · exact (modFiring_passage rfl).trans (raise_passage (by cases on <;> rfl) _)

theorem setPump_passage (on : Bool) (s : State) : Passage s (setPump on s) := by
  unfold setPump
  split
  · exact .refl s
  · exact (modFiring_passage rfl).trans (raise_passage (by cases on <;> rfl) _)

theorem setDiverter_passage (s : State) : Passage s (setDiverter s) := by
  unfold setDiverter
  dsimp only
  split
  · exact .refl s
  · exact modFiring_passage rfl

theorem fixHold_passage (s : State) : Passage s (fixHold s) := (modFiring_passage rfl).andThen (writeHold_passage _)

theorem releaseHold_passage (s : State) : Passage s (releaseHold s) :=
  ((modFiring_passage rfl).andThen (writeHold_passage _)).andThen setDiverter_passage

theorem releaseAnyHold_passage (s : State) : Passage s (releaseAnyHold s) := by
  unfold releaseAnyHold
  split
  · exact releaseHold_passage s
  · exact .refl s

theorem formFlow_passage (s : State) : Passage s (formFlow s) := by
  unfold formFlow
  split
  · split
    · exact .refl s
    · exact modFiring_passage rfl
  · exact .refl s

theorem formHeating_passage (s : State) : Passage s (formHeating s) := by
  unfold formHeating
  split
  · exact (modFiring_passage rfl).andThen formFlow_passage
  · exact .refl s

theorem enterFiring_passage (s : State) : Passage s (enterFiring s) :=
  ((((setPump_passage _ _).andThen (setBurner_passage _)).trans (modFiring_passage rfl)).andThen
    formHeating_passage).andThen releaseAnyHold_passage

theorem enterQuiet_passage (state : FiringState) (s : State) : Passage s (enterQuiet state s) := modFiring_passage rfl

theorem select_passage (s : State) : Passage s (select s) := by
  unfold select
  split
  · exact enterFiring_passage s
  · exact enterQuiet_passage _ s

theorem selectQuiet_passage (s : State) : Passage s (selectQuiet s) := by
  unfold selectQuiet
  split <;> first | exact select_passage s | exact .refl s

theorem leaveFiring_passage (s : State) : Passage s (leaveFiring s) :=
  (setBurner_passage _ _).trans (modFiring_passage rfl)

theorem endOverrun_passage (s : State) : Passage s (endOverrun s) := by
  unfold endOverrun
  split
  · exact enterFiring_passage s
  · exact (((setPump_passage _ _).andThen releaseHold_passage).andThen (enterQuiet_passage _)).andThen
      selectQuiet_passage

theorem startOverrun_passage (s : State) : Passage s (startOverrun s) := by
  unfold startOverrun
  dsimp only
  split
  · exact modFiring_passage rfl
  · exact (modFiring_passage rfl).andThen fixHold_passage

theorem enterOverrun_passage (s : State) : Passage s (enterOverrun s) := by
  unfold enterOverrun
  split
  · exact (startOverrun_passage s).andThen endOverrun_passage
  · exact startOverrun_passage s

theorem settle_passage (s : State) : Passage s (settle s) := by
  unfold settle
  split
  · exact select_passage s
  · exact select_passage s
  · exact select_passage s
  · split
    · exact enterFiring_passage s
    · exact .refl s
  · split
    · exact (leaveFiring_passage s).andThen enterOverrun_passage
    · exact .refl s
  · exact .refl s

theorem startCall_passage (s : State) : Passage s (startCall s) :=
  (((raise_passage rfl s).trans (modFiring_passage rfl)).andThen setDiverter_passage).andThen formFlow_passage

theorem endCall_passage (s : State) : Passage s (endCall s) :=
  (((raise_passage rfl s).trans (modFiring_passage rfl)).andThen setDiverter_passage).andThen formFlow_passage

theorem deriveCall_passage (s : State) : Passage s (deriveCall s) := by
  unfold deriveCall
  split
  · exact (startCall_passage s).andThen settle_passage
  · split
    · exact (endCall_passage s).andThen settle_passage
    · exact .refl s

/-! ## The scheduled results handed on (R18) -/

theorem takeSchedule_of_eq {on : Bool} {s : State} (h : s.firing.schedule = on) : takeSchedule on s = s := if_pos h

/-- The controller holds the schedule state that it was handed. -/
theorem takeSchedule_schedule (on : Bool) (s : State) : (takeSchedule on s).firing.schedule = on := by
  unfold takeSchedule
  split
  · assumption
  · exact (deriveCall_passage _).schedule

/-- Whatever the schedule state brings about, the controller raises no event of another block (R144). -/
theorem takeSchedule_events (on : Bool) (s : State) :
    ∃ own, (takeSchedule on s).raised = s.raised ++ own ∧ ∀ e ∈ own, e.kind.block = .controller := by
  unfold takeSchedule
  split
  · exact (Passage.refl s).events
  · exact (deriveCall_passage _).events

/-! ## What the matrix counts (R145, R147, R149) -/

/-- The parameters of the events of one kind, in the order of the events. -/
def parametersOf (kind : SourceKind) (events : List SourceEvent) : List (Fin 16) :=
  (events.filter fun e => decide (e.kind = kind)).map SourceEvent.parameter

theorem parametersOf_append (kind : SourceKind) (a b : List SourceEvent) :
    parametersOf kind (a ++ b) = parametersOf kind a ++ parametersOf kind b := by
  simp [parametersOf]

/-- The events of a block have no parameter of a kind of another block. -/
theorem parametersOf_of_block {kind : SourceKind} {block : SourceBlock} {events : List SourceEvent}
    (h : ∀ e ∈ events, e.kind.block = block) (hk : kind.block ≠ block) : parametersOf kind events = [] := by
  rw [parametersOf, List.filter_eq_nil_iff.2, List.map_nil]
  intro e he hkind
  exact hk (of_decide_eq_true hkind ▸ h e he)

theorem parametersOf_map_self (kind : SourceKind) (zones : List (Fin 16)) :
    parametersOf kind (zones.map fun z => ⟨kind, z⟩) = zones := by
  simp [parametersOf, List.filter_map, Function.comp_def]

theorem parametersOf_map_of_ne {kind other : SourceKind} (h : other ≠ kind) (zones : List (Fin 16)) :
    parametersOf kind (zones.map fun z => ⟨other, z⟩) = [] := by
  simp [parametersOf, List.filter_map, Function.comp_def, h]

/-- The fire count of a channel after the matrix has taken events: it has risen by the events that fire the channel,
wrapping. -/
theorem takeEvents_counts (events : List SourceEvent) (s : State) (e : Fin 8) :
    (takeEvents events s).links.counts.get e =
      if events.countP (fun v => fires (s.settings.events.get e) v.kind v.parameter) = 0 then s.links.counts.get e
      else (s.links.counts.get e +
        events.countP fun v => fires (s.settings.events.get e) v.kind v.parameter) % 65536 := by
  induction events generalizing s with
  | nil => rfl
  | cons v events ih =>
    have hstep : (takeEvent v s).links.counts.get e =
        if fires (s.settings.events.get e) v.kind v.parameter then (s.links.counts.get e + 1) % 65536
        else s.links.counts.get e := by
      simp [Links.take, firedChannels]
    have hsettings : (takeEvent v s).settings = s.settings := rfl
    have hrest := ih (takeEvent v s)
    rw [hsettings, hstep] at hrest
    refine hrest.trans ?_
    rw [List.countP_cons]
    generalize events.countP _ = n
    cases fires (s.settings.events.get e) v.kind v.parameter <;> grind

/-- Whether a channel's parameter lets an index through (R145). -/
def EventSettings.lets (c : EventSettings) (z : Fin 16) : Bool :=
  !c.kind.hasParameter || c.parameter.isNone || decide (c.parameter = some z)

theorem passed_eq_countP (c : EventSettings) (p : Fin 16 → Bool) :
    c.passed p = ((List.finRange 16).filter p).countP c.lets := by
  rw [List.countP_filter, List.countP_eq_length_filter, EventSettings.passed]
  congr 1
  apply List.filter_congr
  intro z _
  rw [Bool.eq_iff_iff]
  simp [EventSettings.lets, and_comm, or_assoc]

/-- How many events of a list fire an enabled channel: those of its kind that its parameter lets through. -/
theorem countP_fires {c : EventSettings} (hc : c.enabled = true) {events : List SourceEvent} {p : Fin 16 → Bool}
    (h : (parametersOf c.kind events).Perm ((List.finRange 16).filter p)) :
    events.countP (fun v => fires c v.kind v.parameter) = c.passed p := by
  have hfires : ∀ v : SourceEvent, fires c v.kind v.parameter = (c.lets v.parameter && decide (v.kind = c.kind)) := by
    intro v
    by_cases hk : v.kind = c.kind
    · simp [fires, hc, hk, EventSettings.lets]
    · simp [fires, hk, Ne.symm hk]
  calc events.countP (fun v => fires c v.kind v.parameter)
      = events.countP (fun v => c.lets v.parameter && decide (v.kind = c.kind)) := by simp only [hfires]
    _ = (parametersOf c.kind events).countP c.lets := by
        rw [parametersOf, List.countP_map, List.countP_filter]
        rfl
    _ = ((List.finRange 16).filter p).countP c.lets := h.countP_eq _
    _ = c.passed p := (passed_eq_countP c p).symm

/-- The matrix has taken one event of a kind for each index that satisfies p where these are the parameters of the
events of that kind, in whatever order it took them. -/
theorem takeInTurns_eventsTaken {kind : SourceKind} {p : Fin 16 → Bool} {s : State} (turns : List Nat)
    (h : (parametersOf kind s.raised).Perm ((List.finRange 16).filter p)) :
    EventsTaken s (takeInTurns turns s) kind p := by
  intro e henabled hkind
  have hcount : (inTurns turns s.raised).countP (fun v => fires (s.settings.events.get e) v.kind v.parameter) =
      (s.settings.events.get e).passed p :=
    ((inTurns_perm turns s.raised).countP_eq _).trans (countP_fires henabled (by rwa [hkind]))
  have hlinks := takeEvents_counts (inTurns turns s.raised) s e
  rw [hcount] at hlinks
  exact ⟨fun hzero => hlinks.trans (if_pos hzero), fun hpos => hlinks.trans (if_neg (by omega))⟩

/-- The matrix of one step is that of a state with the same matrix and the same settings. -/
theorem EventsTaken.congr {s s' t t' : State} {kind : SourceKind} {p : Fin 16 → Bool} (h : EventsTaken s t kind p)
    (hs : s'.links = s.links) (hsettings : s'.settings = s.settings) (ht : t'.links = t.links) :
    EventsTaken s' t' kind p := by
  unfold EventsTaken
  rw [hs, hsettings, ht]
  exact h

theorem EventsTaken.congr_indices {s t : State} {kind : SourceKind} {p q : Fin 16 → Bool} (h : EventsTaken s t kind p)
    (hpq : ∀ z, p z = q z) : EventsTaken s t kind q := funext hpq ▸ h

/-! ## The program store hands its results on (R18, R20, R21, R29) -/

theorem SlotsPass.congr_states {kept : Slot → Option Slot} {s s' t t' : State} (h : SlotsPass kept s t)
    (hslots : s'.overrides.slots = s.overrides.slots) (hnotices : s'.notices = s.notices)
    (hslots' : t'.overrides.slots = t.overrides.slots) (hnotices' : t'.notices = t.notices) :
    SlotsPass kept s' t' where
  slots := by rw [hslots', hslots, h.slots]
  same := h.same
  told := by rw [hslots, hnotices, hnotices']; exact h.told

theorem setRemembered_keeps (next : Fin 17 → Option Entry) (s : State) : Keeps [.program] s (setRemembered next s) := by
  intro part hp
  cases part <;> first | rfl | (simp at hp)

theorem resolve_keeps (s : State) : Keeps [.overrides] s (resolve s) := by
  intro part hp
  cases part <;> first | rfl | (simp at hp)

theorem handOn_reaches (s : State) : Reaches (resolve s) (handOn s) := takeSchedule_reaches _ _

theorem handOn_keeps (s : State) : Keeps [.overrides, .firing, .valves, .raised] s (handOn s) :=
  ((resolve_keeps s).mono (by simp)).trans ((handOn_reaches s).1.mono (by simp [passageParts]))

/-- The slots are not touched by what is handed on. -/
theorem handOn_slots (s : State) : (handOn s).overrides.slots = s.overrides.slots :=
  have h : (handOn s).overrides = (resolve s).overrides := (handOn_reaches s).1 .overrides (by decide)
  (congrArg Overrides.slots h).trans rfl

theorem handOn_of_eq {s : State} (h : s.firing.schedule = hotWaterSchedule s) : handOn s = resolve s :=
  takeSchedule_of_eq h

/-- An evaluation of the program store from s to u, the matrix and the override table included: everything outside its
reach is kept, no event is left over, and the controller holds the schedule state of the remembered entries; where that
has not changed the controller and the valve driver are as they were (R18). -/
structure StorePass (s u : State) : Prop where
  keeps : Keeps [.program, .overrides, .valves, .firing, .links, .notices, .raised] s u
  hold : OnlyHoldWritten s.valves u.valves
  raised : u.raised = []
  schedule : u.firing.schedule = hotWaterSchedule u
  quiet : u.firing.schedule = s.firing.schedule → u.firing = s.firing ∧ u.valves = s.valves

section
variable {next : Fin 17 → Option Entry} {s v : State}

theorem program_of_handOn (h : Keeps [.overrides, .notices, .raised] (handOn (setRemembered next s)) v)
    (turns : List Nat) : (takeInTurns turns v).program = { s.program with remembered := Tab.ofFn next } :=
  (takeInTurns_keeps turns v .program (by decide)).trans
    ((h .program (by decide)).trans (handOn_keeps (setRemembered next s) .program (by decide)))

/-- Entries are remembered, the results handed on, the table acts, and the matrix takes the events. -/
theorem storePass_of_handOn (h : Keeps [.overrides, .notices, .raised] (handOn (setRemembered next s)) v)
    (turns : List Nat) : StorePass s (takeInTurns turns v) := by
  have hend := takeInTurns_keeps turns v
  have hfiring : (takeInTurns turns v).firing = (handOn (setRemembered next s)).firing :=
    (hend .firing (by decide)).trans (h .firing (by decide))
  have hvalves : (takeInTurns turns v).valves = (handOn (setRemembered next s)).valves :=
    (hend .valves (by decide)).trans (h .valves (by decide))
  have hschedule : (handOn (setRemembered next s)).firing.schedule = hotWaterSchedule (setRemembered next s) :=
    takeSchedule_schedule _ _
  refine ⟨?_, ?_, takeInTurns_raised _ _, ?_, fun hsame => ?_⟩
  · exact ((((setRemembered_keeps next s).mono (by simp)).trans ((handOn_keeps _).mono (by simp))).trans
      (h.mono (by simp))).trans (hend.mono (by simp))
  · rw [hvalves]
    exact (handOn_reaches (setRemembered next s)).2
  · rw [hfiring, hschedule, hotWaterSchedule, hotWaterSchedule, program_of_handOn h]
    rfl
  · rw [hfiring, hschedule] at hsame
    rw [hfiring, hvalves, handOn_of_eq (s := setRemembered next s) hsame.symm]
    exact ⟨rfl, rfl⟩

theorem slotsPass_of_handOn {kept : Slot → Option Slot} (h : SlotsPass kept (handOn (setRemembered next s)) v)
    (turns : List Nat) : SlotsPass kept s (takeInTurns turns v) :=
  h.congr_states (handOn_slots (setRemembered next s)).symm
    (handOn_keeps (setRemembered next s) .notices (by decide)).symm
    (congrArg Overrides.slots (takeInTurns_keeps turns v .overrides (by decide)))
    (takeInTurns_keeps turns v .notices (by decide))

/-- The matrix takes, of the kinds that the controller does not raise, what was raised before and behind the results
that are handed on. -/
theorem eventsTaken_of_handOn {kind : SourceKind} {p : Fin 16 → Bool} {behind : List SourceEvent}
    (h : Keeps [.overrides, .notices, .raised] (handOn (setRemembered next s)) v)
    (hraised : v.raised = (handOn (setRemembered next s)).raised ++ behind) (hkind : kind.block ≠ .controller)
    (hp : (parametersOf kind s.raised ++ parametersOf kind behind).Perm ((List.finRange 16).filter p))
    (turns : List Nat) : EventsTaken s (takeInTurns turns v) kind p := by
  have hkeeps : Keeps [.program, .overrides, .firing, .valves, .notices, .raised] s v :=
    (((setRemembered_keeps next s).mono (by simp)).trans ((handOn_keeps _).mono (by simp))).trans (h.mono (by simp))
  obtain ⟨own, hown, hcontroller⟩ := takeSchedule_events (hotWaterSchedule (setRemembered next s))
    (resolve (setRemembered next s))
  have hparameters : parametersOf kind v.raised = parametersOf kind s.raised ++ parametersOf kind behind := by
    have hhanded : (handOn (setRemembered next s)).raised = s.raised ++ own := hown
    rw [hraised, hhanded, parametersOf_append, parametersOf_append, parametersOf_of_block hcontroller hkind,
      List.append_nil]
  exact (takeInTurns_eventsTaken turns (by rwa [hparameters])).congr (hkeeps .links (by decide)).symm
    (hkeeps .settings (by decide)).symm rfl

end

/-! ## Crossings (R20, R21, R50) -/

theorem raiseFor_keeps (k : SourceKind) (i : Fin 16) (s : State) : Keeps [.raised] s (raiseFor k i s) := by
  intro part hp
  cases part <;> first | rfl | (simp at hp)

theorem crossZone_keeps (s : State) (z : Fin 16) : Keeps [.overrides, .notices, .raised] s (crossZone s z) :=
  ((raiseFor_keeps _ z s).mono (by simp)).trans ((expire_keeps _ _).mono (by simp))

theorem crossZone_raised (s : State) (z : Fin 16) : (crossZone s z).raised = s.raised ++ [⟨.switchCross, z⟩] :=
  expire_keeps _ (raiseFor .switchCross z s) .raised (by decide)

theorem crossZone_slotsPass (s : State) (z : Fin 16) :
    SlotsPass (Option.guard fun o => !(o.isNext && decide (o.zone = z))) s (crossZone s z) :=
  (expire_slotsPass _ (raiseFor .switchCross z s)).congr_states rfl rfl rfl rfl

theorem crossZones_keeps (zones : List (Fin 16)) (s : State) :
    Keeps [.overrides, .notices, .raised] s (zones.foldl crossZone s) := by
  induction zones generalizing s with
  | nil => exact Keeps.refl _ _
  | cons z zones ih => exact (crossZone_keeps s z).trans (ih _)

/-- One SWITCH_CROSS for each zone that crosses, in their order (R20). -/
theorem crossZones_raised (zones : List (Fin 16)) (s : State) :
    (zones.foldl crossZone s).raised = s.raised ++ zones.map fun z => ⟨.switchCross, z⟩ := by
  induction zones generalizing s with
  | nil => simp
  | cons z zones ih =>
    rw [List.foldl_cons, ih, crossZone_raised, List.map_cons, List.append_assoc, List.singleton_append]

/-- A crossing ends the NEXT override of its zone (R50). -/
theorem crossZones_slotsPass (zones : List (Fin 16)) (s : State) :
    SlotsPass (Option.guard fun o => !(o.isNext && decide (o.zone ∈ zones))) s (zones.foldl crossZone s) := by
  induction zones generalizing s with
  | nil => exact (SlotsPass.of_eq rfl rfl).congr fun o => by simp [Option.guard]
  | cons z zones ih =>
    refine ((crossZone_slotsPass s z).trans (ih _)).congr fun o => ?_
    by_cases hnext : o.isNext = true <;> by_cases hz : o.zone = z <;> simp [Option.guard, hnext, hz]

@[simp] theorem getElem_setOf {n : Nat} (p : Fin n → Bool) (i : Fin n) : (setOf p)[i.val] = p i := getLsbD_setOf p i

/-- In whatever order the zones of a set are taken, each is taken once. -/
theorem arranged_perm (first : List (Fin 16)) (p : Fin 16 → Bool) :
    (arranged first (setOf p)).Perm ((List.finRange 16).filter p) :=
  (List.perm_ext_iff_of_nodup (nodup_arranged _ _) ((List.nodup_finRange 16).filter p)).2 fun z => by simp

/-- What becomes of a slot where zones cross: a NEXT override of a crossing zone ends (R50). -/
def keptAcross (crossed : Fin 16 → Bool) : Slot → Option Slot := Option.guard fun o => !(o.isNext && crossed o.zone)

theorem keptAcross_of_not_next (crossed : Fin 16 → Bool) {o : Slot} (h : o.kind ≠ .next) :
    keptAcross crossed o = some o := by
  simp [keptAcross, Option.guard, Slot.isNext, h]

theorem keptAcross_next (crossed : Fin 16 → Bool) {o : Slot} (h : o.kind = .next) :
    keptAcross crossed o = if crossed o.zone then none else some o := by
  cases hc : crossed o.zone <;> simp [keptAcross, Option.guard, Slot.isNext, h, hc]

/-- The state in which a move of the active bank, if there is one, has been told to both ports (R29). -/
def announced (moved : Bool) (s : State) : State := if moved then postBoth .bankChanged s else s

theorem announced_overrides (moved : Bool) (s : State) : (announced moved s).overrides = s.overrides := by
  cases moved <;> rfl

theorem postBoth_notices_of (n : Notice) (s : State) (p : Port) :
    (postBoth n s).notices.of p = (s.notices.of p).take n := by
  cases p <;> rfl

theorem announced_bankChanged (moved : Bool) (s : State) (p : Port) :
    ((announced moved s).notices.of p).kinds.getLsbD 1 = (moved || (s.notices.of p).kinds.getLsbD 1) := by
  cases moved with
  | false => rfl
  | true =>
    rw [announced, if_pos rfl, postBoth_notices_of, PortNotices.take_kinds_getLsbD]
    rfl

/-- A move of the active bank tells nothing of ended overrides. -/
theorem announced_ended (moved : Bool) (s : State) (p : Port) :
    ((announced moved s).notices.of p).kinds.getLsbD 4 = (s.notices.of p).kinds.getLsbD 4 ∧
      ((announced moved s).notices.of p).overrideEnded = (s.notices.of p).overrideEnded := by
  cases moved with
  | false => exact ⟨rfl, rfl⟩
  | true =>
    rw [announced, if_pos rfl, postBoth_notices_of, PortNotices.take_kinds_getLsbD]
    exact ⟨rfl, rfl⟩

/-- An evaluation of the program store with its events from s to u: the active bank has moved and every NEXT override
has ended, or the zones of `crossed` have crossed and theirs have (R20, R21, R29, R50, R51). -/
structure Evaluated (moved : Bool) (crossed : Fin 16 → Bool) (s u : State) : Prop extends StorePass s u where
  slots : SlotsPass (keptAcross fun z => moved || crossed z) (announced moved s) u
  switchCross : EventsTaken s u .switchCross fun z => !moved && crossed z
  bankChange : EventsTaken s u .bankChange fun z => moved && decide (z = 0)

theorem cross_program (order : Order) (crossed : Fin 17 → Bool) (next : Fin 17 → Option Entry) (s : State) :
    (cross order crossed next s).program = { s.program with remembered := Tab.ofFn next } :=
  program_of_handOn (crossZones_keeps _ _) _

theorem cross_evaluated (order : Order) (crossed : Fin 17 → Bool) (next : Fin 17 → Option Entry) {s : State}
    (hs : s.raised = []) :
    Evaluated false (fun z => crossed (zoneList z)) s (cross order crossed next s) where
  toStorePass := storePass_of_handOn (crossZones_keeps _ _) _
  slots := (slotsPass_of_handOn (crossZones_slotsPass _ _) order.turns).congr fun o => by
    simp [keptAcross, Option.guard]
  switchCross := by
    refine eventsTaken_of_handOn (crossZones_keeps _ _) (crossZones_raised _ _) (by decide) ?_ order.turns
    rw [hs, parametersOf_map_self]
    exact arranged_perm _ _
  bankChange := by
    refine eventsTaken_of_handOn (crossZones_keeps _ _) (crossZones_raised _ _) (by decide) ?_ order.turns
    rw [hs, parametersOf_map_of_ne (by decide)]
    simp [parametersOf]

/-! ## A change of active bank (R29, R51) -/

theorem reevaluate_all {s : State} (h : s.clock.valid = true) :
    reevaluate (fun _ => true) s =
      setRemembered (fun l => evaluate (activeList s l) s.clock.day s.clock.minute) s := if_pos h

/-- The state in which a timed return has made a bank active and has told the ports and the matrix (R29). -/
def bankReturned (b : Fin 4) (s : State) : State := raise .bankChange (postBoth .bankChanged (setActive b s))

theorem bankReturned_keeps (b : Fin 4) (s : State) : Keeps [.program, .notices, .raised] s (bankReturned b s) := by
  intro part hp
  cases part <;> first | rfl | (simp at hp)

theorem bankReturned_notices (b : Fin 4) (s : State) : (bankReturned b s).notices = (postBoth .bankChanged s).notices :=
  rfl

theorem bankReturned_raised (b : Fin 4) (s : State) : (bankReturned b s).raised = s.raised ++ [⟨.bankChange, 0⟩] := rfl

/-- What the bank b has in force at the current time (R17). -/
def inForce (b : Fin 4) (s : State) (l : Fin 17) : Option Entry :=
  evaluate ((s.program.banks.get b).lists.get l) s.clock.day s.clock.minute

theorem changeBank_return_eq (order : Order) {b : Fin 4} {s : State} (hb : b ≠ s.program.active)
    (hvalid : s.clock.valid = true) :
    changeBank order none b s =
      takeInTurns order.turns (expireNext (handOn (setRemembered (inForce b s) (bankReturned b s)))) := by
  have hreevaluate : reevaluate (fun _ => true) (bankReturned b s) = setRemembered (inForce b s) (bankReturned b s) :=
    reevaluate_all hvalid
  rw [← hreevaluate, changeBank, if_neg hb]
  rfl

theorem changeBank_return_program (order : Order) {b : Fin 4} {s : State} (hb : b ≠ s.program.active)
    (hvalid : s.clock.valid = true) :
    (changeBank order none b s).program = { s.program with active := b, remembered := Tab.ofFn (inForce b s) } := by
  rw [changeBank_return_eq order hb hvalid]
  exact program_of_handOn ((expire_keeps _ _).mono (by simp)) _

/-- The timed return of a bank that is not active, at a VALID clock: every NEXT override ends, and the matrix takes one
BANK_CHANGE and no SWITCH_CROSS (R29, R32, R51). -/
theorem changeBank_return_evaluated (order : Order) {b : Fin 4} {s : State} (hb : b ≠ s.program.active)
    (hvalid : s.clock.valid = true) (hs : s.raised = []) (crossed : Fin 16 → Bool) :
    Evaluated true crossed s (changeBank order none b s) := by
  rw [changeBank_return_eq order hb hvalid]
  have hstart := bankReturned_keeps b s
  have hnotices := bankReturned_notices b s
  have hraised := bankReturned_raised b s
  generalize bankReturned b s = a at hstart hnotices hraised ⊢
  have hfiring : a.firing = s.firing := hstart .firing (by decide)
  have hvalves : a.valves = s.valves := hstart .valves (by decide)
  have hlinks : a.links = s.links := hstart .links (by decide)
  have hsettings : a.settings = s.settings := hstart .settings (by decide)
  have hoverrides : a.overrides = s.overrides := hstart .overrides (by decide)
  have htable := expire_keeps Slot.isNext (handOn (setRemembered (inForce b s) a))
  have hkeeps := htable.mono (m := [.overrides, .notices, .raised]) (by simp)
  have hbehind := (htable .raised (by decide)).trans (List.append_nil _).symm
  have hpass := storePass_of_handOn hkeeps order.turns
  refine ⟨⟨(hstart.mono (by simp)).trans hpass.keeps, hvalves ▸ hpass.hold, hpass.raised, hpass.schedule, ?_⟩, ?_, ?_,
    ?_⟩
  · rw [← hfiring, ← hvalves]
    exact hpass.quiet
  · refine ((slotsPass_of_handOn (expire_slotsPass Slot.isNext _) order.turns).congr_states
      (s' := announced true s) (congrArg Overrides.slots hoverrides).symm hnotices.symm rfl rfl).congr fun o => ?_
    simp [keptAcross, Option.guard]
  · refine (eventsTaken_of_handOn hkeeps hbehind (by decide) ?_ order.turns).congr hlinks.symm hsettings.symm rfl
    rw [hraised, hs]
    simp [parametersOf]
  · refine (eventsTaken_of_handOn hkeeps hbehind (by decide) ?_ order.turns).congr hlinks.symm hsettings.symm rfl
    rw [hraised, hs]
    decide

/-! ## The override table at a minute and at a jump (R52, R53) -/

theorem countDown_keeps (s : State) : Keeps [.overrides, .notices] s (countDown s) :=
  ((putSlots_keeps _ s).mono (by simp)).trans (expire_keeps _ _)

theorem countDown_resolved (s : State) : SetpointsResolved (countDown s) := expire_resolved _ _

/-- What a minute event leaves of a slot: an UNTIL override counts down and ends with its last minute (R52). -/
def keptCounting (o : Slot) : Option Slot :=
  Option.guard (fun o => !o.runOut) { o with kind := o.kind.withRemaining fun r => r - 1 }

/-- A count-down changes no slot of kind NEXT or HOLD (R52). -/
theorem keptCounting_of_not_until {o : Slot} (h : o.kind = .next ∨ o.kind = .hold) : keptCounting o = some o := by
  obtain ⟨zone, setpoint, kind, origin, created⟩ := o
  rcases h with h | h <;> subst h <;> simp [keptCounting, Option.guard, Slot.runOut, Kind.withRemaining]

theorem keptCounting_until {o : Slot} {e : WeekTime} {r : Nat} (h : o.kind = .untilTime e r) :
    keptCounting o = if r ≤ 1 then none else some { o with kind := .untilTime e (r - 1) } := by
  obtain ⟨zone, setpoint, kind, origin, created⟩ := o
  subst h
  have hlast : r - 1 = 0 ↔ r ≤ 1 := by omega
  by_cases hr : r ≤ 1 <;> simp [keptCounting, Option.guard, Slot.runOut, Kind.withRemaining, hlast, hr]

theorem countDown_slotsPass (s : State) : SlotsPass keptCounting s (countDown s) :=
  ((putSlots_withRemaining_slotsPass _ s).trans (expire_slotsPass _ _)).congr fun _ => rfl

theorem jumpSlots_keeps (previous : Option WeekTime) (now : WeekTime) (s : State) :
    Keeps [.overrides, .notices] s (jumpSlots previous now s) := by
  unfold jumpSlots
  split
  · exact Keeps.refl _ _
  · exact (expire_keeps _ _).trans ((putSlots_keeps _ _).mono (by simp))

/-- What a jump of the clock leaves of a slot: an UNTIL override moves by it, and ends outside its window (R53). -/
def keptJumping (previous now : WeekTime) (o : Slot) : Option Slot :=
  (Option.guard (fun o => !o.jumpedOut previous now) o).bind fun o =>
    some { o with kind := o.kind.withRemaining fun r => (afterJump previous now r).toNat }

theorem jumpSlots_slotsPass (previous now : WeekTime) (s : State) :
    SlotsPass (keptJumping previous now) s (jumpSlots (some previous) now s) :=
  (expire_slotsPass _ s).trans (putSlots_withRemaining_slotsPass _ _)

/-! ## The second boundary (R5, R6) -/

theorem exec_secondBoundary (s : State) : exec .secondBoundary s = event secondBoundaryBlock s := rfl

theorem secondBoundaryBlock_of_invalid {s : State} (h : s.clock.valid = false) : secondBoundaryBlock s = s := by
  simp [secondBoundaryBlock, h]

theorem minuteEnds_iff (c : Clock) : c.minuteEnds = true ↔ c.second = 59 := decide_eq_true_iff

theorem secondBoundaryBlock_of_second {s : State} (h : s.clock.valid = true) (hsecond : s.clock.second ≠ 59) :
    secondBoundaryBlock s = { s with clock := { s.clock with second := s.clock.second + 1, phase := some 0 } } := by
  have hends : s.clock.minuteEnds = false := Bool.eq_false_iff.2 (mt (minuteEnds_iff _).1 hsecond)
  simp [secondBoundaryBlock, h, Clock.tick, Clock.dayEnds, hends]

/-- The clock at a minute boundary, the minute and the day wrapping (R5). -/
theorem tick_of_minute {c : Clock} (h : c.second = 59) :
    c.tick = { c with
      second := 0
      minute := if c.minute = 1439 then 0 else c.minute + 1
      day := if c.minute = 1439 then (c.day + 1) % 7 else c.day
      phase := some 0 } := by
  simp [Clock.tick, Clock.minuteEnds, Clock.dayEnds, h]

/-- The state in which a minute event finds the part: the clock has advanced, at midnight a timed program has counted
its day, and the step has taken its order (R6, R32). -/
def minuteBegun (s : State) : State :=
  { s with
    clock := s.clock.tick
    orders := s.orders.rest
    program := { s.program with
      timed := if s.clock.minute = 1439 then s.program.timed.map (fun r => { r with days := r.days - 1 })
        else s.program.timed } }

theorem minuteBegun_keeps (s : State) : Keeps [.clock, .program, .orders] s (minuteBegun s) := by
  intro part hp
  cases part <;> first | rfl | (simp at hp)

theorem secondBoundaryBlock_of_minute {s : State} (h : s.clock.valid = true) (hsecond : s.clock.second = 59) :
    secondBoundaryBlock s = minuteEvent s.orders.next (minuteBegun s) := by
  have hends : s.clock.minuteEnds = true := (minuteEnds_iff _).2 hsecond
  unfold secondBoundaryBlock
  by_cases hminute : s.clock.minute = 1439
  · simp [h, hends, Clock.dayEnds, hminute, withOrder, minuteBegun, storeMidnight, setTimed]
  · simp [h, hends, Clock.dayEnds, hminute, withOrder, minuteBegun]

/-! ## The program store at a minute event (R20, R32) -/

/-- An evaluation that starts from a replaced timed-program record. -/
theorem Evaluated.of_setTimed {moved : Bool} {crossed : Fin 16 → Bool} {r : Option Timed} {s u : State}
    (h : Evaluated moved crossed (setTimed r s) u) : Evaluated moved crossed s u where
  keeps := by
    have hset : Keeps [.program] s (setTimed r s) := fun part hp => by
      cases part <;> first | rfl | (simp at hp)
    exact (hset.mono (by simp)).trans h.keeps
  hold := h.hold
  raised := h.raised
  schedule := h.schedule
  quiet := h.quiet
  slots := by cases moved <;> exact h.slots.congr_states rfl rfl rfl rfl
  switchCross := h.switchCross.congr rfl rfl rfl
  bankChange := h.bankChange.congr rfl rfl rfl

/-- The zones whose list has a switch point that starts at a day and minute (R20). -/
def zonesStarting (s : State) (d m : Nat) (z : Fin 16) : Bool := (startingAt (activeList s (zoneList z)) d m).isSome

theorem evaluateMinute_evaluated (order : Order) (d m : Nat) {s : State} (hs : s.raised = []) :
    Evaluated false (zonesStarting s d m) s (evaluateMinute order d m s) :=
  cross_evaluated order (fun l => (startingAt (activeList s l) d m).isSome) _ hs

/-- Everything of the program but the remembered entries stands. -/
theorem evaluateMinute_program (order : Order) (d m : Nat) (s : State) :
    (evaluateMinute order d m s).program =
      { s.program with remembered := (evaluateMinute order d m s).program.remembered } := by
  unfold evaluateMinute
  rw [cross_program]

/-- A starting switch point becomes its list's entry (R20). -/
theorem evaluateMinute_remembered_of_some (order : Order) {d m : Nat} {s : State} {l : Fin 17} {p : SwitchPoint}
    (h : startingAt (activeList s l) d m = some p) :
    (evaluateMinute order d m s).program.remembered.get l = some ⟨p, d⟩ := by
  unfold evaluateMinute
  rw [cross_program, Tab.get_ofFn, h]

/-- Without one the entry stands (R20). -/
theorem evaluateMinute_remembered_of_none (order : Order) {d m : Nat} {s : State} {l : Fin 17}
    (h : startingAt (activeList s l) d m = none) :
    (evaluateMinute order d m s).program.remembered.get l = s.program.remembered.get l := by
  unfold evaluateMinute
  rw [cross_program, Tab.get_ofFn, h]

theorem due_iff (r : Timed) (m : Nat) : r.due m = true ↔ r.days = 0 ∧ r.endMinute ≤ m := by simp [Timed.due]

/-- The three ways of the store's minute event: no program is due, one returns to the bank that is active, and one
returns to another bank (R32). -/
theorem storeMinute_cases (order : Order) (d m : Nat) (s : State) :
    ((∀ r ∈ s.program.timed, r.due m = false) ∧ storeMinute order d m s = evaluateMinute order d m s) ∨
      ∃ r, s.program.timed = some r ∧ r.due m = true ∧
        (r.returnBank = s.program.active ∧ storeMinute order d m s = evaluateMinute order d m (setTimed none s) ∨
          r.returnBank ≠ s.program.active ∧
            storeMinute order d m s = changeBank order none r.returnBank (setTimed none s)) := by
  unfold storeMinute
  split
  · next h => exact .inl ⟨by simp [h], rfl⟩
  · next r h =>
    split
    · next hdue =>
      refine .inr ⟨r, h, hdue, ?_⟩
      split
      · next hactive => exact .inl ⟨hactive, rfl⟩
      · next hactive => exact .inr ⟨hactive, rfl⟩
    · next hdue => exact .inl ⟨by simpa [h] using hdue, rfl⟩

/-- The store's minute event from s to u, by whether a timed program returns and whether that moves the active bank:
what the program holds afterwards (R20, R29, R32). -/
structure MinuteTaken (returns moved : Bool) (d m : Nat) (s u : State) : Prop
    extends Evaluated moved (zonesStarting s d m) s u where
  banks : u.program.banks = s.program.banks
  stays : returns = false → u.program.timed = s.program.timed ∧ u.program.active = s.program.active
  returned : ∀ r, s.program.timed = some r → returns = true →
    u.program.timed = none ∧ u.program.active = r.returnBank
  moves : ∀ r, s.program.timed = some r → moved = true → ∀ l, u.program.remembered.get l = inForce r.returnBank s l
  started : moved = false → ∀ l p, startingAt (activeList s l) d m = some p →
    u.program.remembered.get l = some ⟨p, d⟩
  stood : moved = false → ∀ l, startingAt (activeList s l) d m = none →
    u.program.remembered.get l = s.program.remembered.get l

/-- Without a return the list's evaluation is all. -/
theorem evaluateMinute_taken (order : Order) (d m : Nat) {s : State} (hs : s.raised = []) :
    MinuteTaken false false d m s (evaluateMinute order d m s) where
  toEvaluated := evaluateMinute_evaluated order d m hs
  banks := by rw [evaluateMinute_program]
  stays _ := by rw [evaluateMinute_program]; exact ⟨rfl, rfl⟩
  returned := nofun
  moves := nofun
  started _ _ _ := evaluateMinute_remembered_of_some order
  stood _ _ := evaluateMinute_remembered_of_none order

/-- A return to the bank that is active ends the program and leaves the list's evaluation (R29, R32). -/
theorem evaluateMinute_taken_of_return (order : Order) (d m : Nat) {s : State} {r : Timed} (hs : s.raised = [])
    (hr : s.program.timed = some r) (hactive : r.returnBank = s.program.active) :
    MinuteTaken true false d m s (evaluateMinute order d m (setTimed none s)) where
  toEvaluated := (evaluateMinute_evaluated order d m (s := setTimed none s) hs).of_setTimed
  banks := by rw [evaluateMinute_program]; rfl
  stays := nofun
  returned r' hr' _ := by
    obtain rfl : r' = r := Option.some.inj (hr'.symm.trans hr)
    rw [evaluateMinute_program, hactive]
    exact ⟨rfl, rfl⟩
  moves := nofun
  started _ _ _ := evaluateMinute_remembered_of_some order (s := setTimed none s)
  stood _ _ := evaluateMinute_remembered_of_none order (s := setTimed none s)

/-- A return to another bank (R29, R32). -/
theorem changeBank_taken (order : Order) (d m : Nat) {s : State} {r : Timed} (hvalid : s.clock.valid = true)
    (hs : s.raised = []) (hr : s.program.timed = some r) (hactive : r.returnBank ≠ s.program.active) :
    MinuteTaken true true d m s (changeBank order none r.returnBank (setTimed none s)) := by
  have hprogram := changeBank_return_program order (s := setTimed none s) hactive hvalid
  have hown : ∀ r', s.program.timed = some r' → r' = r := fun r' hr' => Option.some.inj (hr'.symm.trans hr)
  refine ⟨(changeBank_return_evaluated order (s := setTimed none s) hactive hvalid hs _).of_setTimed, ?_, nofun, ?_, ?_,
    nofun, nofun⟩
  · rw [hprogram]
    rfl
  · intro r' hr' _
    rw [hprogram, hown r' hr']
    exact ⟨rfl, rfl⟩
  · intro r' hr' _ l
    rw [hprogram, hown r' hr', Tab.get_ofFn]
    rfl

/-- The store's minute event does what the timed program that is due says (R20, R32). -/
theorem storeMinute_taken (order : Order) {d m : Nat} {returns moved : Bool} {s : State} (hvalid : s.clock.valid = true)
    (hs : s.raised = []) (hreturns : returns = true ↔ ∃ r ∈ s.program.timed, r.days = 0 ∧ r.endMinute ≤ m)
    (hmoved : moved = true ↔ returns = true ∧ ∃ r ∈ s.program.timed, r.returnBank ≠ s.program.active) :
    MinuteTaken returns moved d m s (storeMinute order d m s) := by
  simp only [← due_iff] at hreturns
  rcases storeMinute_cases order d m s with ⟨hnone, hrow⟩ | ⟨r, hr, hdue, ⟨hactive, hrow⟩ | ⟨hactive, hrow⟩⟩
  · have hstays : returns = false := by
      rw [← Bool.not_eq_true, hreturns]
      rintro ⟨r, hr, hdue⟩
      rw [hnone r hr] at hdue
      cases hdue
    have hstill : moved = false := by rw [← Bool.not_eq_true, hmoved]; simp [hstays]
    subst returns moved
    exact hrow ▸ evaluateMinute_taken order d m hs
  · have hreturn : returns = true := hreturns.2 ⟨r, hr, hdue⟩
    have hstill : moved = false := by rw [← Bool.not_eq_true, hmoved, hr]; simp [hactive]
    subst returns moved
    exact hrow ▸ evaluateMinute_taken_of_return order d m hs hr hactive
  · have hreturn : returns = true := hreturns.2 ⟨r, hr, hdue⟩
    have hmove : moved = true := hmoved.2 ⟨hreturn, r, hr, hactive⟩
    subst returns moved
    exact hrow ▸ changeBank_taken order d m hvalid hs hr hactive

/-! ## The step of a second boundary (R4 to R6) -/

section
variable {s : State}

/-- The state behind the store's part of a minute event. -/
def minuteStored (s : State) : State :=
  storeMinute s.orders.next s.clock.tick.day s.clock.tick.minute (minuteBegun (nothingRaised s))

theorem minuteStored_taken {returns moved : Bool} (hvalid : s.clock.valid = true)
    (hreturns : returns = true ↔ ∃ r ∈ (minuteBegun s).program.timed, r.days = 0 ∧ r.endMinute ≤ s.clock.tick.minute)
    (hmoved : moved = true ↔ returns = true ∧ ∃ r ∈ (minuteBegun s).program.timed, r.returnBank ≠ s.program.active) :
    MinuteTaken returns moved s.clock.tick.day s.clock.tick.minute (minuteBegun (nothingRaised s)) (minuteStored s) :=
  storeMinute_taken _ (s := minuteBegun (nothingRaised s)) hvalid rfl hreturns hmoved

theorem minuteStored_storePass (hvalid : s.clock.valid = true) :
    StorePass (minuteBegun (nothingRaised s)) (minuteStored s) :=
  (minuteStored_taken hvalid (returns := decide _) (moved := decide _) decide_eq_true_iff
    decide_eq_true_iff).toStorePass

/-- At a minute boundary the step is the store's part and then the table's count-down; the matrix has nothing left. -/
theorem exec_secondBoundary_of_minute (hp : s.powered = true) (hvalid : s.clock.valid = true)
    (hsecond : s.clock.second = 59) :
    exec .secondBoundary s = .next (setRaised s.raised (countDown (minuteStored s))) ∧
      Keeps [.clock, .program, .overrides, .valves, .firing, .links, .notices, .orders] s
        (setRaised s.raised (countDown (minuteStored s))) := by
  have hblock : secondBoundaryBlock (nothingRaised s) = countDown (minuteStored s) :=
    secondBoundaryBlock_of_minute (s := nothingRaised s) hvalid hsecond
  have hpass := minuteStored_storePass hvalid
  have hraised : (countDown (minuteStored s)).raised = [] := (countDown_keeps _ .raised (by decide)).trans hpass.raised
  have hkeeps : Keeps (.raised :: [.clock, .program, .overrides, .valves, .firing, .links, .notices, .orders])
      (nothingRaised s) (countDown (minuteStored s)) :=
    (((minuteBegun_keeps _).mono (by simp)).trans (hpass.keeps.mono (by simp))).trans
      ((countDown_keeps _).mono (by simp))
  rw [← eventsTaken_of_nil hraised]
  refine ⟨?_, (eventsTaken_keeps hkeeps).mono (by simp)⟩
  rw [exec_secondBoundary, event_powered _ _ hp, withMatrix, hblock]

theorem minuteStored_clock (hvalid : s.clock.valid = true) : (minuteStored s).clock = s.clock.tick :=
  (minuteStored_storePass hvalid).keeps .clock (by decide)

theorem exec_secondBoundary_of_second (hp : s.powered = true) (hvalid : s.clock.valid = true)
    (hsecond : s.clock.second ≠ 59) :
    exec .secondBoundary s =
      .next { s with clock := { s.clock with second := s.clock.second + 1, phase := some 0 } } := by
  have hblock := secondBoundaryBlock_of_second (s := nothingRaised s) hvalid hsecond
  rw [exec_secondBoundary, event_powered _ _ hp, withMatrix_of_quiet (by rw [hblock]; rfl), hblock]
  rfl

/-- What a minute event leaves of a slot: an end of its kind NEXT by a crossing or a move of the active bank, then the
count-down (R50 to R52). -/
def keptAtMinute (moved : Bool) (crossed : Fin 16 → Bool) (o : Slot) : Option Slot :=
  (keptAcross (fun z => moved || crossed z) o).bind keptCounting

theorem keptAtMinute_hold (moved : Bool) (crossed : Fin 16 → Bool) {o : Slot} (h : o.kind = .hold) :
    keptAtMinute moved crossed o = some o := by
  rw [keptAtMinute, keptAcross_of_not_next _ (by simp [h]), Option.bind_some, keptCounting_of_not_until (.inr h)]

theorem keptAtMinute_next (moved : Bool) (crossed : Fin 16 → Bool) {o : Slot} (h : o.kind = .next) :
    keptAtMinute moved crossed o = if moved || crossed o.zone then none else some o := by
  rw [keptAtMinute, keptAcross_next _ h]
  cases moved || crossed o.zone
  · exact keptCounting_of_not_until (.inl h)
  · rfl

theorem keptAtMinute_until (moved : Bool) (crossed : Fin 16 → Bool) {o : Slot} {e : WeekTime} {r : Nat}
    (h : o.kind = .untilTime e r) :
    keptAtMinute moved crossed o = if r ≤ 1 then none else some { o with kind := .untilTime e (r - 1) } := by
  rw [keptAtMinute, keptAcross_of_not_next _ (by simp [h]), Option.bind_some, keptCounting_until h]

/-- The hot-water schedule state is ON where the remembered entry of list 16 is (R18). -/
theorem hotWaterSchedule_iff (s : State) :
    hotWaterSchedule s = true ↔ ∃ e ∈ s.program.remembered.get 16, e.point.target = .on := by
  have hlist : hotWaterList = 16 := rfl
  unfold hotWaterSchedule
  rw [hlist]
  cases s.program.remembered.get 16 <;> simp

/-- What the step of a minute event leaves, by whether a timed program returns and whether that moves the active bank:
the store's part from the state begun to u, and then the table's pass to t. -/
structure MinutePassed (returns moved : Bool) (d m : Nat) (s u t : State) : Prop where
  taken : MinuteTaken returns moved d m (minuteBegun (nothingRaised s)) u
  slots : SlotsPass (keptAtMinute moved (zonesStarting s d m)) (announced moved s) t
  resolved : SetpointsResolved t
  clock : t.clock = s.clock.tick
  program : t.program = u.program
  firing : t.firing = u.firing
  valves : t.valves = u.valves
  links : t.links = u.links

theorem minutePassed {returns moved : Bool} (hvalid : s.clock.valid = true)
    (hreturns : returns = true ↔ ∃ r ∈ (minuteBegun s).program.timed, r.days = 0 ∧ r.endMinute ≤ s.clock.tick.minute)
    (hmoved : moved = true ↔ returns = true ∧ ∃ r ∈ (minuteBegun s).program.timed, r.returnBank ≠ s.program.active) :
    MinutePassed returns moved s.clock.tick.day s.clock.tick.minute s (minuteStored s)
      (setRaised s.raised (countDown (minuteStored s))) where
  taken := minuteStored_taken hvalid hreturns hmoved
  slots := by
    refine ((minuteStored_taken hvalid hreturns hmoved).slots.trans (countDown_slotsPass _)).congr_states ?_ ?_ rfl rfl
    <;> cases moved <;> rfl
  resolved := countDown_resolved _
  clock := (countDown_keeps _ .clock (by decide)).trans (minuteStored_clock hvalid)
  program := countDown_keeps (minuteStored s) .program (by decide)
  firing := countDown_keeps (minuteStored s) .firing (by decide)
  valves := countDown_keeps (minuteStored s) .valves (by decide)
  links := countDown_keeps (minuteStored s) .links (by decide)

end

/-- Settles O19: the three branches of the second boundary. -/
theorem secondBoundaryAdvancesClock : Obligations.SecondBoundaryAdvancesClock := by
  intro s hp
  refine ⟨fun hinvalid => ?_, fun hvalid hsecond => ?_, fun hvalid hsecond => ?_⟩
  · have hblock : secondBoundaryBlock (nothingRaised s) = nothingRaised s := secondBoundaryBlock_of_invalid hinvalid
    rw [exec_secondBoundary, event_powered _ _ hp, withMatrix_of_quiet (by rw [hblock]; rfl), hblock,
      setRaised_nothingRaised]
  · refine ⟨_, exec_secondBoundary_of_second hp hvalid hsecond, fun part hpart => ?_, rfl⟩
    cases part <;> first | rfl | (simp at hpart)
  · obtain ⟨hrow, hkeeps⟩ := exec_secondBoundary_of_minute hp hvalid hsecond
    have hclock : (setRaised s.raised (countDown (minuteStored s))).clock = s.clock.tick :=
      (countDown_keeps _ .clock (by decide)).trans (minuteStored_clock hvalid)
    refine ⟨_, hrow, hkeeps, ?_⟩
    rw [hclock, tick_of_minute hsecond]
    exact ⟨hvalid, rfl, rfl, fun h => ⟨if_pos h, if_pos h⟩, fun h => ⟨if_neg h, if_neg h⟩⟩

/-- Settles O20: the store's part of the minute event is `MinuteTaken`, the table's count-down follows it, and both are
passes over the slots. -/
theorem minuteEventMovesProgram : Obligations.MinuteEventMovesProgram := by
  intro s day minute record returns moved hp hvalid hsecond hday hminute hrecord hreturns hmoved
  have htick := tick_of_minute hsecond
  obtain rfl : s.clock.tick.day = day := by rw [htick, hday]
  obtain rfl : s.clock.tick.minute = minute := by rw [htick, hminute]
  obtain rfl : (minuteBegun s).program.timed = record := hrecord.symm
  obtain ⟨hrow, hkeeps⟩ := exec_secondBoundary_of_minute hp hvalid hsecond
  have h := minutePassed hvalid hreturns hmoved
  generalize minuteStored s = u at *
  generalize setRaised s.raised (countDown u) = t at *
  refine ⟨t, hrow, hkeeps, h.valves ▸ h.taken.hold, by rw [h.clock], by rw [h.clock], by rw [h.clock, htick],
    by rw [h.program, h.taken.banks]; rfl, ?_, ?_, ?_, h.taken.bankChange.congr rfl rfl h.links, ?_,
    h.resolved, ?_, ?_, ?_⟩
  · rw [h.program]
    exact h.taken.stays
  · rw [h.program]
    exact h.taken.returned
  · intro p
    rw [h.slots.kinds_of_ne p (by decide), announced_bankChanged]
  · rw [h.program]
    exact h.taken.moves
  · rw [h.firing, h.taken.schedule, hotWaterSchedule_iff, h.program]
  · rw [h.firing, h.valves]
    exact h.taken.quiet
  · intro starting hstarting
    have hzones : ∀ z, zonesStarting s s.clock.tick.day s.clock.tick.minute z = (starting (zoneList z)).isSome :=
      fun z => congrArg Option.isSome (hstarting (zoneList z)).symm
    refine ⟨fun hstay l => ?_, ?_, fun kept hkept => ?_⟩
    · rw [h.program]
      cases hl : starting l with
      | some q => exact h.taken.started hstay l q ((hstarting l).symm.trans hl)
      | none => exact h.taken.stood hstay l ((hstarting l).symm.trans hl)
    · refine (h.taken.switchCross.congr rfl rfl h.links).congr_indices fun z => ?_
      rw [← hzones]
      rfl
    · have hpass : SlotsPass kept (announced moved s) t := h.slots.congr fun o => by
        rw [hkept]
        cases hkind : o.kind with
        | hold => exact keptAtMinute_hold _ _ hkind
        | next => rw [keptAtMinute_next _ _ hkind, hzones]
        | untilTime e r => exact keptAtMinute_until _ _ hkind
      have hbefore := announced_overrides moved s
      refine ⟨by rw [hpass.slots, hbefore], fun o ho hnone => hpass.tells (hbefore ▸ ho) hnone, fun p hsilent => ?_⟩
      rw [hpass.silent (hbefore ▸ hsilent)]
      exact announced_ended moved s p

/-! ## The entry that evaluation finds (R17) -/

section
variable {c : SwitchPoint → Bool}

theorem latest_concat_of_not (l : List SwitchPoint) {q : SwitchPoint} (h : c q = false) :
    latest c (l ++ [q]) = latest c l := by
  simp [latest, h]

theorem latest_concat_of_none {l : List SwitchPoint} {q : SwitchPoint} (h : c q = true) (hl : latest c l = none) :
    latest c (l ++ [q]) = some q := by
  unfold latest at hl
  simp [latest, h, hl]

theorem latest_concat_of_some {l : List SwitchPoint} {q b : SwitchPoint} (h : c q = true) (hl : latest c l = some b) :
    latest c (l ++ [q]) = if b.start ≤ q.start then some q else some b := by
  unfold latest at hl
  simp [latest, h, hl]

/-- A list without a considered point has no latest one. -/
theorem latest_eq_none_iff (l : List SwitchPoint) : latest c l = none ↔ ∀ q ∈ l, c q = false := by
  induction l using List.reverseRecOn with
  | nil => simp [latest]
  | append_singleton l q ih =>
    rw [List.forall_mem_append, List.forall_mem_singleton, ← ih]
    cases hq : c q with
    | false => simp [latest_concat_of_not l hq]
    | true =>
      cases hl : latest c l with
      | none => simp [latest_concat_of_none hq hl]
      | some b => rw [latest_concat_of_some hq hl]; split <;> simp

/-- The latest point is considered, and no considered point starts after it. -/
theorem latest_spec {l : List SwitchPoint} {p : SwitchPoint} (h : latest c l = some p) :
    p ∈ l ∧ c p = true ∧ ∀ q ∈ l, c q = true → q.start ≤ p.start := by
  induction l using List.reverseRecOn generalizing p with
  | nil => cases h
  | append_singleton l q ih =>
    simp only [List.mem_append, List.mem_singleton, or_imp, forall_and, forall_eq]
    cases hq : c q with
    | false =>
      rw [latest_concat_of_not l hq] at h
      obtain ⟨hmem, hp, hmost⟩ := ih h
      exact ⟨.inl hmem, hp, hmost, nofun⟩
    | true =>
      cases hl : latest c l with
      | none =>
        rw [latest_concat_of_none hq hl, Option.some.injEq] at h
        subst h
        have hnone := (latest_eq_none_iff l).1 hl
        exact ⟨.inr rfl, hq, fun r hr hcr => absurd hcr (by simp [hnone r hr]), fun _ => le_rfl⟩
      | some b =>
        obtain ⟨hmem, hb, hmost⟩ := ih hl
        rw [latest_concat_of_some hq hl] at h
        split at h <;> obtain rfl := Option.some.inj h
        · next hle => exact ⟨.inr rfl, hq, fun r hr hcr => (hmost r hr hcr).trans hle, fun _ => le_rfl⟩
        · next hlt => exact ⟨.inl hmem, hb, hmost, fun _ => by omega⟩

end

/-- Whether step k of the search back from a day and minute considers a point (R17). -/
def onStep (day minute k : Nat) (p : SwitchPoint) : Bool :=
  p.holds ((day + 7 - k) % 7) &&
    (if k = 0 then decide (p.start ≤ minute) else if k = 7 then decide (minute < p.start) else true)

theorem searchStep_eq (l : List SwitchPoint) (day minute k : Nat) :
    searchStep l day minute k = (latest (onStep day minute k) l).map fun p => ⟨p, (day + 7 - k) % 7⟩ := rfl

/-- The k-th day back from a day is d and a start there is reached by step k, where the point began k days and some
minutes ago. -/
def ReachedOn (day minute k d start : Nat) : Prop :=
  d = (day + 7 - k) % 7 ∧ minutesSince day minute d start + start = 1440 * k + minute

section
variable {day minute : Nat}

theorem onStep_iff (hday : day < 7) (hminute : minute < 1440) {k : Nat} (hk : k < 8) {p : SwitchPoint}
    (hp : p.start < 1440) :
    onStep day minute k p = true ↔
      p.days.getLsbD ((day + 7 - k) % 7) = true ∧ ReachedOn day minute k ((day + 7 - k) % 7) p.start := by
  have harith : ReachedOn day minute k ((day + 7 - k) % 7) p.start ↔
      (k = 0 → p.start ≤ minute) ∧ (k = 7 → minute < p.start) := by
    unfold ReachedOn minutesSince
    omega
  rw [harith, onStep, Bool.and_eq_true, SwitchPoint.holds]
  refine and_congr_right fun _ => ?_
  split_ifs with h0 h7 <;> simp [h0] <;> omega

/-- Every start on every day of the week is reached by one of the eight steps. -/
theorem exists_reachedOn (hday : day < 7) (hminute : minute < 1440) {d start : Nat} (hd : d < 7)
    (hstart : start < 1440) : ∃ k < 8, ReachedOn day minute k d start := by
  unfold ReachedOn minutesSince
  by_cases h : d = day ∧ minute < start
  · exact ⟨7, by omega, by omega, by omega⟩
  · refine ⟨(day + 7 - d) % 7, by omega, by omega, by omega⟩

/-- A search step finds nothing where no point of the list is reached by it. -/
theorem searchStep_eq_none_iff (l : List SwitchPoint) (k : Nat) :
    searchStep l day minute k = none ↔ ∀ q ∈ l, onStep day minute k q = false := by
  rw [searchStep_eq, Option.map_eq_none_iff, latest_eq_none_iff]

/-- Evaluation finds what the first step that finds something does. -/
theorem evaluate_eq_some {l : List SwitchPoint} {e : Entry} (h : evaluate l day minute = some e) :
    ∃ k < 8, searchStep l day minute k = some e ∧ ∀ j < k, searchStep l day minute j = none := by
  obtain ⟨before, k, after, hrange, hk, hbefore⟩ := List.findSome?_eq_some_iff.1 h
  have hlt : k < 8 := by
    rw [← List.mem_range, hrange]
    simp
  refine ⟨k, hlt, hk, fun j hj => hbefore j ?_⟩
  have hsorted := List.pairwise_lt_range (n := 8)
  have hmem : j ∈ before ++ k :: after := by rw [← hrange, List.mem_range]; omega
  rw [hrange, List.pairwise_append] at hsorted
  obtain ⟨-, hafter, -⟩ := hsorted
  rcases List.mem_append.1 hmem with hj' | hj'
  · exact hj'
  · rcases List.mem_cons.1 hj' with rfl | hj'
    · omega
    · have := (List.pairwise_cons.1 hafter).1 j hj'
      omega

variable {l : List SwitchPoint} (hday : day < 7) (hminute : minute < 1440) (hl : ∀ q ∈ l, q.start < 1440)
include hday hminute hl

/-- Only a list without an occurrence has no entry (R17). -/
theorem evaluate_eq_none_iff : evaluate l day minute = none ↔ ∀ q ∈ l, ∀ d < 7, q.days.getLsbD d = false := by
  rw [evaluate, List.findSome?_eq_none_iff]
  simp only [List.mem_range, searchStep_eq_none_iff, Bool.eq_false_iff]
  constructor
  · intro h q hq d hd hholds
    obtain ⟨k, hk, rfl, hreached⟩ := exists_reachedOn hday hminute hd (hl q hq)
    exact h k hk q hq ((onStep_iff hday hminute hk (hl q hq)).2 ⟨hholds, rfl, hreached⟩)
  · intro h k hk q hq hstep
    exact h q hq _ (Nat.mod_lt _ (by decide)) ((onStep_iff hday hminute hk (hl q hq)).1 hstep).1

/-- The entry found is an occurrence of the list, and no occurrence began after it (R17). -/
theorem evaluate_began_last {e : Entry} (h : evaluate l day minute = some e) :
    e.point ∈ l ∧ e.day < 7 ∧ e.point.days.getLsbD e.day = true ∧
      ∀ q ∈ l, ∀ d < 7, q.days.getLsbD d = true →
        minutesSince day minute e.day e.point.start ≤ minutesSince day minute d q.start := by
  obtain ⟨k, hk, hstep, hearlier⟩ := evaluate_eq_some h
  rw [searchStep_eq, Option.map_eq_some_iff] at hstep
  obtain ⟨p, hp, rfl⟩ := hstep
  obtain ⟨hmem, hon, hmost⟩ := latest_spec hp
  obtain ⟨hholds, -, hsince⟩ := (onStep_iff hday hminute hk (hl p hmem)).1 hon
  refine ⟨hmem, Nat.mod_lt _ (by decide), hholds, fun q hq d hd hqholds => ?_⟩
  obtain ⟨j, hj, rfl, hqsince⟩ := exists_reachedOn hday hminute hd (hl q hq)
  have hqon := (onStep_iff hday hminute hj (hl q hq)).2 ⟨hqholds, rfl, hqsince⟩
  have hqstart := hl q hq
  rcases Nat.lt_trichotomy j k with hlt | rfl | hgt
  · have hnone := (searchStep_eq_none_iff l j).1 (hearlier j hlt) q hq
    rw [hqon] at hnone
    cases hnone
  · have := hmost q hq hqon
    dsimp only
    omega
  · dsimp only
    omega

end

/-! ## CLOCK SET (R7, R8, R21) -/

theorem sameEntry_iff (a b : Option Entry) : sameEntry a b = true ↔ a.map Entry.key = b.map Entry.key := by
  cases a <;> cases b <;> simp [sameEntry, Entry.key, and_assoc]

/-- A jump-marked re-evaluation finds every entry afresh (R21). -/
theorem evaluateJump_program (order : Order) (d m : Nat) (s : State) :
    (evaluateJump order d m s).program =
      { s.program with remembered := Tab.ofFn fun l => evaluate (activeList s l) d m } := cross_program _ _ _ _

/-- The zones whose entry differs from the remembered one at a jump (R21). -/
def zonesJumped (s : State) (d m : Nat) (z : Fin 16) : Bool :=
  !sameEntry (s.program.remembered.get (zoneList z)) (evaluate (activeList s (zoneList z)) d m)

theorem evaluateJump_evaluated (order : Order) (d m : Nat) {s : State} (hs : s.raised = []) :
    Evaluated false (zonesJumped s d m) s (evaluateJump order d m s) :=
  cross_evaluated order (fun l => !sameEntry (s.program.remembered.get l) (evaluate (activeList s l) d m)) _ hs

/-- What a jump leaves of a slot: where the clock was INVALID there is no previous time, and every slot stays (R53). -/
def keptFrom (previous : Option WeekTime) (now : WeekTime) (o : Slot) : Option Slot :=
  match previous with
  | none => some o
  | some before => keptJumping before now o

theorem jumpSlots_slotsPass_from (previous : Option WeekTime) (now : WeekTime) (s : State) :
    SlotsPass (keptFrom previous now) s (jumpSlots previous now s) := by
  cases previous with
  | none => exact .of_eq rfl rfl
  | some before => exact jumpSlots_slotsPass before now s

/-- What an accepted CLOCK SET leaves of a slot: an end of its kind NEXT by a crossing, then the jump (R50, R53). -/
def keptAtSet (previous : Option WeekTime) (now : WeekTime) (crossed : Fin 16 → Bool) (o : Slot) : Option Slot :=
  (keptAcross crossed o).bind (keptFrom previous now)

section
variable (previous : Option WeekTime) (now : WeekTime) {o : Slot}

/-- A jump changes no slot of kind NEXT or HOLD (R53). -/
theorem keptFrom_of_not_until (h : o.kind = .next ∨ o.kind = .hold) : keptFrom previous now o = some o := by
  obtain ⟨zone, setpoint, kind, origin, created⟩ := o
  cases previous with
  | none => rfl
  | some before =>
    rcases h with h | h <;> subst h <;> simp [keptFrom, keptJumping, Option.guard, Slot.jumpedOut, Kind.withRemaining]

/-- A jump from a VALID clock moves an UNTIL slot, and ends it where it is carried outside its window (R53). -/
theorem keptFrom_until (before : WeekTime) {e : WeekTime} {r : Nat} (h : o.kind = .untilTime e r) :
    keptFrom (some before) now o =
      if 1 ≤ remainingAfter before now r ∧ remainingAfter before now r ≤ 10080 then
        some { o with kind := .untilTime e (remainingAfter before now r).toNat } else none := by
  obtain ⟨zone, setpoint, kind, origin, created⟩ := o
  subst h
  have hafter : afterJump before now r = remainingAfter before now r := rfl
  have hwindow : within 1 Config.minutesPerWeek (remainingAfter before now r) = true ↔
      1 ≤ remainingAfter before now r ∧ remainingAfter before now r ≤ 10080 := within_iff _ _ _
  by_cases hin : 1 ≤ remainingAfter before now r ∧ remainingAfter before now r ≤ 10080
  · simp [keptFrom, keptJumping, Option.guard, Slot.jumpedOut, Kind.withRemaining, hafter, hwindow.2 hin, if_pos hin]
  · have hout : within 1 Config.minutesPerWeek (remainingAfter before now r) = false :=
      Bool.eq_false_iff.2 (mt hwindow.1 hin)
    simp [keptFrom, keptJumping, Option.guard, Slot.jumpedOut, hafter, hout, if_neg hin]

end

/-- The state in which an accepted CLOCK SET has stored the time and told the other port, and has taken its order
(R8). -/
def clockStored (p : Port) (d : Fin 7) (m : Fin 1440) (sec : Fin 60) (s : State) : State :=
  { post p.other .clockChanged { s with clock := Clock.setTo p d.val m.val sec.val } with orders := s.orders.rest }

theorem clockStored_keeps (p : Port) (d : Fin 7) (m : Fin 1440) (sec : Fin 60) (s : State) :
    Keeps [.clock, .notices, .orders] s (clockStored p d m sec s) := by
  intro part hp
  cases part <;> first | rfl | (simp at hp)

theorem clockStored_notices_other (p : Port) (d : Fin 7) (m : Fin 1440) (sec : Fin 60) (s : State) :
    (clockStored p d m sec s).notices.of p.other = (s.notices.of p.other).take .clockChanged := by
  cases p <;> rfl

theorem clockStored_notices_own (p : Port) (d : Fin 7) (m : Fin 1440) (sec : Fin 60) (s : State) :
    (clockStored p d m sec s).notices.of p = s.notices.of p := by
  cases p <;> rfl

/-- The block's state behind an accepted CLOCK SET. -/
def clockSetDone (p : Port) (d : Fin 7) (m : Fin 1440) (sec : Fin 60) (s : State) : State :=
  jumpSlots s.clock.now ⟨d.val, m.val⟩ (evaluateJump s.orders.next d.val m.val (clockStored p d m sec s))

theorem clockSetBlock_accepted (p : Port) (d : Fin 7) (m : Fin 1440) (sec : Fin 60) (s : State) :
    clockSetBlock p d.val m.val sec.val s = (clockSetDone p d m sec s, .ok []) := by
  simp only [clockSetBlock, index_val]
  rfl

/-- A field out of range is refused (R7). -/
theorem clockSetBlock_refused (p : Port) {day minute second : Int} (s : State)
    (h : day < 0 ∨ 6 < day ∨ minute < 0 ∨ 1439 < minute ∨ second < 0 ∨ 59 < second) :
    clockSetBlock p day minute second s = (s, refuse .range) := by
  have hnone : index 7 day = none ∨ index 1440 minute = none ∨ index 60 second = none := by
    simp only [index_eq_none_iff]
    omega
  unfold clockSetBlock
  split
  · next hd hm hs => simp [hd, hm, hs] at hnone
  · rfl

theorem Keeps.of_raised {l : List Part} {s t : State} (h : Keeps (.raised :: l) s t) (hraised : t.raised = s.raised) :
    Keeps l s t := by
  intro part hp
  by_cases hpart : part = .raised
  · subst hpart
    exact hraised
  · exact h part (by simp [hpart, hp])

section
variable (p : Port) (d : Fin 7) (m : Fin 1440) (sec : Fin 60) (s : State)

theorem clockSetDone_keeps :
    Keeps [.clock, .program, .overrides, .valves, .firing, .links, .notices, .orders] (nothingRaised s)
      (clockSetDone p d m sec (nothingRaised s)) := by
  have hpass := (evaluateJump_evaluated s.orders.next d.val m.val (s := clockStored p d m sec (nothingRaised s)) rfl)
  have hjump := jumpSlots_keeps s.clock.now ⟨d.val, m.val⟩
    (evaluateJump s.orders.next d.val m.val (clockStored p d m sec (nothingRaised s)))
  refine Keeps.of_raised ((((clockStored_keeps p d m sec (nothingRaised s)).mono (by simp)).trans
    (hpass.keeps.mono (by simp))).trans (hjump.mono (by simp))) ?_
  exact (hjump .raised (by decide)).trans hpass.raised

theorem clockSetDone_clock : (clockSetDone p d m sec (nothingRaised s)).clock = Clock.setTo p d.val m.val sec.val :=
  (jumpSlots_keeps _ _ _ .clock (by decide)).trans
    ((evaluateJump_evaluated s.orders.next d.val m.val (s := clockStored p d m sec (nothingRaised s)) rfl).keeps .clock
      (by decide))

theorem clockSetDone_program :
    (clockSetDone p d m sec (nothingRaised s)).program = { s.program with
      remembered := Tab.ofFn fun l =>
        evaluate ((s.program.banks.get s.program.active).lists.get l) d.val m.val } :=
  (jumpSlots_keeps _ _ _ .program (by decide)).trans (evaluateJump_program _ _ _ _)

theorem clockSetDone_slotsPass :
    SlotsPass (keptAtSet s.clock.now ⟨d.val, m.val⟩ (zonesJumped s d.val m.val))
      (clockStored p d m sec (nothingRaised s)) (clockSetDone p d m sec (nothingRaised s)) :=
  ((evaluateJump_evaluated s.orders.next d.val m.val (s := clockStored p d m sec (nothingRaised s)) rfl).slots.trans
    (jumpSlots_slotsPass_from _ _ _)).congr fun o => by rfl

end

/-- A field within 0 to n - 1 is the number of one of n like objects. -/
theorem exists_fin_of_within {n : Nat} {v : Int} (hlo : 0 ≤ v) (hhi : v < n) : ∃ i : Fin n, v = i.val :=
  ⟨⟨v.toNat, by omega⟩, (Int.toNat_of_nonneg hlo).symm⟩

section
variable (now : WeekTime) (crossed : Fin 16 → Bool) {o : Slot}

theorem keptAtSet_hold (previous : Option WeekTime) (h : o.kind = .hold) :
    keptAtSet previous now crossed o = some o := by
  rw [keptAtSet, keptAcross_of_not_next _ (by simp [h]), Option.bind_some, keptFrom_of_not_until _ _ (.inr h)]

theorem keptAtSet_next (previous : Option WeekTime) (h : o.kind = .next) :
    keptAtSet previous now crossed o = if crossed o.zone then none else some o := by
  rw [keptAtSet, keptAcross_next _ h]
  cases crossed o.zone
  · exact keptFrom_of_not_until _ _ (.inl h)
  · rfl

theorem keptAtSet_until {e : WeekTime} {r : Nat} (c : Clock) (h : o.kind = .untilTime e r) :
    keptAtSet c.now now crossed o =
      if c.valid then
        (if 1 ≤ remainingAfter ⟨c.day, c.minute⟩ now r ∧ remainingAfter ⟨c.day, c.minute⟩ now r ≤ 10080 then
          some { o with kind := .untilTime e (remainingAfter ⟨c.day, c.minute⟩ now r).toNat }
        else none)
      else some o := by
  rw [keptAtSet, keptAcross_of_not_next _ (by simp [h]), Option.bind_some, Clock.now]
  cases c.valid with
  | true => exact keptFrom_until _ _ h
  | false => rfl

end

/-- A zone has crossed at a set exactly where its entry's key is another (R17, R21). -/
theorem zonesJumped_iff (s : State) (d m : Nat) (z : Fin 16) :
    zonesJumped s d m z = true ↔ ¬(s.program.remembered.get (zoneList z)).map Entry.key =
      (evaluate (activeList s (zoneList z)) d m).map Entry.key := by
  rw [← sameEntry_iff, zonesJumped, Bool.not_eq_true', Bool.not_eq_true]

/-- Settles O18: the block of an accepted set is the clock's record, the store's evaluation and the table's jump, the
last two passes over the slots; and the entry that evaluation finds is the occurrence of the first search step that
finds one. -/
theorem clockSetStoresTime : Obligations.ClockSetStoresTime := by
  refine ⟨fun p day minute second s hp => ⟨fun hd0 hd6 hm0 hm1 hs0 hs1 => ?_, fun hrange => ?_⟩,
    fun l day minute hday hminute hl =>
      ⟨evaluate_eq_none_iff hday hminute hl, fun e => evaluate_began_last hday hminute hl⟩⟩
  · obtain ⟨d, rfl⟩ := exists_fin_of_within (n := 7) hd0 (by omega)
    obtain ⟨m, rfl⟩ := exists_fin_of_within (n := 1440) hm0 (by omega)
    obtain ⟨sec, rfl⟩ := exists_fin_of_within (n := 60) hs0 (by omega)
    obtain ⟨t, hrow, hkeeps, hanswer, hu⟩ := command_of_keeps (.clockSet p d.val m.val sec.val) p hp
      (clockSetBlock_accepted p d m sec (nothingRaised s)) (clockSetDone_keeps p d m sec s) (by decide)
    have hclock : t.clock = Clock.setTo p d.val m.val sec.val :=
      (hu .clock (by decide)).trans (clockSetDone_clock p d m sec s)
    have hprogram := (hu .program (by decide)).trans (clockSetDone_program p d m sec s)
    have hpass := (clockSetDone_slotsPass p d m sec s).congr_states rfl rfl
      (congrArg Overrides.slots (hu .overrides (by decide))) (hu .notices (by decide))
    have hremembered : ∀ l, t.program.remembered.get l =
        evaluate ((s.program.banks.get s.program.active).lists.get l) d.val m.val := by
      intro l
      rw [hprogram, Tab.get_ofFn]
    simp only [Int.toNat_natCast]
    refine ⟨t, hrow, hkeeps, hclock, hanswer, ?_, ?_, by rw [hprogram], by rw [hprogram], by rw [hprogram],
      hremembered, ?_⟩
    · rw [hpass.kinds_of_ne _ (by decide), clockStored_notices_other, PortNotices.take_kinds_getLsbD]
      rfl
    · rw [hpass.kinds_of_ne _ (by decide), clockStored_notices_own]
      rfl
    · intro kept hkept
      have hpass' := hpass.congr (g := kept) fun o => by
        rw [hkept]
        cases hkind : o.kind with
        | hold => exact keptAtSet_hold _ _ _ hkind
        | next =>
          rw [keptAtSet_next _ _ _ hkind, hremembered]
          simp only [zonesJumped_iff, ite_not]
          rfl
        | untilTime e r => exact keptAtSet_until _ _ s.clock hkind
      exact ⟨hpass'.slots, fun o ho hnone => hpass'.tells ho hnone⟩
  · exact refused_powered _ p _ .range s hp (clockSetBlock_refused p _ hrange)

/-! ## The start of the part (R181) -/

/-- A start ends a save in flight (R179). -/
theorem stopSave_operation (s : State) : (stopSave s).store.operation = none := by
  unfold stopSave
  split
  · assumption
  · rfl

theorem stopSave_of_idle {s : State} (h : s.store.operation = none) : stopSave s = s := by
  simp [stopSave, h]

theorem stopSave_keeps (s : State) : Keeps [.store] s (stopSave s) := by
  intro part hp
  unfold stopSave
  split
  · exact Keeps.refl _ _ part hp
  · next o _ => cases o.object <;> cases part <;> first | rfl | (simp at hp)

/-! ### The stored objects read (R181, steps 2 and 3) -/

theorem loadConfiguration_settings (s : State) :
    (loadConfiguration s).settings = if s.store.config.good then s.store.config.content else factorySettings := by
  unfold loadConfiguration
  split <;> rfl

theorem loadConfiguration_keeps (s : State) : Keeps [.settings, .notices] s (loadConfiguration s) := by
  intro part hp
  unfold loadConfiguration
  split <;> cases part <;> first | rfl | (simp at hp)

theorem loadConfiguration_notices_of (s : State) (p : Port) :
    (loadConfiguration s).notices.of p =
      if s.store.config.good then s.notices.of p else (s.notices.of p).take .configLost := by
  unfold loadConfiguration
  split
  · rfl
  · exact postBoth_notices_of _ _ _

theorem loadBanks_program (s : State) :
    (loadBanks s).program = blankProgram s.store.banks s.settings.startupBank := by
  unfold loadBanks
  dsimp only
  split <;> rfl

theorem loadBanks_keeps (s : State) : Keeps [.program, .notices] s (loadBanks s) := by
  intro part hp
  unfold loadBanks
  dsimp only
  split <;> cases part <;> first | rfl | (simp at hp)

theorem loadBanks_notices_of (s : State) (p : Port) :
    (loadBanks s).notices.of p =
      if lostBanks s = 0 then s.notices.of p else (s.notices.of p).take (.bankLost (lostBanks s)) := by
  have hlost : ∀ program, lostBanks { s with program := program } = lostBanks s := fun _ => rfl
  unfold loadBanks
  simp only [hlost]
  split
  · rfl
  · exact postBoth_notices_of _ _ _

theorem takeSettings_keeps (s : State) : Keeps [.firing, .wire, .overrides] s (takeSettings s) := by
  intro part hp
  cases part <;> first | rfl | (simp at hp)

/-- A port's record after a start: empty but for what could not be read (R176, R181). -/
def lossRecord (configGood : Bool) (lost : BankSet) : PortNotices :=
  let r := emptyNotices (BitVec.allOnes 16)
  let r := if configGood then r else r.take .configLost
  if lost = 0 then r else r.take (.bankLost lost)

/-- BANK_LOST stands alone where it was not pending (R173). -/
theorem PortNotices.take_bankLost {r : PortNotices} (h : r.kinds.getLsbD 14 = false) (lost : BankSet) :
    (r.take (.bankLost lost)).bankLost = lost := by
  have hmerge : (r.take (.bankLost lost)).bankLost = mergeScope (r.kinds.getLsbD 14) r.bankLost lost := rfl
  rw [hmerge, h]
  rfl

theorem lossRecord_mask (configGood : Bool) (lost : BankSet) : (lossRecord configGood lost).mask = 0xFFFF := by
  unfold lossRecord
  dsimp only
  split_ifs <;> rfl

theorem lossRecord_kinds (configGood : Bool) (lost : BankSet) (k : Nat) :
    (lossRecord configGood lost).kinds.getLsbD k =
      ((decide (k = 13) && !configGood) || (decide (k = 14) && decide (lost ≠ 0))) := by
  have hempty : (emptyNotices (BitVec.allOnes 16)).kinds.getLsbD k = false := BitVec.getLsbD_zero
  unfold lossRecord
  dsimp only
  rw [Bool.eq_iff_iff]
  split_ifs with hlost hgood hgood <;> simp only [PortNotices.take_kinds_getLsbD, hempty, ne_eq, hlost] <;>
    simp [hgood, Notice.bit, or_comm]

theorem lossRecord_sets (configGood : Bool) (lost : BankSet) :
    (lossRecord configGood lost).sets.take 6 = [0, 0, 0, 0, 0, 0] := by
  unfold lossRecord
  dsimp only
  split_ifs <;> rfl

theorem lossRecord_bankLost (configGood : Bool) (lost : BankSet) : (lossRecord configGood lost).bankLost = lost := by
  unfold lossRecord
  dsimp only
  split_ifs with hlost hgood hgood
  · exact hlost.symm
  · exact hlost.symm
  · exact PortNotices.take_bankLost (by decide) lost
  · exact PortNotices.take_bankLost (by decide) lost

theorem lostBanks_getLsbD (s : State) (b : Fin 4) : (lostBanks s).getLsbD b.val = !(s.store.banks.get b).good :=
  getLsbD_setOf _ b

theorem lostBanks_ne_zero_iff (s : State) : lostBanks s ≠ 0 ↔ ∃ b, (s.store.banks.get b).good = false := by
  rw [set_ne_zero_iff]
  simp only [lostBanks_getLsbD, Bool.not_eq_true']

/-! ### The blocks at their power-up values, with the stored objects loaded -/

/-- The part as a start leaves it before a hot-water call can begin (R181). -/
def loaded (s : State) : State := takeSettings (loadBanks (loadConfiguration (blanked (stopSave s))))

section
variable (s : State)

theorem loaded_keeps :
    Keeps [.settings, .notices, .program, .firing, .wire, .overrides] (blanked (stopSave s)) (loaded s) :=
  (((loadConfiguration_keeps _).mono (by simp)).trans ((loadBanks_keeps _).mono (by simp))).trans
    ((takeSettings_keeps _).mono (by simp))

theorem loaded_store : (loaded s).store = (stopSave s).store := loaded_keeps s .store (by decide)

theorem loaded_settings :
    (loaded s).settings =
      if (loaded s).store.config.good then (loaded s).store.config.content else factorySettings := by
  rw [loaded_store]
  exact ((takeSettings_keeps _ .settings (by decide)).trans (loadBanks_keeps _ .settings (by decide))).trans
    (loadConfiguration_settings _)

theorem loaded_program :
    (loaded s).program = blankProgram (loaded s).store.banks (loaded s).settings.startupBank := by
  have hprogram : (loaded s).program = _ := (takeSettings_keeps _ .program (by decide)).trans (loadBanks_program _)
  have hsettings : (loaded s).settings = (loadConfiguration (blanked (stopSave s))).settings :=
    (takeSettings_keeps _ .settings (by decide)).trans (loadBanks_keeps _ .settings (by decide))
  have hstore : (loadConfiguration (blanked (stopSave s))).store = (stopSave s).store :=
    loadConfiguration_keeps _ .store (by decide)
  rw [hprogram, hsettings, hstore, loaded_store]

theorem loaded_notices_of (p : Port) :
    (loaded s).notices.of p = lossRecord (loaded s).store.config.good (lostBanks (loaded s)) := by
  have hconfig := loadConfiguration_notices_of (blanked (stopSave s)) p
  have hbanks := loadBanks_notices_of (loadConfiguration (blanked (stopSave s))) p
  have hempty : (blanked (stopSave s)).notices.of p = emptyNotices (BitVec.allOnes 16) := by cases p <;> rfl
  have hlost : lostBanks (loadConfiguration (blanked (stopSave s))) = lostBanks (loaded s) := by
    have hstore : (loadConfiguration (blanked (stopSave s))).store = (loaded s).store :=
      (loadConfiguration_keeps _ .store (by decide)).trans (loaded_store s).symm
    simp only [lostBanks, storedBank, hstore]
  have hgood : (blanked (stopSave s)).store.config.good = (loaded s).store.config.good := by rw [loaded_store]; rfl
  have hnotices : (loaded s).notices = (loadBanks (loadConfiguration (blanked (stopSave s)))).notices :=
    takeSettings_keeps _ .notices (by decide)
  rw [hnotices, hbanks, hconfig, hempty, hlost, hgood, lossRecord]

theorem loaded_firing : (loaded s).firing = blankFiring (loaded s).settings.firing.minOff (loaded s).inputs.fault := rfl

theorem loaded_resolved : SetpointsResolved (loaded s) := fun z => Tab.get_ofFn _ z

theorem loaded_slots : (loaded s).overrides.slots = [] :=
  congrArg Overrides.slots ((loadBanks_keeps _ .overrides (by decide)).trans
    (loadConfiguration_keeps (blanked (stopSave s)) .overrides (by decide)))

theorem loaded_wire : ∃ bus, (loaded s).wire = blankWire bus (loaded s).settings.wireAddress := ⟨_, rfl⟩

end

/-! ### The hot-water call that can begin at once (R142) -/

/-- The firing controller after a start, by whether a hot-water call has begun: with a call the diverter is ON, and the
state waits for the path or, where the open time is 0, for the permission. -/
def startedFiring (c : Settings) (fault called : Bool) : Firing :=
  { blankFiring c.firing.minOff fault with
    state := if called then (if c.hotWater.openTime = 0 then .blocked else .waitPath) else .idle
    call := called
    diverter := called
    dhwPath := called && decide (c.hotWater.openTime = 0)
    pathWait := if called = true ∧ c.hotWater.openTime ≠ 0 then some 0 else none
    priority := if called = true ∧ c.hotWater.absolute = true then some 0 else none }

/-- Without a timed call and with the schedule state OFF a call is wanted in FOLLOW alone (R137). -/
theorem callWanted_of_blank {s : State} (htimed : s.firing.timedCall = none) (hschedule : s.firing.schedule = false) :
    callWanted s = (decide (s.settings.hotWater.mode = .follow) && s.inputs.request) := by
  unfold callWanted ownCondition
  rw [htimed, hschedule]
  cases s.settings.hotWater.mode <;> cases s.inputs.request <;> rfl

theorem deriveCall_of_not_wanted {s : State} (h : callWanted s = false) (hcall : s.firing.call = false) :
    deriveCall s = s := by
  simp [deriveCall, h, hcall]

section
variable {s : State} (h : s.firing = blankFiring s.settings.firing.minOff s.inputs.fault)
include h

/-- A call that starts in IDLE turns the diverter ON. -/
theorem startCall_of_blank :
    startCall s = modFiring (fun f => { f with
      call := true
      diverter := true
      dhwPath := decide (s.settings.hotWater.openTime = 0)
      priority := if s.settings.hotWater.absolute then some 0 else none }) (raise .dhwOn s) := by
  simp [startCall, setDiverter, formFlow, modFiring, raise, raiseFor, setRaised, h, blankFiring, Firing.diverterHeld]

/-- The call then waits: the flow temperature is not yet known, so that firing is not permitted (R119, R122). -/
theorem settle_startCall_of_blank :
    settle (startCall s) =
      enterQuiet (if s.settings.hotWater.openTime = 0 then .blocked else .waitPath) (startCall s) := by
  rw [startCall_of_blank h]
  by_cases hopen : s.settings.hotWater.openTime = 0 <;>
    simp [settle, select, selection, permitted, unobstructed, Firing.anyCall, Firing.heatingCall, Firing.heatingZones,
      Firing.pathExists, Firing.flowKnown, h, blankFiring, blankReport, blankDemand, hopen]

theorem deriveCall_firing_of_blank :
    (deriveCall s).firing = startedFiring s.settings s.inputs.fault (callWanted s) := by
  have hcall : s.firing.call = false := by rw [h]; rfl
  cases hwanted : callWanted s with
  | false =>
    rw [deriveCall_of_not_wanted hwanted hcall, h]
    simp [startedFiring, blankFiring]
  | true =>
    have hderive : deriveCall s = settle (startCall s) := by simp [deriveCall, hwanted, hcall]
    rw [hderive, settle_startCall_of_blank h, startCall_of_blank h]
    by_cases hopen : s.settings.hotWater.openTime = 0 <;>
      simp [enterQuiet, startedFiring, h, blankFiring, hopen]

theorem deriveCall_keeps_of_blank : Keeps [.firing, .raised] s (deriveCall s) := by
  have hcall : s.firing.call = false := by rw [h]; rfl
  cases hwanted : callWanted s with
  | false =>
    rw [deriveCall_of_not_wanted hwanted hcall]
    exact Keeps.refl _ _
  | true =>
    have hderive : deriveCall s = settle (startCall s) := by simp [deriveCall, hwanted, hcall]
    rw [hderive, settle_startCall_of_blank h, startCall_of_blank h]
    intro part hp
    cases part <;> first | rfl | (simp at hp)

end

/-! ### The row -/

/-- The part behind a start, its events not yet taken. -/
def started (s : State) : State := setPowered true (startPart (nothingRaised s))

theorem startPart_eq (s : State) : startPart s = deriveCall (loaded s) := rfl

/-- The parts that stand through a start: the levels of the input lines and the model's own queue and orders. -/
theorem startPart_keeps (s : State) :
    Keeps [.clock, .program, .overrides, .capture, .regulator, .valves, .firing, .links, .notices, .settings, .store,
      .text, .wire, .handed, .answered, .raised] s (startPart s) := by
  have hblank : Keeps [.clock, .program, .overrides, .capture, .regulator, .valves, .firing, .links, .notices,
      .settings, .text, .wire, .handed, .answered] (stopSave s) (blanked (stopSave s)) := by
    intro part hp
    cases part <;> first | rfl | (simp at hp)
  rw [startPart_eq]
  exact ((((stopSave_keeps s).mono (by simp)).trans (hblank.mono (by simp))).trans
    ((loaded_keeps s).mono (by simp))).trans ((deriveCall_keeps_of_blank (loaded_firing s)).mono (by simp))

/-- At POWER_UP, and at the external reset input of a part under power, the part starts (R181, log entry 2). -/
theorem exec_start {i : Instr} {s : State} (h : i = .powerUp ∨ (i = .externalReset ∧ s.powered = true)) :
    exec i s = .next (eventsTaken s (started s)) := by
  rcases h with rfl | ⟨rfl, hp⟩
  · rfl
  · have hpowered : (startPart (nothingRaised s)).powered = true :=
      (startPart_keeps (nothingRaised s) .powered (by decide)).trans hp
    have hstarted : started s = startPart (nothingRaised s) := by
      rw [started, setPowered, ← hpowered]
    rw [hstarted]
    exact event_powered _ _ hp

theorem started_of_loaded (s : State) : Keeps [.powered, .firing, .raised] (loaded (nothingRaised s)) (started s) := by
  have hset : Keeps [.powered] (startPart (nothingRaised s)) (started s) := by
    intro part hp
    cases part <;> first | rfl | (simp at hp)
  exact ((deriveCall_keeps_of_blank (loaded_firing _)).mono (by simp)).trans (hset.mono (by simp))

theorem started_firing (s : State) :
    (started s).firing = startedFiring (started s).settings s.inputs.fault
      (decide ((started s).settings.hotWater.mode = .follow) && s.inputs.request) := by
  have hfiring : (started s).firing = startedFiring (loaded (nothingRaised s)).settings
      (loaded (nothingRaised s)).inputs.fault (callWanted (loaded (nothingRaised s))) :=
    deriveCall_firing_of_blank (loaded_firing _)
  have hinputs : (loaded (nothingRaised s)).inputs = s.inputs :=
    (loaded_keeps _ .inputs (by decide)).trans (stopSave_keeps (nothingRaised s) .inputs (by decide))
  have hsettings : (started s).settings = (loaded (nothingRaised s)).settings :=
    started_of_loaded s .settings (by decide)
  rw [hfiring, callWanted_of_blank rfl rfl, hinputs, hsettings]

/-- Where no call begins the matrix has nothing to take. -/
theorem started_raised {s : State} (h : (started s).settings.hotWater.mode = .follow → s.inputs.request = false) :
    (started s).raised = [] := by
  have hinputs : (loaded (nothingRaised s)).inputs = s.inputs :=
    (loaded_keeps _ .inputs (by decide)).trans (stopSave_keeps (nothingRaised s) .inputs (by decide))
  have hsettings : (started s).settings = (loaded (nothingRaised s)).settings :=
    started_of_loaded s .settings (by decide)
  have hwanted : callWanted (loaded (nothingRaised s)) = false := by
    rw [callWanted_of_blank rfl rfl, hinputs, ← hsettings]
    simpa using h
  have hraised : (loaded (nothingRaised s)).raised = [] :=
    (loaded_keeps _ .raised (by decide)).trans (stopSave_keeps (nothingRaised s) .raised (by decide))
  rw [← hraised, started, startPart_eq, deriveCall_of_not_wanted hwanted rfl]
  rfl

/-- The state after a start, the matrix's part included. -/
structure Started (s t : State) : Prop where
  row : ∀ i, (i = .powerUp ∨ (i = .externalReset ∧ s.powered = true)) → exec i s = .next t
  keeps : Keeps [.powered, .clock, .program, .overrides, .capture, .regulator, .valves, .firing, .links, .notices,
    .settings, .store, .text, .wire, .handed, .answered] s t
  powered : t.powered = true
  kept : Keeps [.powered, .firing, .links, .raised] (loaded (nothingRaised s)) t
  firing : t.firing = startedFiring t.settings s.inputs.fault
    (decide (t.settings.hotWater.mode = .follow) && s.inputs.request)
  links : (t.settings.hotWater.mode = .follow → s.inputs.request = false) → t.links = blankLinks

theorem exists_started (s : State) : ∃ t, Started s t := by
  have htaken : Keeps [.links, .raised] (started s) (eventsTaken s (started s)) := by
    have hset : Keeps [.raised] (takeRaised (started s)) (eventsTaken s (started s)) := by
      intro part hp
      cases part <;> first | rfl | (simp at hp)
    exact (takeInTurns_keeps [] _).trans (hset.mono (by simp))
  have hsettings : (eventsTaken s (started s)).settings = (started s).settings := htaken .settings (by decide)
  refine ⟨eventsTaken s (started s), fun i hi => exec_start hi, ?_, htaken .powered (by decide), ?_, ?_,
    fun hquiet => ?_⟩
  · have hset : Keeps [.powered] (startPart (nothingRaised s)) (started s) := by
      intro part hp
      cases part <;> first | rfl | (simp at hp)
    refine (eventsTaken_keeps (l := [.powered, .clock, .program, .overrides, .capture, .regulator, .valves, .firing,
      .links, .notices, .settings, .store, .text, .wire, .handed, .answered]) ?_).mono (by simp)
    exact ((startPart_keeps _).mono (by simp)).trans (hset.mono (by simp))
  · exact ((started_of_loaded s).mono (by simp)).trans (htaken.mono (by simp))
  · rw [hsettings]
    exact (htaken .firing (by decide)).trans (started_firing s)
  · rw [hsettings] at hquiet
    have hlinks : (started s).links = blankLinks :=
      (started_of_loaded s .links (by decide)).trans (loaded_keeps _ .links (by decide))
    rw [eventsTaken_of_nil (started_raised hquiet)]
    exact hlinks

section
variable {s t : State} (h : Started s t)
include h

theorem Started.of_blanked :
    Keeps [.powered, .settings, .notices, .program, .firing, .wire, .overrides, .links, .raised]
      (blanked (stopSave (nothingRaised s))) t :=
  ((loaded_keeps _).mono (by simp)).trans (h.kept.mono (by simp))

theorem Started.store : t.store = (stopSave (nothingRaised s)).store :=
  (h.kept .store (by decide)).trans (loaded_store _)

theorem Started.settings_eq :
    t.settings = if t.store.config.good then t.store.config.content else factorySettings := by
  have hsettings : t.settings = (loaded (nothingRaised s)).settings := h.kept .settings (by decide)
  have hstore : t.store = (loaded (nothingRaised s)).store := h.kept .store (by decide)
  rw [hsettings, hstore]
  exact loaded_settings _

theorem Started.program : t.program = blankProgram t.store.banks t.settings.startupBank := by
  have hprogram : t.program = (loaded (nothingRaised s)).program := h.kept .program (by decide)
  have hsettings : t.settings = (loaded (nothingRaised s)).settings := h.kept .settings (by decide)
  have hstore : t.store = (loaded (nothingRaised s)).store := h.kept .store (by decide)
  rw [hprogram, hsettings, hstore]
  exact loaded_program _

theorem Started.notices_of (p : Port) : t.notices.of p = lossRecord t.store.config.good (lostBanks t) := by
  have hnotices : t.notices = (loaded (nothingRaised s)).notices := h.kept .notices (by decide)
  have hstore : t.store = (loaded (nothingRaised s)).store := h.kept .store (by decide)
  rw [hnotices, loaded_notices_of, lostBanks, lostBanks]
  simp only [storedBank, hstore]

theorem Started.wire : ∃ bus, t.wire = blankWire bus t.settings.wireAddress := by
  have hwire : t.wire = (loaded (nothingRaised s)).wire := h.kept .wire (by decide)
  have hsettings : t.settings = (loaded (nothingRaised s)).settings := h.kept .settings (by decide)
  rw [hwire, hsettings]
  exact loaded_wire _

theorem Started.overrides : t.overrides.slots = [] ∧ SetpointsResolved t :=
  ⟨(congrArg Overrides.slots (h.kept .overrides (by decide))).trans (loaded_slots _),
    (loaded_resolved _).of_keeps h.kept (by decide)⟩

/-- The capture channels and the valve channels keep the levels of their inputs alone. -/
theorem Started.inputs : t.capture = blankCapture s.capture.channels ∧ t.valves = blankValves s.valves.channels := by
  have hcapture : (stopSave (nothingRaised s)).capture = s.capture := stopSave_keeps _ .capture (by decide)
  have hvalves : (stopSave (nothingRaised s)).valves = s.valves := stopSave_keeps _ .valves (by decide)
  rw [← hcapture, ← hvalves]
  exact ⟨h.of_blanked .capture (by decide), h.of_blanked .valves (by decide)⟩

end

/-- Settles O7: `Started` says what the start leaves in each block; the firing controller's record is one record for
both outcomes of the hot-water call. -/
theorem powerUpLoadsStoredObjects : Obligations.PowerUpLoadsStoredObjects := by
  intro i s hi
  obtain ⟨t, h⟩ := exists_started s
  obtain ⟨hslots, hresolved⟩ := h.overrides
  obtain ⟨hcapture, hvalves⟩ := h.inputs
  obtain ⟨bus, hwire⟩ := h.wire
  have hblank := h.of_blanked
  have hclock : t.clock = blankClock := hblank .clock (by decide)
  have hregulator : t.regulator = blankRegulator := hblank .regulator (by decide)
  have htext : t.text = blankText := hblank .text (by decide)
  have hhanded : t.handed = [] := hblank .handed (by decide)
  refine ⟨t, h.row i hi, h.keeps, fun hidle => ?_, ?_, h.powered, hclock, hslots, hresolved, h.settings_eq, ?_⟩
  · rw [h.store, stopSave_of_idle (s := nothingRaised s) hidle]
    rfl
  · rw [h.store]
    exact stopSave_operation _
  have hremembered : ∀ l, t.program.remembered.get l = none := by
    rw [h.program]
    exact Tab.get_all _
  refine ⟨by rw [h.program]; rfl, by rw [h.program]; rfl, hremembered, fun b => ?_, fun p => ?_, hcapture, hregulator,
    fun v => ?_, by rw [hvalves]; rfl, by rw [hvalves]; rfl, by rw [hvalves]; rfl, ?_⟩
  · have hbank : t.program.banks.get b = loadedBank (t.store.banks.get b) := by
      rw [h.program]
      exact Tab.get_ofFn _ _
    rw [hbank]
    exact ⟨rfl, rfl, rfl⟩
  · rw [h.notices_of]
    refine ⟨lossRecord_mask _ _, fun k => ?_, lossRecord_sets _ _, fun b => ?_⟩
    · rw [lossRecord_kinds]
      simp only [lostBanks_ne_zero_iff, Fin.ext_iff]
      rfl
    · rw [lossRecord_bankLost, lostBanks_getLsbD]
  · rw [hvalves]
    exact Tab.get_ofFn _ _
  rw [h.firing, hwire, htext, hhanded]
  iterate 21 refine ⟨rfl, ?_⟩
  refine ⟨fun hquiet => ?_, fun hfollow hrequest => ?_, rfl, rfl, rfl, rfl, rfl, rfl, rfl⟩
  · have hcalled : (decide (t.settings.hotWater.mode = .follow) && s.inputs.request) = false := by simpa using hquiet
    rw [hcalled]
    exact ⟨rfl, rfl, rfl, rfl, rfl, rfl, h.links hquiet⟩
  · rw [hfollow, hrequest]
    refine ⟨?_, rfl, rfl, ?_⟩
    · by_cases hopen : t.settings.hotWater.openTime = 0 <;> simp [startedFiring, hopen]
    · simp [startedFiring]

/-- Settles O3: the reset state holds the blank records, field by field and index by index. -/
theorem resetHoldsPowerUpValues : Obligations.ResetHoldsPowerUpValues := by
  have hbank : ∀ b, State.reset.program.banks.get b = loadedBank (unwrittenStore.banks.get b) := Tab.get_ofFn _
  have hstored : ∀ b, unwrittenStore.banks.get b = ⟨emptyLists, true⟩ := Tab.get_all _
  have hlists : ∀ l, emptyLists.get l = [] := Tab.get_all _
  have hvalve : ∀ v, State.reset.valves.channels.get v = blankValve _ := Tab.get_ofFn _
  have hzone : ∀ z, State.reset.regulator.zones.get z = blankZoneRecord := Tab.get_all _
  have hchannel : ∀ c, State.reset.capture.channels.get c = blankChannel _ := Tab.get_ofFn _
  have hcount : ∀ e, State.reset.links.counts.get e = 0 := Tab.get_all _
  refine ⟨rfl, rfl, rfl, rfl, fun b => ?_, fun v => ?_, fun z => ?_, fun c => ?_, ?_⟩
  · rw [hbank, hstored]
    exact ⟨rfl, rfl, hlists⟩
  · rw [hvalve]
    exact ⟨rfl, rfl, rfl, rfl⟩
  · rw [hzone]
    exact ⟨rfl, rfl⟩
  · rw [hchannel]
    exact ⟨rfl, rfl⟩
  iterate 11 refine ⟨rfl, ?_⟩
  exact ⟨hcount, fun p => by cases p <;> exact ⟨rfl, rfl, rfl⟩, rfl, rfl, rfl, rfl, rfl, rfl⟩

end Sys2Proof.Machine

namespace Sys2Proof.Machine

/-! ## The configuration records and banks that the part holds (R14, R177, R180) -/

/-- All that the part holds of configuration records and banks: in RAM, stored, and the snapshot of a save in flight. -/
def State.data (s : State) : Settings × Store × Tab 4 Bank := (s.settings, s.store, s.program.banks)

theorem data_eq_iff {s t : State} :
    t.data = s.data ↔ t.settings = s.settings ∧ t.store = s.store ∧ t.program.banks = s.program.banks := by
  simp [State.data]

/-- The data stand where the parts that hold them are kept. -/
theorem Keeps.data {l : List Part} {s t : State} (h : Keeps l s t)
    (hl : ∀ part ∈ [Part.settings, .store, .program], part ∉ l) : t.data = s.data :=
  data_eq_iff.2 ⟨h .settings (hl _ (by decide)), h .store (hl _ (by decide)),
    congrArg Program.banks (h .program (hl _ (by decide)))⟩

theorem ReachesPosting.data {s t : State} (h : ReachesPosting s t) : t.data = s.data := h.1.data (by decide)

theorem Reaches.data {s t : State} (h : Reaches s t) : t.data = s.data := h.1.data (by decide)

theorem foldl_data {α : Type} {f : State → α → State} (h : ∀ s a, (f s a).data = s.data) (l : List α) (s : State) :
    (l.foldl f s).data = s.data := by
  induction l generalizing s with
  | nil => rfl
  | cons a l ih => exact (ih _).trans (h s a)

/-! ### Updates of one part -/

section
variable (s : State)

@[simp] theorem post_data (p : Port) (n : Notice) : (post p n s).data = s.data := rfl
@[simp] theorem postBoth_data (n : Notice) : (postBoth n s).data = s.data := rfl
@[simp] theorem raiseFor_data (k : SourceKind) (i : Fin 16) : (raiseFor k i s).data = s.data := rfl
@[simp] theorem raise_data (k : SourceKind) : (raise k s).data = s.data := rfl
@[simp] theorem setRaised_data (events : List SourceEvent) : (setRaised events s).data = s.data := rfl
@[simp] theorem nothingRaised_data : (nothingRaised s).data = s.data := rfl
@[simp] theorem modFiring_data (f : Firing → Firing) : (modFiring f s).data = s.data := rfl
@[simp] theorem resolve_data : (resolve s).data = s.data := rfl
@[simp] theorem setActive_data (b : Fin 4) : (setActive b s).data = s.data := rfl
@[simp] theorem setTimed_data (r : Option Timed) : (setTimed r s).data = s.data := rfl
@[simp] theorem setRemembered_data (f : Fin 17 → Option Entry) : (setRemembered f s).data = s.data := rfl
@[simp] theorem modChannel_data (ch : Fin 18) (f : Channel → Channel) : (modChannel ch f s).data = s.data := rfl
@[simp] theorem setChannels_data (x : Tab 16 ValveChannel) : (setChannels x s).data = s.data := rfl
@[simp] theorem modValve_data (ch : Fin 16) (f : ValveChannel → ValveChannel) : (modValve ch f s).data = s.data := rfl
@[simp] theorem setReport_data (r : PathReport) : (setReport r s).data = s.data := rfl
@[simp] theorem setRegulator_data (r : Regulator) : (setRegulator r s).data = s.data := rfl
@[simp] theorem modText_data (f : TextPort → TextPort) : (modText f s).data = s.data := rfl
@[simp] theorem modWire_data (f : WirePort → WirePort) : (modWire f s).data = s.data := rfl
@[simp] theorem handOver_data (c : Instr) : (handOver c s).data = s.data := rfl
@[simp] theorem putSlots_data (slots : List Slot) : (putSlots slots s).data = s.data := rfl

@[simp] theorem takeInTurns_data (turns : List Nat) : (takeInTurns turns s).data = s.data :=
  (takeInTurns_keeps turns s).data (by decide)

@[simp] theorem takeRaised_data : (takeRaised s).data = s.data := takeInTurns_data s []

@[simp] theorem takeEvents_data (events : List SourceEvent) : (takeEvents events s).data = s.data :=
  (takeEvents_keeps events s).data (by decide)

@[simp] theorem deliver_data (c : Instr) (p : Port) (r : Response) : (deliver c p r s).data = s.data :=
  (deliver_keeps c p r s).data (by decide)

@[simp] theorem raiseEach_data (k : SourceKind) (indices : List (Fin 16)) : (raiseEach k indices s).data = s.data :=
  foldl_data (fun s i => raiseFor_data s k i) indices s

/-! ### Rows over their blocks -/

/-- A step that takes an order keeps the data where its block does. -/
theorem withOrder_data {f : Order → State → State} (h : ∀ o s, (f o s).data = s.data) :
    (withOrder f s).data = s.data := h _ _

theorem withMatrix_data (block : State → State) : (withMatrix block s).data = (block (nothingRaised s)).data :=
  (setRaised_data _ _).trans (takeRaised_data _)

end

/-- A command leaves the data as its block does, or as they were. -/
theorem command_data {c : Instr} {p : Port} {block : State → State × Response} {s t : State}
    (h : command c p block s = .next t) : t.data = (block (nothingRaised s)).1.data ∨ t.data = s.data := by
  rcases (command_eq_next_iff c p block s t).1 h with ⟨-, rfl⟩ | ⟨-, rfl⟩
  · exact .inl ((deliver_data _ _ _ _).trans (withMatrix_data s fun s => (block s).1))
  · exact .inr rfl

theorem event_data {block : State → State} {s t : State} (h : event block s = .next t) :
    t.data = (block (nothingRaised s)).data ∨ t.data = s.data := by
  rcases (event_eq_next_iff block s t).1 h with ⟨-, rfl⟩ | ⟨-, rfl⟩
  · exact .inl (withMatrix_data s block)
  · exact .inr rfl

theorem command_data_of_block {c : Instr} {p : Port} {block : State → State × Response} {s t : State}
    (h : command c p block s = .next t) (hb : ∀ s, (block s).1.data = s.data) : t.data = s.data := by
  rcases command_data h with h | h
  · exact h.trans (hb _)
  · exact h

theorem event_data_of_block {block : State → State} {s t : State} (h : event block s = .next t)
    (hb : ∀ s, (block s).data = s.data) : t.data = s.data := by
  rcases event_data h with h | h
  · exact h.trans (hb _)
  · exact h

theorem lineEvent_data_of_block {level block : State → State} {s t : State} (h : lineEvent level block s = .next t)
    (hl : ∀ s, (level s).data = s.data) (hb : ∀ s, (block s).data = s.data) : t.data = s.data := by
  rcases (lineEvent_eq_next_iff level block s t).1 h with ⟨-, rfl⟩ | ⟨-, rfl⟩
  · exact (withMatrix_data _ _).trans ((hb _).trans (hl s))
  · exact hl s

/-! ### The override table and the program store's evaluation -/

section
variable (s : State)

@[simp] theorem expire_data (p : Slot → Bool) : (expire p s).data = s.data := (expire_keeps p s).data (by decide)

@[simp] theorem handOn_data : (handOn s).data = s.data := (handOn_keeps s).data (by decide)

@[simp] theorem reevaluate_data (q : Fin 17 → Bool) : (reevaluate q s).data = s.data := by
  unfold reevaluate
  split <;> rfl

@[simp] theorem postBankChanged_data (cause : Option Port) : (postBankChanged cause s).data = s.data := by
  cases cause <;> rfl

@[simp] theorem changeBank_data (order : Order) (cause : Option Port) (b : Fin 4) :
    (changeBank order cause b s).data = s.data := by
  unfold changeBank
  split
  · rfl
  · simp [expireNext, silently]

@[simp] theorem cross_data (order : Order) (crossed : Fin 17 → Bool) (next : Fin 17 → Option Entry) :
    (cross order crossed next s).data = s.data := by
  have hzones : ∀ zones s, (List.foldl crossZone s zones).data = s.data :=
    foldl_data fun s z => (crossZone_keeps s z).data (by decide)
  simp [cross, hzones]

theorem storeMinute_data (order : Order) (d m : Nat) : (storeMinute order d m s).data = s.data := by
  rcases storeMinute_cases order d m s with ⟨-, h⟩ | ⟨r, -, -, ⟨-, h⟩ | ⟨-, h⟩⟩ <;> rw [h] <;>
    simp [evaluateMinute]

theorem minuteEvent_data (order : Order) : (minuteEvent order s).data = s.data :=
  ((countDown_keeps _).data (by decide)).trans (storeMinute_data _ _ _ _)

theorem secondBoundaryBlock_data : (secondBoundaryBlock s).data = s.data := by
  unfold secondBoundaryBlock
  dsimp only
  split_ifs
  · exact withOrder_data _ fun o s => minuteEvent_data s o
  · exact withOrder_data _ fun o s => minuteEvent_data s o
  · rfl
  · rfl

theorem clockSetBlock_data (p : Port) (day minute second : Int) :
    (clockSetBlock p day minute second s).1.data = s.data := by
  unfold clockSetBlock
  split
  · exact ((jumpSlots_keeps _ _ _).data (by decide)).trans (withOrder_data _ fun o s => cross_data s o _ _)
  · rfl

theorem bankSelectBlock_data (p : Port) (bank : Int) : (bankSelectBlock p bank s).1.data = s.data := by
  unfold bankSelectBlock
  split
  · exact withOrder_data _ fun o s => changeBank_data _ o _ _
  · rfl

theorem bankTimedBlock_data (p : Port) (bank days endMinute : Int) :
    (bankTimedBlock p bank days endMinute s).1.data = s.data := by
  unfold bankTimedBlock
  split
  · split_ifs
    · rfl
    · rfl
    · exact withOrder_data _ fun o s => changeBank_data _ o _ _
  · rfl

theorem bankCancelBlock_data (p : Port) : (bankCancelBlock p s).1.data = s.data := by
  unfold bankCancelBlock
  split
  · exact withOrder_data _ fun o s => changeBank_data _ o _ _
  · rfl

theorem writeSlot_data (p : Port) (z : Fin 16) (sp : Option Int) (k : Kind) :
    (writeSlot p z sp k s).1.data = s.data := by
  have hroom : (makeRoom s).data = s.data := by
    unfold makeRoom
    split
    · exact (evict_keeps s).data (by decide)
    · rfl
  unfold writeSlot
  split
  · exact ((postChangedBy_keeps _ _ _).data (by decide)).trans (putSlots_data _ _)
  · split
    · rfl
    · exact (putSlots_data _ _).trans hroom

theorem ovrSetBlock_data (p : Port) (zone setpoint kind : Int) (endDay endMinute : Option Int) :
    (ovrSetBlock p zone setpoint kind endDay endMinute s).1.data = s.data := by
  unfold ovrSetBlock
  split
  · rfl
  · split_ifs
    · exact writeSlot_data _ _ _ _ _
    · exact writeSlot_data _ _ _ _ _
    · split
      · rfl
      · rfl
      · exact writeSlot_data _ _ _ _ _
    · rfl

theorem ovrHoldBlock_data (p : Port) (zone : Int) (setpoint : Option Int) :
    (ovrHoldBlock p zone setpoint s).1.data = s.data := by
  unfold ovrHoldBlock
  split
  · rfl
  · exact writeSlot_data _ _ _ _ _

theorem ovrReleaseBlock_data (p : Port) (zone : Int) : (ovrReleaseBlock p zone s).1.data = s.data := by
  unfold ovrReleaseBlock
  split
  · rfl
  · split
    · exact (postChangedBy_keeps _ _ _).data (by decide)
    · rfl

/-! ### The capture unit, the regulator and the valve driver -/

theorem tempReportBlock_data (zone value : Int) : (tempReportBlock zone value s).1.data = s.data := by
  unfold tempReportBlock
  split
  · rfl
  · split <;> rfl

theorem expireWindow_data (order : Order) : (expireWindow order s).data = s.data := by
  have hlost : ∀ zones s, (reportLost order.indices zones s).data = s.data := by
    intro zones s
    unfold reportLost
    split
    · rfl
    · exact raiseEach_data _ _ _
  exact (takePublication_reaches _).data.trans ((takeRaised_data _).trans (hlost _ _))

@[simp] theorem handReport_data : (handReport s).data = s.data := by
  unfold handReport
  split
  · rfl
  · exact (takeReport_reaches _ _).data

theorem handDemand_data (order : PassOrder) (d : Demand) : (handDemand order d s).data = s.data := by
  have htaken : ∀ stood s, (takeDemand stood d s).data = s.data := fun stood s => (takeDemand_reaches stood d s).data
  have happlied : ∀ s, (applyDemand d s).data = s.data := fun _ => rfl
  cases order <;> simp [handDemand, htaken, happlied]

theorem passBlock_data (order : Order) : (passBlock order s).data = s.data := by
  have hfrost : ∀ before after s, ((List.finRange 16).foldl (frostEvent before after) s).data = s.data := by
    refine fun before after => foldl_data (fun s z => ?_) _
    unfold frostEvent
    split <;> rfl
  have hcalls : ∀ before after s, ((List.finRange 16).foldl (callEvent before after) s).data = s.data := by
    refine fun before after => foldl_data (fun s z => ?_) _
    unfold callEvent
    split <;> rfl
  simp [passBlock, bringUpCalling, hfrost, hcalls, handDemand_data]

theorem faultsThenReport_data (order : Order) (faulted : ChannelSet) :
    (faultsThenReport order faulted s).data = s.data := by
  have hreported : (reportFaults order.indices faulted s).data = s.data := by
    unfold reportFaults
    split
    · rfl
    · exact raiseEach_data _ _ _
  simp [faultsThenReport, hreported]

theorem faultChannel_data (ch : Fin 16) : (faultChannel ch s).data = s.data :=
  withOrder_data s fun o _ => faultsThenReport_data _ o _

theorem confirmTimeoutBlock_data (ch : Fin 16) : (confirmTimeoutBlock ch s).data = s.data := by
  unfold confirmTimeoutBlock
  split
  · exact faultChannel_data s ch
  · rfl

theorem endSwitchBlock_data (ch : Fin 16) (closed : Bool) : (endSwitchBlock ch closed s).data = s.data := by
  unfold endSwitchBlock
  split
  · rfl
  · split
    · exact handReport_data _
    · exact faultChannel_data s ch
    all_goals rfl

theorem valveClearBlock_data (channel : Int) : (valveClearBlock channel s).1.data = s.data := by
  unfold valveClearBlock
  split
  · rfl
  · split
    · exact handReport_data _
    · rfl

/-! ### The firing controller -/

theorem inhibitBlock_data (p : Port) (value : Int) : (inhibitBlock p value s).1.data = s.data := by
  unfold inhibitBlock
  split
  · exact (settle_reaches _).data
  · rfl

theorem endLockout_data (p : Port) : (endLockout p s).data = s.data := by
  unfold endLockout
  simp only [(select_reaches _).data, post_data, modFiring_data, raise_data, (releaseAnyHold_reaches _).data,
    (setPump_reaches _ _).data]

theorem lockoutClearBlock_data (p : Port) : (lockoutClearBlock p s).1.data = s.data := by
  unfold lockoutClearBlock
  split
  · split
    · split
      · exact endLockout_data s p
      · rfl
    · exact endLockout_data s p
  · rfl

theorem dhwBoostBlock_data (minutes : Int) : (dhwBoostBlock minutes s).1.data = s.data := by
  unfold dhwBoostBlock
  split_ifs
  · rfl
  · exact (setTimedCall_reaches _ _).data
  · rfl

theorem flameBlock_data (asserted : Bool) : (flameBlock asserted s).data = s.data := by
  unfold flameBlock
  split <;> rfl

theorem requestBlock_data (asserted : Bool) : (requestBlock asserted s).data = s.data := by
  unfold requestBlock
  split
  · exact (setTimedCall_reaches _ _).data
  · exact (deriveCall_reaches _).data

theorem onEdge_data {block : State → State} (h : ∀ s, (block s).data = s.data) (old new : Bool) :
    (onEdge old new block s).data = s.data := by
  unfold onEdge
  split
  · rfl
  · exact h s

/-- A timer's expiry passes through the controller where the timer runs, and changes nothing where it does not. -/
theorem ite_data {c : Prop} [Decidable c] {t : State} (h : t.data = s.data) : (if c then t else s).data = s.data := by
  split
  · exact h
  · rfl

theorem overrunBlock_data : (overrunBlock s).data = s.data := ite_data s (endOverrun_reaches _).data
theorem minOnBlock_data : (minOnBlock s).data = s.data := ite_data s (settle_reaches _).data
theorem minOffBlock_data : (minOffBlock s).data = s.data := ite_data s (settle_reaches _).data
theorem pathWaitBlock_data : (pathWaitBlock s).data = s.data := ite_data s rfl
theorem flameWaitBlock_data : (flameWaitBlock s).data = s.data := ite_data s rfl
theorem faultPersistenceBlock_data : (faultPersistenceBlock s).data = s.data := ite_data s (lockOut_reaches _ _).data
theorem timedCallBlock_data : (timedCallBlock s).data = s.data := ite_data s (deriveCall_reaches _).data
theorem priorityBlock_data : (priorityBlock s).data = s.data := ite_data s (endPriority_reaches _).data
theorem diverterOpenBlock_data : (diverterOpenBlock s).data = s.data := ite_data s (settle_reaches _).data

/-! ### The matrix and the ports -/

theorem writeLines_data (f : LineSet → LineSet → LineSet) (lines : Int) : (writeLines f lines s).1.data = s.data := by
  unfold writeLines
  split <;> rfl

theorem noticeMaskBlock_data (p : Port) (mask : Int) : (noticeMaskBlock p mask s).1.data = s.data := by
  unfold noticeMaskBlock
  split <;> rfl

theorem enqueue_data (j : Judgement) : (enqueue j s).data = s.data := by
  unfold enqueue
  split
  · cases j <;> rfl
  · rfl

theorem textCharacterBlock_data (c : Byte) (framingError : Bool) :
    (textCharacterBlock c framingError s).data = s.data := by
  have hline : (completeLine s).data = s.data := by
    unfold completeLine
    rw [modText_data]
    split
    · rfl
    · exact enqueue_data s _
  unfold textCharacterBlock
  split_ifs
  · rfl
  · rfl
  · exact hline
  · rfl
  · rfl

theorem textSendBlock_data : (textSendBlock s).data = s.data := by
  unfold textSendBlock
  split <;> rfl

theorem textSentBlock_data : (textSentBlock s).data = s.data := by
  unfold textSentBlock
  split <;> rfl

theorem judgeFrame_data : (judgeFrame s).data = s.data := by
  unfold judgeFrame
  split
  · rfl
  · split_ifs
    · rfl
    · split <;> rfl
    · rfl

theorem takeByte_data (role : Role) (b : Byte) : (takeByte role b s).data = s.data := by
  unfold takeByte takeAddress
  split
  · split_ifs <;> rfl
  all_goals rfl

theorem takeBit_data (t : Carried) (b : Bool) : (takeBit t b s).data = s.data := by
  unfold takeBit
  split_ifs
  · rfl
  · exact takeByte_data _ _ _
  · rfl

theorem startSign_data : (startSign s).data = s.data := by
  unfold startSign
  split
  · rfl
  · split <;> rfl

theorem stopSign_data : (stopSign s).data = s.data := by
  unfold stopSign closeTransfer
  split
  · rfl
  · split
    · split
      · exact judgeFrame_data s
      all_goals rfl
    · rfl

theorem takeLevels_data (l : Levels) : (takeLevels l s).data = s.data := by
  have hbit : ∀ b s, (bitTaken b s).data = s.data := by
    intro b s
    unfold bitTaken
    split
    · rfl
    · split
      · rfl
      · exact takeBit_data _ _ _
  unfold takeLevels
  dsimp only
  split_ifs
  · rfl
  · exact stopSign_data _
  · exact startSign_data _
  · exact hbit _ _
  · rfl

theorem busEvent_data {levels : List Levels} {s t : State} (h : busEvent levels s = .next t) : t.data = s.data := by
  unfold busEvent at h
  split at h <;> cases h
  · exact (withMatrix_data s _).trans (foldl_data (fun s l => takeLevels_data s l) levels _)
  · exact foldl_data (fun s l => modWire_data s (setLevels l)) levels s

/-! ### SOFT RESET (R182) -/

theorem restartController_data : (restartController s).data = s.data := by
  have hstates : ∀ s, (restartStates s).data = s.data := by
    intro s
    unfold restartStates
    split
    · exact (startOverrun_reaches _).data.trans (leaveFiring_reaches s).data
    · exact ite_data s (fixHold_reaches s).data
    all_goals exact (releaseAnyHold_reaches _).data.trans (setPump_reaches _ _).data
  have hcleared : ∀ s, (clearCall s).data = s.data := by
    intro s
    unfold clearCall
    dsimp only
    split
    · exact (endCall_reaches _).data
    · exact (setDiverter_reaches _).data
  have hretaken : ∀ s, (retakeCall s).data = s.data := fun s => ite_data s (startCall_reaches s).data
  exact (hretaken _).trans ((hcleared _).trans (hstates _))

theorem restartControl_data (driverFirst : Bool) : (restartControl driverFirst s).data = s.data := by
  have hreported : ∀ s, (settleReport s).data = s.data := by
    intro s
    unfold settleReport
    dsimp only
    split
    · exact (endOverrun_reaches _).data
    · rfl
  unfold restartControl
  rw [(settle_reaches _).data, hreported]
  cases driverFirst
  · exact restartController_data s
  · exact restartController_data _

theorem softResetBlock_data (p : Port) (order : Order) : (softResetBlock p order s).data = s.data := by
  have haround : ∀ early s, (takeAroundReset early s).data = s.data := by
    intro early s
    unfold takeAroundReset
    rw [setRaised_data, takeEvents_data]
    exact takeEvents_data s _
  exact (haround _ _).trans (restartControl_data _ _)

/-! ### PARAM SET in the owning block (R180) -/

theorem act_data (q : Param) : (q.act s).data = s.data := by
  have hrewritten : ∀ v f s, (rewriteValve v f s).data = s.data := fun _ _ _ => handReport_data _
  have hmode : (modeWritten s).data = s.data := by
    unfold modeWritten
    rw [(deriveCall_reaches _).data]
    exact ite_data s rfl
  cases q with
  | valveZone | minDuty | maxDuty | valveOpen | valveClose | confirm => exact hrewritten _ _ s
  | highLimit => exact (testHighLimit_reaches _).data.trans (formHeating_reaches s).data
  | fmin | fmax => exact (formHeating_reaches s).data
  | dhwTarget => exact (formFlow_reaches s).data
  | dhwMode => exact hmode
  | dhwPriority | dhwMaxPriority => exact ite_data s (endPriority_reaches s).data
  | dhwOpenTime => exact ite_data s (settle_reaches _).data
  | _ => rfl

end

end Sys2Proof.Machine

namespace Sys2Proof.Machine

/-! ## Settings in range (R79, R100, R117, R180) -/

section
variable {c : Settings} {v : Int}

theorem clampNat_mem {lo hi : Nat} (h : lo ≤ hi) (v : Int) : lo ≤ clampNat lo hi v ∧ clampNat lo hi v ≤ hi := by
  have := clamp_mem lo hi v (by omega)
  unfold clampNat
  omega

/-- A multiple of 10 clamped between multiples of 10 is one. -/
theorem clamp_roundTen_mod (lo hi v : Int) (hlo : lo % 10 = 0) (hhi : hi % 10 = 0) :
    clamp lo hi (roundTen v) % 10 = 0 := by
  unfold clamp
  split_ifs
  · exact hlo
  · exact hhi
  · exact Int.mul_emod_left _ _

theorem integralTimeOf_mem (v : Int) : integralTimeOf v = 0 ∨ (5 ≤ integralTimeOf v ∧ integralTimeOf v ≤ 240) := by
  unfold integralTimeOf
  split
  · exact .inl rfl
  · exact .inr (clamp_mem 5 240 v (by decide))

theorem filterOf_mem (v : Int) : filterOf v = 0 ∨ filterOf v = 2 ∨ filterOf v = 8 ∨ filterOf v = 32 := by
  unfold filterOf
  split_ifs <;> simp

theorem SettingsInRange.modZone (h : SettingsInRange c) (z : Fin 16) {f : ZoneSettings → ZoneSettings}
    (hf : ∀ x, ZoneInRange x → ZoneInRange (f x)) : SettingsInRange (c.modZone z f) where
  wireAddress := h.wireAddress
  zones y := by
    rw [Settings.modZone, Tab.get_modify]
    split
    · exact hf _ (h.zones y)
    · exact h.zones y
  capture := h.capture
  valves := h.valves
  firing := h.firing
  hotWater := h.hotWater

theorem SettingsInRange.modCapture (h : SettingsInRange c) (ch : Fin 18) {f : ChannelSettings → ChannelSettings}
    (hf : ∀ x, ChannelInRange x → ChannelInRange (f x)) : SettingsInRange (c.modCapture ch f) where
  wireAddress := h.wireAddress
  zones := h.zones
  capture y := by
    rw [Settings.modCapture, Tab.get_modify]
    split
    · exact hf _ (h.capture y)
    · exact h.capture y
  valves := h.valves
  firing := h.firing
  hotWater := h.hotWater

theorem SettingsInRange.modValve (h : SettingsInRange c) (ch : Fin 16) {f : ValveSettings → ValveSettings}
    (hf : ∀ x, ValveInRange x → ValveInRange (f x)) : SettingsInRange (c.modValve ch f) where
  wireAddress := h.wireAddress
  zones := h.zones
  capture := h.capture
  valves y := by
    rw [Settings.modValve, Tab.get_modify]
    split
    · exact hf _ (h.valves y)
    · exact h.valves y
  firing := h.firing
  hotWater := h.hotWater

/-- Firing settings under the same high limit leave the hot-water target where it is. -/
theorem SettingsInRange.modFiring (h : SettingsInRange c) {f : FiringSettings → FiringSettings}
    (hf : ∀ x, FiringInRange x → FiringInRange (f x) ∧ (f x).highLimit = x.highLimit) :
    SettingsInRange (c.modFiring f) where
  wireAddress := h.wireAddress
  zones := h.zones
  capture := h.capture
  valves := h.valves
  firing := (hf _ h.firing).1
  hotWater := by
    show HotWaterInRange c.hotWater (f c.firing).highLimit
    rw [(hf _ h.firing).2]
    exact h.hotWater

theorem SettingsInRange.modHotWater (h : SettingsInRange c) {f : HotWaterSettings → HotWaterSettings}
    (hf : ∀ x, HotWaterInRange x c.firing.highLimit → HotWaterInRange (f x) c.firing.highLimit) :
    SettingsInRange (c.modHotWater f) where
  wireAddress := h.wireAddress
  zones := h.zones
  capture := h.capture
  valves := h.valves
  firing := h.firing
  hotWater := hf _ h.hotWater

/-- A written minimum duty moves the maximum with it (R100). -/
theorem ValveInRange.writeMin {x : ValveSettings} (h : ValveInRange x) {d : Nat} (hd : d ≤ 63) :
    ValveInRange (x.writeMin d) :=
  ⟨le_max_right _ _, max_le h.duty hd, h.openTime, h.closeTime⟩

/-- A written maximum duty moves the minimum with it (R100). -/
theorem ValveInRange.writeMax {x : ValveSettings} (h : ValveInRange x) {d : Nat} (hd : d ≤ 63) :
    ValveInRange (x.writeMax d) :=
  ⟨min_le_right _ _, hd, h.openTime, h.closeTime⟩

/-- A stored Fmax moves Fmin with it (R117). -/
theorem FiringInRange.withFmax {x : FiringSettings} (h : FiringInRange x) {m : Int} (hlo : 2000 ≤ m)
    (hhi : m ≤ x.highLimit - 500) : FiringInRange (x.withFmax m) where
  minOn := h.minOn
  minOff := h.minOff
  overrun := h.overrun
  limit := h.limit
  fmin := le_min h.fmin hlo
  step := min_le_right _ _
  fmax := hhi

/-- A written high limit moves Fmax, Fmin and the hot-water target with it (R117). -/
theorem SettingsInRange.writeHighLimit (h : SettingsInRange c) {limit : Int} (hlo : 6000 ≤ limit)
    (hhi : limit ≤ 9500) : SettingsInRange (c.writeHighLimit limit) := by
  obtain ⟨hminOn, hminOff, hoverrun, -, hfmin, hstep, -⟩ := h.firing
  obtain ⟨⟨htargetLo, htargetHi⟩, -, hpulse, hpriority, hopen⟩ := h.hotWater
  refine ⟨h.wireAddress, h.zones, h.capture, h.valves, ?_, ?_⟩
  · refine ⟨hminOn, hminOff, hoverrun, ⟨hlo, hhi⟩, ?_, min_le_right _ _, min_le_right _ _⟩
    show 2000 ≤ min c.firing.fmin (min c.firing.fmax (limit - 500))
    omega
  · refine ⟨?_, min_le_right _ _, hpulse, hpriority, hopen⟩
    show 5000 ≤ min c.hotWater.target (limit - 500) ∧ min c.hotWater.target (limit - 500) ≤ 8000
    omega

/-- A written setting is clamped into its range, and the settings that it moves stay in theirs (R180). -/
theorem SettingsInRange.write (h : SettingsInRange c) (v : Int) (q : Param) : SettingsInRange (q.write c v) := by
  cases q with
  | wireAddress =>
    exact ⟨clampNat_mem (by decide) v, h.zones, h.capture, h.valves, h.firing, h.hotWater⟩
  | base z =>
    exact h.modZone z fun x hx => ⟨⟨(clamp_mem 500 3000 _ (by decide)).1, (clamp_mem 500 3000 _ (by decide)).2,
      clamp_roundTen_mod 500 3000 v (by decide) (by decide)⟩, hx.frost, hx.band, hx.integralTime, hx.fallback,
      hx.staleness⟩
  | frost z =>
    exact h.modZone z fun x hx => ⟨hx.base, ⟨(clamp_mem 300 1000 _ (by decide)).1,
      (clamp_mem 300 1000 _ (by decide)).2, clamp_roundTen_mod 300 1000 v (by decide) (by decide)⟩, hx.band,
      hx.integralTime, hx.fallback, hx.staleness⟩
  | band z =>
    exact h.modZone z fun x hx =>
      ⟨hx.base, hx.frost, clamp_mem 50 1000 v (by decide), hx.integralTime, hx.fallback, hx.staleness⟩
  | integralTime z =>
    exact h.modZone z fun x hx => ⟨hx.base, hx.frost, hx.band, integralTimeOf_mem v, hx.fallback, hx.staleness⟩
  | fallback z =>
    exact h.modZone z fun x hx =>
      ⟨hx.base, hx.frost, hx.band, hx.integralTime, clamp_mem 0 4096 v (by decide), hx.staleness⟩
  | staleness z =>
    exact h.modZone z fun x hx =>
      ⟨hx.base, hx.frost, hx.band, hx.integralTime, hx.fallback, clampNat_mem (by decide) v⟩
  | enabled z | sensor z | sourceMode z =>
    exact h.modZone z fun x hx => ⟨hx.base, hx.frost, hx.band, hx.integralTime, hx.fallback, hx.staleness⟩
  | filter ch => exact h.modCapture ch fun x hx => ⟨filterOf_mem v, hx.offset⟩
  | offset ch => exact h.modCapture ch fun x hx => ⟨hx.filter, clamp_mem (-500) 500 v (by decide)⟩
  | edge ch => exact h.modCapture ch fun x hx => ⟨hx.filter, hx.offset⟩
  | minDuty ch => exact h.modValve ch fun x hx => hx.writeMin (clampNat_mem (by decide) v).2
  | maxDuty ch => exact h.modValve ch fun x hx => hx.writeMax (clampNat_mem (by decide) v).2
  | valveOpen ch =>
    exact h.modValve ch fun x hx => ⟨hx.step, hx.duty, (clampNat_mem (Nat.zero_le _) v).2, hx.closeTime⟩
  | valveClose ch =>
    exact h.modValve ch fun x hx => ⟨hx.step, hx.duty, hx.openTime, (clampNat_mem (Nat.zero_le _) v).2⟩
  | valveZone ch | confirm ch => exact h.modValve ch fun x hx => ⟨hx.step, hx.duty, hx.openTime, hx.closeTime⟩
  | minOn =>
    exact h.modFiring (f := fun x => { x with minOn := clampNat 0 900 v }) fun x hx =>
      ⟨⟨(clampNat_mem (Nat.zero_le _) v).2, hx.minOff, hx.overrun, hx.limit, hx.fmin, hx.step, hx.fmax⟩, rfl⟩
  | minOff =>
    exact h.modFiring (f := fun x => { x with minOff := clampNat 0 1800 v }) fun x hx =>
      ⟨⟨hx.minOn, (clampNat_mem (Nat.zero_le _) v).2, hx.overrun, hx.limit, hx.fmin, hx.step, hx.fmax⟩, rfl⟩
  | overrun =>
    exact h.modFiring (f := fun x => { x with overrun := clampNat 0 900 v }) fun x hx =>
      ⟨⟨hx.minOn, hx.minOff, (clampNat_mem (Nat.zero_le _) v).2, hx.limit, hx.fmin, hx.step, hx.fmax⟩, rfl⟩
  | highLimit =>
    obtain ⟨hlo, hhi⟩ := clamp_mem 6000 9500 v (by decide)
    exact h.writeHighLimit hlo hhi
  | fmin =>
    refine h.modFiring (f := fun x => { x with fmin := clamp 2000 x.fmax v }) fun x hx => ?_
    obtain ⟨hlo, hhi⟩ := clamp_mem 2000 x.fmax v (le_trans hx.fmin hx.step)
    exact ⟨⟨hx.minOn, hx.minOff, hx.overrun, hx.limit, hlo, hhi, hx.fmax⟩, rfl⟩
  | fmax =>
    refine h.modFiring (f := fun x => x.withFmax (clamp 2000 (x.highLimit - 500) v)) fun x hx => ?_
    have hlimit := hx.limit
    obtain ⟨hlo, hhi⟩ := clamp_mem 2000 (x.highLimit - 500) v (by omega)
    exact ⟨hx.withFmax hlo hhi, rfl⟩
  | bypass =>
    exact h.modFiring (f := fun x => { x with bypass := truth v }) fun x hx =>
      ⟨⟨hx.minOn, hx.minOff, hx.overrun, hx.limit, hx.fmin, hx.step, hx.fmax⟩, rfl⟩
  | fallbackChannel =>
    exact h.modFiring (f := fun x => { x with fallbackChannel := clampFin 15 v }) fun x hx =>
      ⟨⟨hx.minOn, hx.minOff, hx.overrun, hx.limit, hx.fmin, hx.step, hx.fmax⟩, rfl⟩
  | flowChannel =>
    exact h.modFiring (f := fun x => { x with flowChannel := clampFin 17 v }) fun x hx =>
      ⟨⟨hx.minOn, hx.minOff, hx.overrun, hx.limit, hx.fmin, hx.step, hx.fmax⟩, rfl⟩
  | dhwTarget =>
    refine h.modHotWater (f := fun x => { x with target := dhwTargetOf c.firing.highLimit v }) fun x hx =>
      ⟨?_, min_le_right _ _, hx.pulse, hx.maxPriority, hx.openTime⟩
    have hlimit := h.firing.limit
    obtain ⟨hlo, hhi⟩ := clamp_mem 5000 8000 v (by decide)
    show 5000 ≤ min (clamp 5000 8000 v) (c.firing.highLimit - 500) ∧
      min (clamp 5000 8000 v) (c.firing.highLimit - 500) ≤ 8000
    omega
  | dhwPulse =>
    exact h.modHotWater (f := fun x => { x with pulse := clampNat 1 120 v }) fun x hx =>
      ⟨hx.target, hx.limit, clampNat_mem (by decide) v, hx.maxPriority, hx.openTime⟩
  | dhwMaxPriority =>
    exact h.modHotWater (f := fun x => { x with maxPriority := clampNat 0 120 v }) fun x hx =>
      ⟨hx.target, hx.limit, hx.pulse, (clampNat_mem (Nat.zero_le _) v).2, hx.openTime⟩
  | dhwOpenTime =>
    exact h.modHotWater (f := fun x => { x with openTime := clampNat 0 120 v }) fun x hx =>
      ⟨hx.target, hx.limit, hx.pulse, hx.maxPriority, (clampNat_mem (Nat.zero_le _) v).2⟩
  | dhwMode =>
    exact h.modHotWater (f := fun x => { x with mode := DhwMode.ofCode v }) fun x hx =>
      ⟨hx.target, hx.limit, hx.pulse, hx.maxPriority, hx.openTime⟩
  | dhwPriority =>
    exact h.modHotWater (f := fun x => { x with absolute := decide (v = 1) }) fun x hx =>
      ⟨hx.target, hx.limit, hx.pulse, hx.maxPriority, hx.openTime⟩
  | startupBank | eventEnabled | eventKind | eventParameter | binding | lineMode =>
    exact ⟨h.wireAddress, h.zones, h.capture, h.valves, h.firing, h.hotWater⟩

end

/-- The factory defaults lie in their ranges (R180). -/
theorem factorySettings_inRange : SettingsInRange factorySettings where
  wireAddress := by decide
  zones z := by
    show ZoneInRange ((Tab.ofFn factoryZone).get z)
    rw [Tab.get_ofFn]
    constructor <;> simp [factoryZone]
  capture ch := by
    show ChannelInRange ((Tab.all factoryChannel).get ch)
    rw [Tab.get_all]
    constructor <;> simp [factoryChannel]
  valves v := by
    show ValveInRange ((Tab.ofFn factoryValve).get v)
    rw [Tab.get_ofFn]
    constructor <;> simp [factoryValve]
  firing := by constructor <;> decide
  hotWater := by constructor <;> decide

/-! ## Banks in order (R14 to R16) -/

/-- A point stands before another by its start, then by its lowest day (R16). -/
theorem before_iff (a b : SwitchPoint) :
    a.before b = true ↔ a.start < b.start ∨ (a.start = b.start ∧ lowestDay a.days < lowestDay b.days) := by
  simp [SwitchPoint.before]

theorem before_trans {a b c : SwitchPoint} (h : a.before b = true) (k : b.before c = true) : a.before c = true := by
  rw [before_iff] at *
  omega

/-- The lowest day of a day set is one of its days. -/
theorem getLsbD_lowestDay : ∀ {d : DaySet}, d ≠ 0 → d.getLsbD (lowestDay d) = true := by decide

/-- Of two points that share no day where they start together, one stands before the other (R16). -/
theorem before_of_not_before {p q : SwitchPoint} (hp : p.days ≠ 0) (hq : q.days ≠ 0)
    (hshare : q.start = p.start → overlap q.days p.days = false) (h : q.before p = false) : p.before q = true := by
  rw [Bool.eq_false_iff, ne_eq, before_iff] at h
  rw [before_iff]
  by_cases hstart : q.start = p.start
  · have hdays : lowestDay q.days ≠ lowestDay p.days := by
      intro heq
      have hnone : q.days &&& p.days = 0 := by simpa [overlap] using hshare hstart
      have hboth : (q.days &&& p.days).getLsbD (lowestDay p.days) = true := by
        rw [BitVec.getLsbD_and, getLsbD_lowestDay hp, ← heq, getLsbD_lowestDay hq]
        rfl
      rw [hnone] at hboth
      simp at hboth
    omega
  · omega

theorem overlap_comm (a b : DaySet) : overlap a b = overlap b a := by
  rw [overlap, overlap, BitVec.and_comm]

theorem not_duplicates_iff (l : List SwitchPoint) (p : SwitchPoint) :
    duplicates l p = false ↔ ∀ q ∈ l, q.start = p.start → overlap q.days p.days = false := by
  simp [duplicates]

section
variable {l : Fin 17} {points : List SwitchPoint}

theorem ListInOrder.nil (l : Fin 17) : ListInOrder l [] := ⟨.nil, nofun⟩

theorem ListInOrder.sublist (h : ListInOrder l points) {fewer : List SwitchPoint} (hsub : fewer.Sublist points) :
    ListInOrder l fewer :=
  ⟨h.1.sublist hsub, fun p hp => h.2 p (hsub.subset hp)⟩

/-- A point put in its place keeps the list in order: every point before the place stands before it, and it stands
before every point behind (R16). -/
theorem ListInOrder.insertPoint (h : ListInOrder l points) {p : SwitchPoint} (hdays : p.days ≠ 0)
    (hstart : p.start < 1440) (htarget : targetAllowed l p.target = true) (hnew : duplicates points p = false) :
    ListInOrder l (insertPoint p points) := by
  obtain ⟨hsorted, hpoints⟩ := h
  rw [not_duplicates_iff] at hnew
  have hsplit := List.takeWhile_append_dropWhile (p := fun q : SwitchPoint => q.before p) (l := points)
  have hfront : ∀ q ∈ points.takeWhile fun q => q.before p, q.before p = true := fun q hq =>
    List.mem_takeWhile_imp (p := fun q : SwitchPoint => q.before p) hq
  have hhead : ∀ q ∈ (points.dropWhile fun q => q.before p).head?, q.before p = false := by
    intro q hq
    have := List.head?_dropWhile_not (fun q : SwitchPoint => q.before p) points
    rw [Option.mem_def.1 hq] at this
    simpa using this
  unfold Machine.insertPoint
  generalize points.takeWhile (fun q => q.before p) = front at *
  generalize points.dropWhile (fun q => q.before p) = back at *
  subst hsplit
  obtain ⟨hfrontSorted, hbackSorted, hacross⟩ := List.pairwise_append.1 hsorted
  have hback : ∀ q ∈ back, p.before q = true := by
    cases back with
    | nil => nofun
    | cons q back =>
      have hfirst : p.before q = true := before_of_not_before hdays (hpoints q (by simp)).1 (hnew q (by simp))
        (hhead q rfl)
      exact List.forall_mem_cons.2 ⟨hfirst, fun r hr =>
        before_trans hfirst ((List.pairwise_cons.1 hbackSorted).1 r hr).1⟩
  refine ⟨List.pairwise_append.2 ⟨hfrontSorted, List.pairwise_cons.2 ⟨fun q hq => ⟨hback q hq, fun hs => ?_⟩,
    hbackSorted⟩, fun a ha b hb => ?_⟩, fun q hq => ?_⟩
  · rw [overlap_comm]
    exact hnew q (List.mem_append_right _ hq) hs.symm
  · rcases List.mem_cons.1 hb with rfl | hb
    · exact ⟨hfront a ha, hnew a (List.mem_append_left _ ha)⟩
    · exact hacross a ha b hb
  · rcases List.mem_append.1 hq with hq | hq
    · exact hpoints q (List.mem_append_left _ hq)
    · rcases List.mem_cons.1 hq with rfl | hq
      · exact ⟨hdays, hstart, htarget⟩
      · exact hpoints q (List.mem_append_right _ hq)

theorem length_insertPoint (p : SwitchPoint) (points : List SwitchPoint) :
    (insertPoint p points).length = points.length + 1 := by
  have := congrArg List.length
    (List.takeWhile_append_dropWhile (p := fun q : SwitchPoint => q.before p) (l := points))
  simp only [List.length_append] at this
  simp only [insertPoint, List.length_append, List.length_cons]
  omega

end

/-- A sum with one term replaced. -/
theorem sum_set_add {l : List Nat} {i : Nat} (h : i < l.length) (n : Nat) : (l.set i n).sum + l[i] = l.sum + n := by
  induction l generalizing i with
  | nil => simp at h
  | cons a l ih =>
    cases i with
    | zero => simp; omega
    | succ i =>
      have := ih (i := i) (by simpa using h)
      simp only [List.set_cons_succ, List.sum_cons, List.getElem_cons_succ]
      omega

/-- The points of a bank with one list replaced (R14). -/
theorem count_set (lists : Lists) (l : Fin 17) (points : List SwitchPoint) :
    ((lists.set l points).list.map List.length).sum + (lists.get l).length =
      (lists.list.map List.length).sum + points.length := by
  have := sum_set_add (l := lists.list.map List.length) (i := l.val) (by simp [lists.size]) points.length
  rw [← List.map_set, List.getElem_map] at this
  exact this

/-- A bank in order stays so where one list is replaced by one in order and the room is kept (R14). -/
theorem ListsInOrder.set {lists : Lists} (h : ListsInOrder lists) {l : Fin 17} {points : List SwitchPoint}
    (hl : ListInOrder l points)
    (hroom : (lists.list.map List.length).sum + points.length ≤ Config.poolSize + (lists.get l).length) :
    ListsInOrder (lists.set l points) := by
  have := count_set lists l points
  refine ⟨by omega, fun l' => ?_⟩
  rw [Tab.get_set]
  split
  · next h => exact h ▸ hl
  · exact h.2 l'

theorem emptyLists_inOrder : ListsInOrder emptyLists :=
  ⟨by decide, fun l => by
    rw [show emptyLists.get l = [] from Tab.get_all _ l]
    exact .nil l⟩

/-- A target that POINT ADD takes is one of its list (R15). -/
theorem targetOf_allowed {l : Fin 17} {v : Int} {target : Target} (h : targetOf l v = some target) :
    targetAllowed l target = true := by
  unfold targetOf at h
  split_ifs at h with hlist <;> cases h
  · rfl
  · exact decide_eq_true hlist
  · rfl
  · obtain ⟨hlo, hhi⟩ := clamp_mem 500 3000 (roundTen v) (by decide)
    exact decide_eq_true ⟨hlist, hlo, hhi, clamp_roundTen_mod 500 3000 v (by decide) (by decide)⟩

/-! ## What every step keeps of the data -/

theorem settingsKept_iff (s : State) : SettingsKept s ↔ SettingsInRange s.settings ∧
    SettingsInRange s.store.config.content ∧
    ∀ o, s.store.operation = some o → ∀ c, o.object = .config c → SettingsInRange c := by
  constructor
  · intro h
    exact ⟨h _ (.inl rfl), h _ (.inr (.inl rfl)), fun o ho c hc => h c (.inr (.inr ⟨o, ho, hc⟩))⟩
  · rintro ⟨hram, hstored, hsnapshot⟩ c (rfl | rfl | ⟨o, ho, hc⟩)
    · exact hram
    · exact hstored
    · exact hsnapshot o ho c hc

theorem banksKept_iff (s : State) : BanksKept s ↔ (∀ b, ListsInOrder (s.program.banks.get b).lists) ∧
    (∀ b, ListsInOrder (s.store.banks.get b).content) ∧
    ∀ o, s.store.operation = some o → ∀ b lists, o.object = .bank b lists → ListsInOrder lists := by
  constructor
  · intro h
    exact ⟨fun b => h _ (.inl ⟨b, rfl⟩), fun b => h _ (.inr (.inl ⟨b, rfl⟩)),
      fun o ho b lists hb => h lists (.inr (.inr ⟨o, b, ho, hb⟩))⟩
  · rintro ⟨hram, hstored, hsnapshot⟩ lists (⟨b, rfl⟩ | ⟨b, rfl⟩ | ⟨o, b, ho, hb⟩)
    · exact hram b
    · exact hstored b
    · exact hsnapshot o ho b lists hb

/-- From s to t the data stay in range and in order. -/
def DataKept (s t : State) : Prop := (SettingsKept s → SettingsKept t) ∧ (BanksKept s → BanksKept t)

theorem DataKept.refl (s : State) : DataKept s s := ⟨id, id⟩

theorem DataKept.trans {s t u : State} (h : DataKept s t) (k : DataKept t u) : DataKept s u :=
  ⟨k.1 ∘ h.1, k.2 ∘ h.2⟩

theorem DataKept.of_data {s t : State} (h : t.data = s.data) : DataKept s t := by
  obtain ⟨hsettings, hstore, hbanks⟩ := data_eq_iff.1 h
  constructor
  · rw [settingsKept_iff, settingsKept_iff, hsettings, hstore]
    exact id
  · rw [banksKept_iff, banksKept_iff, hstore, hbanks]
    exact id

/-- States with the same data are one to `DataKept`. -/
theorem DataKept.congr {s s' t t' : State} (h : DataKept s t) (hs : s'.data = s.data) (ht : t'.data = t.data) :
    DataKept s' t' :=
  ((DataKept.of_data hs.symm).trans h).trans (.of_data ht)

theorem command_dataKept {c : Instr} {p : Port} {block : State → State × Response} {s t : State}
    (hb : ∀ s, DataKept s (block s).1) (h : command c p block s = .next t) : DataKept s t := by
  rcases command_data h with h | h
  · exact (hb (nothingRaised s)).congr rfl h
  · exact .of_data h

theorem event_dataKept {block : State → State} {s t : State} (hb : ∀ s, DataKept s (block s))
    (h : event block s = .next t) : DataKept s t := by
  rcases event_data h with h | h
  · exact (hb (nothingRaised s)).congr rfl h
  · exact .of_data h

/-! ### The rows that write a bank -/

/-- A bank in order put into the program store keeps the banks in order. -/
theorem putBank_dataKept (b : Fin 4) {bank : Bank} {s : State} (h : BanksKept s → ListsInOrder bank.lists) :
    DataKept s (putBank b bank s) := by
  refine ⟨fun hs => (settingsKept_iff _).2 ((settingsKept_iff s).1 hs), fun hs => ?_⟩
  have hbank := h hs
  rw [banksKept_iff] at hs ⊢
  obtain ⟨hram, hstored, hsnapshot⟩ := hs
  refine ⟨fun b' => ?_, hstored, hsnapshot⟩
  rw [(putBank_fields s b bank).1, Tab.get_set]
  split
  · exact hbank
  · exact hram b'

theorem afterEdit_data (b : Fin 4) (q : Fin 17 → Bool) (s : State) : (afterEdit b q s).data = s.data := by
  unfold afterEdit
  split
  · simp [silently]
  · rfl

theorem acceptChange_dataKept (p : Port) (b : Fin 4) (q : Fin 17 → Bool) {lists : Lists} {s : State}
    (h : BanksKept s → ListsInOrder lists) : DataKept s (afterEdit b q (acceptChange p b lists s)) :=
  (putBank_dataKept b h).congr rfl (afterEdit_data _ _ _)

theorem BanksKept.ram {s : State} (h : BanksKept s) (b : Fin 4) : ListsInOrder (s.program.banks.get b).lists :=
  ((banksKept_iff s).1 h).1 b

theorem daySetOf_ne_zero {v : Int} {d : DaySet} (h : daySetOf v = some d) : d ≠ 0 := by
  unfold daySetOf at h
  split at h <;> cases h
  next hv =>
  rw [within_iff] at hv
  intro hzero
  have := congrArg BitVec.toNat hzero
  rw [BitVec.toNat_ofInt] at this
  simp at this
  omega

theorem startOf_lt {v : Int} {m : Nat} (h : startOf v = some m) : m < 1440 := by
  unfold startOf at h
  split at h <;> cases h
  next hv =>
  rw [within_iff] at hv
  omega

theorem pointAddBlock_dataKept (p : Port) (bank list days start target : Int) (revision : Option Int) (s : State) :
    DataKept s (pointAddBlock p bank list days start target revision s).1 := by
  unfold pointAddBlock
  split
  · next b l d m _ _ hd hm =>
    split
    · next t ht =>
      unfold addPoint
      split_ifs with hstale hduplicate hfull
      · exact .refl s
      · exact .refl s
      · exact .refl s
      · refine acceptChange_dataKept p b _ fun h => ?_
        have hlists := h.ram b
        refine hlists.set ((hlists.2 l).insertPoint (p := ⟨d, m, t⟩) (daySetOf_ne_zero hd) (startOf_lt hm)
          (targetOf_allowed ht) (Bool.eq_false_iff.2 hduplicate)) ?_
        have hlength : (bankList s b l).length = ((s.program.banks.get b).lists.get l).length := rfl
        rw [length_insertPoint, hlength]
        unfold Bank.poolCount at hfull
        omega
    · exact .refl s
  · exact .refl s

/-- A list replaced by some of its points keeps its bank in order. -/
theorem editList_dataKept_of_sublist (p : Port) (b : Fin 4) (l : Fin 17) {points : List SwitchPoint} {s : State}
    (h : points.Sublist (bankList s b l)) : DataKept s (editList p b l points s) := by
  refine acceptChange_dataKept p b _ fun hs => ?_
  have hlists := hs.ram b
  refine hlists.set ((hlists.2 l).sublist h) ?_
  have hlength : points.length ≤ ((s.program.banks.get b).lists.get l).length := h.length_le
  have := hlists.1
  omega

theorem pointDelBlock_dataKept (p : Port) (bank list days start : Int) (revision : Option Int) (s : State) :
    DataKept s (pointDelBlock p bank list days start revision s).1 := by
  unfold pointDelBlock
  split
  · unfold removePoint
    split_ifs
    · exact .refl s
    · exact editList_dataKept_of_sublist p _ _ List.eraseP_sublist
    · exact .refl s
  · exact .refl s

theorem listClearBlock_dataKept (p : Port) (bank list : Int) (revision : Option Int) (s : State) :
    DataKept s (listClearBlock p bank list revision s).1 := by
  unfold listClearBlock
  split
  · split
    · exact .refl s
    · exact editList_dataKept_of_sublist p _ _ (List.nil_sublist _)
  · exact .refl s

theorem bankCopyBlock_dataKept (p : Port) (source destination : Int) (revision : Option Int) (s : State) :
    DataKept s (bankCopyBlock p source destination revision s).1 := by
  unfold bankCopyBlock
  split
  · next a b _ _ =>
    split_ifs
    · exact .refl s
    · exact .refl s
    · exact acceptChange_dataKept p b _ fun h => h.ram a
  · exact .refl s

theorem bankLoadBlock_dataKept (p : Port) (bank : Int) (s : State) : DataKept s (bankLoadBlock p bank s).1 := by
  unfold bankLoadBlock
  split
  · exact .refl s
  · next b _ =>
    split_ifs
    · exact .refl s
    · exact (putBank_dataKept b fun h => ((banksKept_iff s).1 h).2.1 b).congr rfl (afterEdit_data _ _ _)
    · exact .refl s

/-! ### The rows that write the store -/

theorem setDirty_dataKept (b : Fin 4) (dirty : Bool) (s : State) : DataKept s (setDirty b dirty s) :=
  putBank_dataKept b fun h => h.ram b

/-- A save in flight takes a record or a bank that the part already holds. -/
theorem setOperation_dataKept {o : Operation} {s : State} (hconfig : ∀ c, o.object = .config c → c = s.settings)
    (hbank : ∀ b lists, o.object = .bank b lists → lists = (s.program.banks.get b).lists) :
    DataKept s (setOperation (some o) s) := by
  constructor
  · intro h
    rw [settingsKept_iff] at h ⊢
    obtain ⟨hram, hstored, -⟩ := h
    refine ⟨hram, hstored, ?_⟩
    rintro _ ⟨⟩ c hc
    exact hconfig c hc ▸ hram
  · intro h
    rw [banksKept_iff] at h ⊢
    obtain ⟨hram, hstored, -⟩ := h
    refine ⟨hram, hstored, ?_⟩
    rintro _ ⟨⟩ b lists hb
    exact hbank b lists hb ▸ hram b

theorem bankSaveBlock_dataKept (p : Port) (bank : Int) (s : State) : DataKept s (bankSaveBlock p bank s).1 := by
  unfold bankSaveBlock
  split
  · exact .refl s
  · split
    · exact .refl s
    · refine (setOperation_dataKept ?_ ?_).trans (setDirty_dataKept _ _ _)
      · rintro _ ⟨⟩
      · rintro _ _ ⟨⟩
        rfl

theorem configSaveBlock_dataKept (p : Port) (s : State) : DataKept s (configSaveBlock p s).1 := by
  unfold configSaveBlock
  split
  · exact .refl s
  · refine setOperation_dataKept ?_ ?_
    · rintro _ ⟨⟩
      rfl
    · rintro _ _ ⟨⟩

theorem writeStored_config (c : Settings) (good : Bool) (s : State) :
    setOperation none (writeStored (.config c) good s) = { s with store := { s.store with
      config := if good then ⟨c, true⟩ else { s.store.config with good := false }, operation := none } } := rfl

theorem writeStored_bank (b : Fin 4) (lists : Lists) (good : Bool) (s : State) :
    setOperation none (writeStored (.bank b lists) good s) = { s with store := { s.store with
      banks := s.store.banks.set b (if good then ⟨lists, true⟩ else { s.store.banks.get b with good := false })
      operation := none } } := rfl

/-- A completion leaves the snapshot or the earlier content in the store, and the idle record (R178). -/
theorem writeStored_dataKept {o : Operation} {s : State} (ho : s.store.operation = some o) (good : Bool) :
    DataKept s (setOperation none (writeStored o.object good s)) := by
  constructor
  · intro h
    rw [settingsKept_iff] at h
    obtain ⟨hram, hstored, hsnapshot⟩ := h
    cases hobject : o.object with
    | config c =>
      rw [writeStored_config, settingsKept_iff]
      refine ⟨hram, ?_, fun _ hnone => absurd hnone (by simp)⟩
      cases good
      · exact hstored
      · exact hsnapshot o ho c hobject
    | bank b lists =>
      rw [writeStored_bank, settingsKept_iff]
      exact ⟨hram, hstored, fun _ hnone => absurd hnone (by simp)⟩
  · intro h
    rw [banksKept_iff] at h
    obtain ⟨hram, hstored, hsnapshot⟩ := h
    cases hobject : o.object with
    | config c =>
      rw [writeStored_config, banksKept_iff]
      exact ⟨hram, hstored, fun _ hnone => absurd hnone (by simp)⟩
    | bank b lists =>
      rw [writeStored_bank, banksKept_iff]
      refine ⟨hram, fun b' => ?_, fun _ hnone => absurd hnone (by simp)⟩
      dsimp only
      rw [Tab.get_set]
      split
      · cases good
        · exact hstored b
        · exact hsnapshot o ho b lists hobject
      · exact hstored b'

theorem saveCompletionBlock_dataKept (good : Bool) (s : State) : DataKept s (saveCompletionBlock good s) := by
  have hfailed : ∀ object s, DataKept s (markFailed object s) := by
    intro object s
    cases object
    · exact .refl s
    · exact setDirty_dataKept _ _ s
  unfold saveCompletionBlock
  split
  · exact .refl s
  · next o ho =>
    have hwritten := writeStored_dataKept ho good
    unfold completeSave
    split
    · exact hwritten.congr rfl rfl
    · exact (hwritten.trans (hfailed _ _)).congr rfl rfl

theorem stopSave_dataKept (s : State) : DataKept s (stopSave s) := by
  unfold stopSave
  split
  · exact .refl s
  · next o ho => exact writeStored_dataKept ho false

/-! ### Power (R179, R181) -/

theorem loadedBank_inOrder {stored : Stored Lists} (h : ListsInOrder stored.content) :
    ListsInOrder (loadedBank stored).lists := by
  unfold loadedBank
  dsimp only
  split
  · exact h
  · exact emptyLists_inOrder

/-- A part whose record in RAM and whose banks come from the store, or from the factory defaults, holds nothing else. -/
theorem dataKept_of_store {s t : State} (hstore : t.store = s.store)
    (hsettings : t.settings = s.store.config.content ∨ t.settings = factorySettings)
    (hbanks : ∀ b, (t.program.banks.get b).lists = (s.store.banks.get b).content ∨
      (t.program.banks.get b).lists = emptyLists) : DataKept s t := by
  constructor
  · intro h
    rw [settingsKept_iff] at h ⊢
    obtain ⟨-, hstored, hsnapshot⟩ := h
    refine ⟨?_, hstore ▸ hstored, hstore ▸ hsnapshot⟩
    rcases hsettings with h | h <;> rw [h]
    · exact hstored
    · exact factorySettings_inRange
  · intro h
    rw [banksKept_iff] at h ⊢
    obtain ⟨-, hstored, hsnapshot⟩ := h
    refine ⟨fun b => ?_, hstore ▸ hstored, hstore ▸ hsnapshot⟩
    rcases hbanks b with h | h <;> rw [h]
    · exact hstored b
    · exact emptyLists_inOrder

theorem losePower_dataKept (s : State) : DataKept s (losePower s) := by
  refine (stopSave_dataKept s).trans (dataKept_of_store rfl (.inr rfl) fun b => .inr ?_)
  show ((Tab.ofFn fun b => loadedBank (unwrittenStore.banks.get b)).get b).lists = emptyLists
  rw [Tab.get_ofFn, show unwrittenStore.banks.get b = ⟨emptyLists, true⟩ from Tab.get_all _ _]
  rfl

/-- A start reads the stored objects, and puts the defaults and empty banks where they cannot be read (R181). -/
theorem Started.dataKept {s t : State} (h : Started s t) : DataKept s t := by
  have hstopped : DataKept s (stopSave (nothingRaised s)) := (stopSave_dataKept (nothingRaised s)).congr rfl rfl
  refine hstopped.trans (dataKept_of_store h.store ?_ fun b => ?_)
  · rw [h.settings_eq, h.store]
    split
    · exact .inl rfl
    · exact .inr rfl
  · rw [h.program, h.store]
    show ((Tab.ofFn fun b => loadedBank _).get b).lists = _ ∨ ((Tab.ofFn fun b => loadedBank _).get b).lists = _
    rw [Tab.get_ofFn, loadedBank]
    dsimp only
    split
    · exact .inl rfl
    · exact .inr rfl

/-! ### PARAM SET (R180) -/

theorem paramSetBlock_dataKept (group idx field value : Int) (s : State) :
    DataKept s (paramSetBlock group idx field value s).1 := by
  unfold paramSetBlock
  split
  · exact .refl s
  · next q _ =>
    have hwritten : DataKept s (setSettings (q.write s.settings value) s) := by
      refine ⟨fun h => ?_, fun h => (banksKept_iff _).2 ((banksKept_iff s).1 h)⟩
      rw [settingsKept_iff] at h ⊢
      obtain ⟨hram, hstored, hsnapshot⟩ := h
      exact ⟨hram.write value q, hstored, hsnapshot⟩
    exact hwritten.congr rfl (act_data _ q)

/-! ### Every row and every step -/

/-- Every row keeps the data in range and in order: those that write a record or a bank by their own lemma, the others
since they leave the data alone. -/
theorem exec_dataKept {i : Instr} {s t : State} (h : exec i s = .next t) : DataKept s t := by
  cases i with
  | powerUp =>
    obtain ⟨u, hu⟩ := exists_started s
    cases (hu.row .powerUp (.inl rfl)).symm.trans h
    exact hu.dataKept
  | externalReset =>
    cases hp : s.powered with
    | true =>
      obtain ⟨u, hu⟩ := exists_started s
      cases (hu.row .externalReset (.inr ⟨rfl, hp⟩)).symm.trans h
      exact hu.dataKept
    | false =>
      rcases (event_eq_next_iff startPart s t).1 h with ⟨hpowered, -⟩ | ⟨-, rfl⟩
      · rw [hp] at hpowered
        cases hpowered
      · exact .refl _
  | powerLoss => exact event_dataKept losePower_dataKept h
  | pointAdd p bank list days start target revision =>
    exact command_dataKept (pointAddBlock_dataKept p bank list days start target revision) h
  | pointDel p bank list days start revision =>
    exact command_dataKept (pointDelBlock_dataKept p bank list days start revision) h
  | listClear p bank list revision => exact command_dataKept (listClearBlock_dataKept p bank list revision) h
  | bankCopy p source destination revision =>
    exact command_dataKept (bankCopyBlock_dataKept p source destination revision) h
  | bankSave p bank => exact command_dataKept (bankSaveBlock_dataKept p bank) h
  | bankLoad p bank => exact command_dataKept (bankLoadBlock_dataKept p bank) h
  | configSave p => exact command_dataKept (configSaveBlock_dataKept p) h
  | saveCompletion good => exact event_dataKept (saveCompletionBlock_dataKept good) h
  | paramSet p group idx field value => exact command_dataKept (paramSetBlock_dataKept group idx field value) h
  | textCharacter c framingError =>
    exact .of_data (event_data_of_block h fun s => textCharacterBlock_data s c framingError)
  | textResponseSend => exact .of_data (event_data_of_block h textSendBlock_data)
  | textResponseSent => exact .of_data (event_data_of_block h textSentBlock_data)
  | writeTransfer | readTransfer | repeatedStart | busError => exact .of_data (busEvent_data h)
  | ident | status | zoneGet | clockGet | pointGet | bankGet | ovrList | captureGet | regGet | valveGet | lineGet
  | linkGet | paramGet =>
    exact .of_data (command_data_of_block h fun _ => rfl)
  | clockSet p day minute second =>
    exact .of_data (command_data_of_block h fun s => clockSetBlock_data s p day minute second)
  | secondBoundary => exact .of_data (event_data_of_block h secondBoundaryBlock_data)
  | bankSelect p bank => exact .of_data (command_data_of_block h fun s => bankSelectBlock_data s p bank)
  | bankTimed p bank days endMinute =>
    exact .of_data (command_data_of_block h fun s => bankTimedBlock_data s p bank days endMinute)
  | bankCancel p => exact .of_data (command_data_of_block h fun s => bankCancelBlock_data s p)
  | ovrSet p zone setpoint kind endDay endMinute =>
    exact .of_data (command_data_of_block h fun s => ovrSetBlock_data s p zone setpoint kind endDay endMinute)
  | ovrHold p zone setpoint => exact .of_data (command_data_of_block h fun s => ovrHoldBlock_data s p zone setpoint)
  | ovrRelease p zone => exact .of_data (command_data_of_block h fun s => ovrReleaseBlock_data s p zone)
  | tempReport p zone value => exact .of_data (command_data_of_block h fun s => tempReportBlock_data s zone value)
  | rawInputChange ch level elapsed =>
    replace h : (if s.powered then event (rawInputBlock ch level elapsed) s else .next (setRaw ch level s)) = .next t :=
      h
    split at h
    · exact .of_data (event_data_of_block h fun _ => rfl)
    · cases h
      exact .of_data rfl
  | acceptedEdge | timeout | captureSecond | cycleStart | driveLineOff =>
    exact .of_data (event_data_of_block h fun _ => rfl)
  | windowExpiry => exact .of_data (event_data_of_block h fun s => withOrder_data s fun o s => expireWindow_data s o)
  | pass => exact .of_data (event_data_of_block h fun s => withOrder_data s fun o s => passBlock_data s o)
  | valveClear p channel => exact .of_data (command_data_of_block h fun s => valveClearBlock_data s channel)
  | valveUpdate =>
    exact .of_data (event_data_of_block h fun s => withOrder_data s fun o _ => faultsThenReport_data _ o _)
  | confirmTimeout ch => exact .of_data (event_data_of_block h fun s => confirmTimeoutBlock_data s ch)
  | endSwitchEdge ch closed =>
    refine .of_data (lineEvent_data_of_block h (fun _ => rfl) fun u => ?_)
    split
    · rfl
    · exact endSwitchBlock_data u ch closed
  | inhibit p value => exact .of_data (command_data_of_block h fun s => inhibitBlock_data s p value)
  | lockoutClear p => exact .of_data (command_data_of_block h fun s => lockoutClearBlock_data s p)
  | dhwBoost p minutes => exact .of_data (command_data_of_block h fun s => dhwBoostBlock_data s minutes)
  | flameEdge asserted =>
    exact .of_data (lineEvent_data_of_block h (fun _ => rfl) fun u =>
      onEdge_data u (fun s => flameBlock_data s asserted) _ _)
  | boilerFaultEdge asserted =>
    exact .of_data (lineEvent_data_of_block h (fun _ => rfl) fun u =>
      onEdge_data u (block := faultBlock asserted) (fun _ => rfl) _ _)
  | interlockEdge closed =>
    exact .of_data (lineEvent_data_of_block h (fun _ => rfl) fun u =>
      onEdge_data u (fun s => (settle_reaches s).data) _ _)
  | hotWaterRequestEdge asserted =>
    exact .of_data (lineEvent_data_of_block h (fun _ => rfl) fun u =>
      onEdge_data u (fun s => requestBlock_data s asserted) _ _)
  | minOnExpiry => exact .of_data (event_data_of_block h minOnBlock_data)
  | minOffExpiry => exact .of_data (event_data_of_block h minOffBlock_data)
  | overrunExpiry => exact .of_data (event_data_of_block h overrunBlock_data)
  | pathWaitExpiry => exact .of_data (event_data_of_block h pathWaitBlock_data)
  | flameWaitExpiry => exact .of_data (event_data_of_block h flameWaitBlock_data)
  | faultPersistenceExpiry => exact .of_data (event_data_of_block h faultPersistenceBlock_data)
  | timedCallExpiry => exact .of_data (event_data_of_block h timedCallBlock_data)
  | priorityExpiry => exact .of_data (event_data_of_block h priorityBlock_data)
  | diverterOpen => exact .of_data (event_data_of_block h diverterOpenBlock_data)
  | lineSet p lines | lineClear p lines | lineToggle p lines =>
    exact .of_data (command_data_of_block h fun s => writeLines_data s _ lines)
  | noticeRead p => exact .of_data (command_data_of_block h fun _ => rfl)
  | noticeMask p mask => exact .of_data (command_data_of_block h fun s => noticeMaskBlock_data s p mask)
  | softReset p => exact .of_data (event_data_of_block h fun s => withOrder_data s fun o s => softResetBlock_data s p o)

section
variable {R : State → State → Prop}

theorem takeDue_eq_next {before : Host.Outcome State Fault Refusal} {due : State → Option Instr} {t : State}
    (h : takeDue before due = .next t) : ∃ u, before = .next u ∧ (t = u ∨ ∃ i, exec i u = .next t) := by
  cases before with
  | next u =>
    refine ⟨u, rfl, ?_⟩
    unfold takeDue at h
    dsimp only at h
    split at h
    · next i _ => exact .inr ⟨i, h⟩
    · cases h
      exact .inl rfl
  | fault r => cases h
  | refused r => cases h

variable (hrefl : ∀ s, R s s) (htrans : ∀ {s t u}, R s t → R t u → R s u)
  (hexec : ∀ {i s t}, exec i s = .next t → R s t)
include hrefl htrans hexec

/-- What every row keeps, the rows of a second keep one after the other. -/
theorem takeDues_rel {rows : List (State → Option Instr)} {before : Host.Outcome State Fault Refusal} {t : State}
    (h : rows.foldl takeDue before = .next t) : ∃ u, before = .next u ∧ R u t := by
  induction rows generalizing before with
  | nil => exact ⟨t, h, hrefl t⟩
  | cons due rows ih =>
    obtain ⟨v, hv, hrest⟩ := ih h
    obtain ⟨u, hu, hstep⟩ := takeDue_eq_next hv
    refine ⟨u, hu, ?_⟩
    rcases hstep with rfl | ⟨i, hi⟩
    · exact hrest
    · exact htrans (hexec hi) hrest

/-- What every row keeps, every step keeps, where neither the taking of a command from the queue nor the passing of a
second touches it. -/
theorem step_rel (hqueue : ∀ (s : State) (rest : List Instr), R s { s with pending := rest })
    (hsecond : ∀ s, R s (secondPasses s)) {s t : State} (h : step s = .next t) : R s t := by
  unfold step at h
  split at h
  · exact htrans (hqueue s _) (hexec h)
  · unfold idle at h
    split at h
    · split at h
      · exact hexec h
      · obtain ⟨u, hu, hrel⟩ := takeDues_rel hrefl htrans hexec h
        cases hu
        exact htrans (hsecond s) hrel
    · cases h
      exact hrefl _

end

/-- Settles O52: every row keeps the data, and so does every step, by `step_rel`. -/
theorem stepsKeepStoredDataInRange : Obligations.StepsKeepStoredDataInRange := fun _ _ h =>
  step_rel DataKept.refl DataKept.trans exec_dataKept (fun _ _ => .of_data rfl) (fun _ => .of_data rfl) h

end Sys2Proof.Machine

namespace Sys2Proof.Machine

/-! ## Reads of the program store and the override table (R27, R49) -/

theorem index_natCast {n k : Nat} (h : k < n) : index n (k : Int) = some ⟨k, h⟩ := index_val n ⟨k, h⟩

/-- A command that only reads answers with its view's response, and changes nothing. -/
theorem command_reads (c : Instr) (p : Port) {view : State → Response} {s : State} {r : Response}
    (hp : s.powered = true) (hview : view (nothingRaised s) = r) :
    ∃ t, command c p (reading view) s = .next t ∧ Keeps responseParts s t ∧ t.answered = some (p, r) :=
  hview ▸ reading_powered c p view s hp

section
variable (s : State)

/-- A position in a list finds its switch point, or nothing (R27). -/
theorem pointGetView_of_index (b : Fin 4) (l : Fin 17) {n : Nat} (hn : n < 256) :
    pointGetView b.val l.val n s =
      match (bankList s b l)[n]? with
      | some q =>
        .ok [num (maskField q.days), count q.start, num (targetField q.target), count (bankList s b l).length,
          revisionField s b]
      | none => refuse .notFound := by
  simp only [pointGetView, index_val, index_natCast hn] <;> rfl

theorem pointGetView_of_range {bank list position : Int}
    (h : bank < 0 ∨ 3 < bank ∨ list < 0 ∨ 16 < list ∨ position < 0 ∨ 255 < position) :
    pointGetView bank list position s = refuse .range := by
  have hnone : index 4 bank = none ∨ index 17 list = none ∨ index 256 position = none := by
    simp only [index_eq_none_iff]
    omega
  unfold pointGetView
  split
  · next hb hl hi => simp [hb, hl, hi] at hnone
  · rfl

theorem bankGetView_of_range {bank : Int} (h : bank < 0 ∨ 3 < bank) : bankGetView bank s = refuse .range := by
  have hnone : index 4 bank = none := (index_eq_none_iff 4 bank).2 (by omega)
  simp only [bankGetView, hnone]

theorem ovrListView_of_position {n : Nat} (hn : n < 8) :
    ovrListView (some n) s =
      match s.overrides.slots[n]? with
      | none => refuse .notFound
      | some o => .ok ([count o.zone.val] ++ slotFields o ++ timeFields o.created) := by
  simp only [ovrListView, index_natCast hn] <;> rfl

theorem ovrListView_of_range {v : Int} (h : v < 0 ∨ 7 < v) : ovrListView (some v) s = refuse .range := by
  have hnone : index 8 v = none := (index_eq_none_iff 8 v).2 (by omega)
  simp only [ovrListView, hnone]

end

/-- Settles O16: each read is a view, found or refused by the range of its fields and the count of what it reads. -/
theorem programAndTableReadsAnswer : Obligations.ProgramAndTableReadsAnswer := by
  intro p b l n s hp
  refine ⟨fun q hn hq => ?_, fun hn hlength => ?_, fun v w x hrange => ?_, ?_, fun v hrange => ?_, ?_,
    fun o hn ho => ?_, fun hn hlength => ?_, fun v hrange => ?_⟩
  · refine command_reads (.pointGet p b.val l.val n) p hp ?_
    have hfound : (bankList (nothingRaised s) b l)[n]? = some q := hq
    rw [pointGetView_of_index _ b l hn, hfound]
    obtain ⟨days, start, target⟩ := q
    cases target <;> rfl
  · refine command_reads (.pointGet p b.val l.val n) p hp ?_
    have hnone : (bankList (nothingRaised s) b l)[n]? = none := List.getElem?_eq_none hlength
    rw [pointGetView_of_index _ b l hn, hnone]
    rfl
  · exact command_reads (.pointGet p v w x) p hp (pointGetView_of_range _ hrange)
  · refine command_reads (.bankGet p b.val) p hp ?_
    have hview : bankGetView b.val (nothingRaised s) = .ok [revisionField s b, flag (s.program.banks.get b).dirty,
        count (s.program.banks.get b).poolCount, flag (saving s b), flag (decide (b = s.program.active))] := by
      simp only [bankGetView, index_val]
      rfl
    rw [hview, saving]
    rcases s.store.operation with _ | ⟨_ | ⟨b', lists⟩, q⟩ <;>
      simp [flag, bit, revisionField, count, Bank.poolCount]
  · exact command_reads (.bankGet p v) p hp (bankGetView_of_range _ hrange)
  · exact command_reads (.ovrList p none) p hp rfl
  · refine command_reads (.ovrList p (some n)) p hp ?_
    have hfound : (nothingRaised s).overrides.slots[n]? = some o := ho
    rw [ovrListView_of_position _ hn, hfound]
    obtain ⟨zone, setpoint, kind, origin, created⟩ := o
    cases kind <;> cases origin <;> cases created <;> rfl
  · refine command_reads (.ovrList p (some n)) p hp ?_
    have hnone : (nothingRaised s).overrides.slots[n]? = none := List.getElem?_eq_none hlength
    rw [ovrListView_of_position _ hn, hnone]
    rfl
  · exact command_reads (.ovrList p (some v)) p hp (ovrListView_of_range _ hrange)

end Sys2Proof.Machine

namespace Sys2Proof.Machine

/-! ## A command whose events the matrix takes -/

theorem eventsTaken_of_block (s u : State) : Keeps [.links, .raised] u (eventsTaken s u) := by
  have hset : Keeps [.raised] (takeRaised u) (eventsTaken s u) := by
    intro part hp
    cases part <;> first | rfl | (simp at hp)
  exact (takeInTurns_keeps [] u).trans (hset.mono (by simp))

/-- A command: its block's changes, the matrix's and the delivery's are all there is, and what neither the matrix nor the
delivery touches is as the block left it. -/
theorem command_of_block {l : List Part} (c : Instr) (p : Port) {block : State → State × Response} {s u : State}
    {r : Response} (hp : s.powered = true) (hb : block (nothingRaised s) = (u, r))
    (hk : Keeps (.raised :: l) (nothingRaised s) u) :
    ∃ t, command c p block s = .next t ∧ Keeps (responseParts ++ .links :: l) s t ∧ t.answered = some (p, r) ∧
      Keeps (.links :: .raised :: responseParts) u t := by
  have hrow := command_powered c p block s hp
  rw [hb] at hrow
  have hdelivered := deliver_keeps c p r (eventsTaken s u)
  refine ⟨_, hrow, ?_, deliver_answered _ _ _ _, ?_⟩
  · exact ((eventsTaken_keeps hk).mono fun _ => List.mem_append_right _).trans
      (hdelivered.mono fun _ => List.mem_append_left _)
  · exact ((eventsTaken_of_block s u).mono (by simp)).trans
      (hdelivered.mono fun _ hx => List.mem_cons_of_mem _ (List.mem_cons_of_mem _ hx))

/-! ## Silent re-evaluation (R22) -/

theorem Tab.ofFn_get {n : Nat} {α : Type} (t : Tab n α) : Tab.ofFn t.get = t := Tab.ext_get fun i => Tab.get_ofFn _ i

/-- The entries after a re-evaluation of the lists that satisfy q: found afresh at a VALID clock, the others as they
stand (R19, R22). -/
def foundAgain (q : Fin 17 → Bool) (s : State) (l : Fin 17) : Option Entry :=
  if s.clock.valid = true ∧ q l = true then evaluate (activeList s l) s.clock.day s.clock.minute
  else s.program.remembered.get l

theorem reevaluate_eq (q : Fin 17 → Bool) (s : State) : reevaluate q s = setRemembered (foundAgain q s) s := by
  cases hvalid : s.clock.valid with
  | true =>
    have hfound : foundAgain q s = fun l =>
        if q l then evaluate (activeList s l) s.clock.day s.clock.minute else s.program.remembered.get l := by
      funext l
      simp only [foundAgain, hvalid, true_and]
    rw [hfound]
    exact if_pos hvalid
  | false =>
    have hstands : foundAgain q s = s.program.remembered.get := by
      funext l
      simp [foundAgain, hvalid]
    rw [hstands, setRemembered, Tab.ofFn_get]
    exact if_neg (by simp [hvalid])

theorem silently_eq (q : Fin 17 → Bool) (s : State) : silently q s = handOn (setRemembered (foundAgain q s) s) := by
  rw [silently, reevaluate_eq]

theorem handOn_resolved (s : State) : SetpointsResolved (handOn s) :=
  have hresolve : SetpointsResolved (resolve s) := fun z => Tab.get_ofFn _ z
  hresolve.of_keeps (handOn_reaches s).1 (by decide)

/-! ## A bank written by a command (R22, R23, R36) -/

section
variable (p : Port) (b : Fin 4) (bank : Bank) (q : Fin 17 → Bool)

/-- A bank has been written from s to t, the other port told, and where the bank is active the entries of the lists that
satisfy q found afresh and the results handed on (R22, R23, R36). -/
structure BankPut (s t : State) : Prop where
  program : t.program = { s.program with
    banks := s.program.banks.set b bank, remembered := t.program.remembered }
  entries : ∀ l, t.program.remembered.get l =
    if b = s.program.active ∧ s.clock.valid = true ∧ q l = true then
      evaluate (bank.lists.get l) s.clock.day s.clock.minute
    else s.program.remembered.get l
  notices : t.notices = s.notices.put p.other ((s.notices.of p.other).take .scheduleEdited)
  slots : t.overrides.slots = s.overrides.slots
  resolved : SetpointsResolved s → SetpointsResolved t

/-- The block's state behind the write of a bank. -/
def bankPut (s : State) : State := afterEdit b q (post p.other .scheduleEdited (putBank b bank s))

variable {p b bank q}

theorem bankPut_keeps (s : State) :
    Keeps [.program, .overrides, .valves, .firing, .notices, .raised] s (bankPut p b bank q s) := by
  have hput : Keeps [.program, .notices] s (post p.other .scheduleEdited (putBank b bank s)) := by
    intro part hp
    cases part <;> first | rfl | (simp at hp)
  unfold bankPut afterEdit
  split
  · rw [silently_eq]
    exact ((hput.mono (by simp)).trans ((setRemembered_keeps _ _).mono (by simp))).trans
      ((handOn_keeps _).mono (by simp))
  · exact hput.mono (by simp)

theorem bankPut_spec (s : State) : BankPut p b bank q s (bankPut p b bank q s) := by
  unfold bankPut afterEdit
  split
  · next hactive =>
    rw [silently_eq]
    have hactive : b = s.program.active := hactive
    have hprogram : ∀ u, (handOn u).program = u.program := fun u => handOn_keeps u .program (by decide)
    refine ⟨?_, fun l => ?_, ?_, handOn_slots _, fun _ => handOn_resolved _⟩
    · rw [hprogram]
      rfl
    · rw [hprogram, (setRemembered_fields _ _).1, Tab.get_ofFn, foundAgain, activeList]
      simp [← hactive]
    · exact handOn_keeps _ .notices (by decide)
  · next hactive =>
    have hactive : b ≠ s.program.active := hactive
    exact ⟨rfl, fun l => (if_neg fun h => hactive h.1).symm, rfl, rfl, fun h z => h z⟩

/-- A command that has written a bank: what it leaves, with the answered revision and what follows it. -/
structure BankWritten (p : Port) (b : Fin 4) (bank : Bank) (q : Fin 17 → Bool) (tail : List Field) (s t : State) :
    Prop extends BankPut p b bank q s t where
  keeps : Keeps (responseParts ++ [.program, .overrides, .valves, .firing, .links, .notices]) s t
  answered : t.answered = some (p, .ok (count bank.revision :: tail))

theorem command_of_bankPut (c : Instr) {block : State → State × Response} {tail : List Field} {s : State}
    (hp : s.powered = true) (hb : block (nothingRaised s) = (bankPut p b bank q (nothingRaised s),
      .ok (revisionField (bankPut p b bank q (nothingRaised s)) b :: tail))) :
    ∃ t, command c p block s = .next t ∧ BankWritten p b bank q tail s t := by
  have hput := bankPut_spec (p := p) (b := b) (bank := bank) (q := q) (nothingRaised s)
  obtain ⟨t, hrow, hkeeps, hanswer, hu⟩ := command_of_block
    (l := [.program, .overrides, .valves, .firing, .notices]) c p hp hb ((bankPut_keeps _).mono (by simp))
  have hprogram : t.program = _ := hu .program (by decide)
  have hoverrides : t.overrides = _ := hu .overrides (by decide)
  refine ⟨t, hrow, ?_, hkeeps.mono (by decide), ?_⟩
  · refine ⟨?_, ?_, (hu .notices (by decide)).trans hput.notices, ?_, fun h => ?_⟩
    · rw [hprogram]
      exact hput.program
    · rw [hprogram]
      exact hput.entries
    · rw [hoverrides]
      exact hput.slots
    · exact (hput.resolved h).of_keeps hu (by decide)
  · rw [hanswer, revisionField, hput.program, Tab.get_set_self]

section
variable {s t : State} (h : BankPut p b bank q s t)
include h

theorem BankPut.written : t.program.banks.get b = bank := by rw [h.program]; exact Tab.get_set_self _ _ _

theorem BankPut.others {b' : Fin 4} (hb : b' ≠ b) : t.program.banks.get b' = s.program.banks.get b' := by
  rw [h.program]
  exact Tab.get_set_ne _ _ hb

theorem BankPut.active : t.program.active = s.program.active := by rw [h.program]

theorem BankPut.timed : t.program.timed = s.program.timed := by rw [h.program]

/-- Outside the active bank, and at an INVALID clock, every entry stands (R19, R22). -/
theorem BankPut.remembered (hstands : b ≠ s.program.active ∨ s.clock.valid = false) :
    t.program.remembered = s.program.remembered :=
  Tab.ext_get fun l => by
    rw [h.entries, if_neg]
    rintro ⟨hactive, hvalid, -⟩
    rcases hstands with hne | hinvalid
    · exact hne hactive
    · rw [hvalid] at hinvalid
      cases hinvalid

theorem BankPut.told : (t.notices.of p.other).kinds.getLsbD 2 = true := by
  rw [h.notices, Notices.of_put, if_pos rfl, PortNotices.take_kinds_getLsbD]
  rfl

theorem BankPut.untold : t.notices.of p = s.notices.of p := by
  rw [h.notices, Notices.of_put, if_neg (by cases p <;> decide)]

end

end

/-! ## The fields and the guard of an edit (R23 to R25) -/

theorem daySetOf_toNat {days : DaySet} (h : days ≠ 0) : daySetOf days.toNat = some days := by
  have hpos : days.toNat ≠ 0 := fun hzero => h (BitVec.eq_of_toNat_eq hzero)
  have hlt := days.isLt
  have hwithin : within 1 127 days.toNat = true := (within_iff _ _ _).2 (by omega)
  rw [daySetOf, if_pos hwithin, BitVec.ofInt_natCast, BitVec.ofNat_toNat, BitVec.setWidth_eq]

theorem startOf_natCast {start : Nat} (h : start < 1440) : startOf start = some start := by
  have hwithin : within 0 1439 start = true := (within_iff _ _ _).2 (by omega)
  rw [startOf, if_pos hwithin, Int.toNat_natCast]

theorem daySetOf_eq_none {v : Int} (h : v < 1 ∨ 127 < v) : daySetOf v = none :=
  if_neg fun hwithin => by rw [within_iff] at hwithin; omega

theorem startOf_eq_none {v : Int} (h : v < 0 ∨ 1439 < v) : startOf v = none :=
  if_neg fun hwithin => by rw [within_iff] at hwithin; omega

/-- The expected revision is none or the bank's own (R23). -/
def RevisionFits (s : State) (b : Fin 4) (revision : Option Int) : Prop :=
  revision = none ∨ revision = some ((s.program.banks.get b).revision : Int)

theorem RevisionFits.not_stale {s : State} {b : Fin 4} {revision : Option Int} (h : RevisionFits s b revision) :
    isStale (nothingRaised s) b revision = false := by
  rcases h with rfl | rfl
  · rfl
  · simp [isStale]

theorem isStale_of_ne {s : State} {b : Fin 4} {r : Int} (h : r ≠ (s.program.banks.get b).revision) :
    isStale (nothingRaised s) b (some r) = true := by
  simpa [isStale] using h

/-- A bank carries the saving marker while the save in flight is of it (R14, R177). -/
theorem saving_of_operation {s : State} {b : Fin 4} {lists : Lists} {port : Port}
    (h : s.store.operation = some ⟨.bank b lists, port⟩) : saving s b = true := by
  simp [saving, h]

/-! ## The four edits (R24 to R28) -/

/-- A bank under changed lists (R23). -/
def Bank.edited (bank : Bank) (lists : Lists) : Bank := ⟨lists, nextRevision bank.revision, true⟩

theorem editList_eq (p : Port) (b : Fin 4) (l : Fin 17) (points : List SwitchPoint) (s : State) :
    editList p b l points s =
      bankPut p b ((s.program.banks.get b).edited ((s.program.banks.get b).lists.set l points))
        (fun l' => decide (l' = l)) s := rfl

section
variable {p : Port} {b : Fin 4} {l : Fin 17} {days : DaySet} {start : Nat} {revision : Option Int} {s : State}

/-- With its fields in range POINT ADD goes on to the guard, the overlap and the room (R24). -/
theorem pointAddBlock_of_fields {value : Int} {target : Target} (hdays : days ≠ 0) (hstart : start < 1440)
    (htarget : targetOf l value = some target) (s : State) :
    pointAddBlock p b.val l.val days.toNat start value revision s = addPoint p b l ⟨days, start, target⟩ revision s := by
  simp only [pointAddBlock, index_val, daySetOf_toNat hdays, startOf_natCast hstart, htarget]

theorem pointDelBlock_of_fields (hdays : days ≠ 0) (hstart : start < 1440) (s : State) :
    pointDelBlock p b.val l.val days.toNat start revision s = removePoint p b l days start revision s := by
  simp only [pointDelBlock, index_val, daySetOf_toNat hdays, startOf_natCast hstart]

/-- No point of a list starts with a given point and shares a day with it, or one does (R16, R24). -/
theorem duplicates_eq_true_iff (points : List SwitchPoint) (point : SwitchPoint) :
    duplicates points point = true ↔ ∃ q ∈ points, q.start = point.start ∧ q.days &&& point.days ≠ 0 := by
  simp [duplicates, overlap]

theorem duplicates_eq_false_iff (points : List SwitchPoint) (point : SwitchPoint) :
    duplicates points point = false ↔ ∀ q ∈ points, q.start = point.start → q.days &&& point.days = 0 := by
  simp [duplicates, overlap]

theorem any_isAt_iff (points : List SwitchPoint) :
    points.any (SwitchPoint.isAt days start) = true ↔ ∃ q ∈ points, q.days = days ∧ q.start = start := by
  simp [SwitchPoint.isAt]

variable (hp : s.powered = true) (hrevision : RevisionFits s b revision)
include hp hrevision

theorem pointAdd_accepted {value : Int} {target : Target} (hdays : days ≠ 0) (hstart : start < 1440)
    (htarget : targetOf l value = some target)
    (hnew : ∀ q ∈ (s.program.banks.get b).lists.get l, q.start = start → q.days &&& days = 0)
    (hroom : ((s.program.banks.get b).lists.list.map List.length).sum < 256) :
    ∃ t, exec (.pointAdd p b.val l.val days.toNat start value revision) s = .next t ∧
      BankWritten p b ((s.program.banks.get b).edited ((s.program.banks.get b).lists.set l
          (insertPoint ⟨days, start, target⟩ ((s.program.banks.get b).lists.get l))))
        (fun l' => decide (l' = l)) [count (placeFor ⟨days, start, target⟩ ((s.program.banks.get b).lists.get l))]
        s t := by
  refine command_of_bankPut (.pointAdd p b.val l.val days.toNat start value revision) hp ?_
  have hduplicates : duplicates (bankList (nothingRaised s) b l) ⟨days, start, target⟩ = false :=
    (duplicates_eq_false_iff _ _).2 hnew
  have hpool : ¬ Config.poolSize ≤ ((nothingRaised s).program.banks.get b).poolCount := Nat.not_le.2 hroom
  rw [pointAddBlock_of_fields hdays hstart htarget, addPoint, hrevision.not_stale, hduplicates, if_neg hpool]
  rfl

theorem pointAdd_duplicate {value : Int} {target : Target} (hdays : days ≠ 0) (hstart : start < 1440)
    (htarget : targetOf l value = some target)
    (hold : ∃ q ∈ (s.program.banks.get b).lists.get l, q.start = start ∧ q.days &&& days ≠ 0) :
    ∃ t, exec (.pointAdd p b.val l.val days.toNat start value revision) s = .next t ∧ Keeps responseParts s t ∧
      t.answered = some (p, .er .duplicate) := by
  refine refused_powered (.pointAdd p b.val l.val days.toNat start value revision) p _ .duplicate s hp ?_
  have hduplicates : duplicates (bankList (nothingRaised s) b l) ⟨days, start, target⟩ = true :=
    (duplicates_eq_true_iff _ _).2 hold
  rw [pointAddBlock_of_fields hdays hstart htarget, addPoint, hrevision.not_stale, hduplicates]
  rfl

theorem pointAdd_full {value : Int} {target : Target} (hdays : days ≠ 0) (hstart : start < 1440)
    (htarget : targetOf l value = some target)
    (hnew : ∀ q ∈ (s.program.banks.get b).lists.get l, q.start = start → q.days &&& days = 0)
    (hroom : 256 ≤ ((s.program.banks.get b).lists.list.map List.length).sum) :
    ∃ t, exec (.pointAdd p b.val l.val days.toNat start value revision) s = .next t ∧ Keeps responseParts s t ∧
      t.answered = some (p, .er .full) := by
  refine refused_powered (.pointAdd p b.val l.val days.toNat start value revision) p _ .full s hp ?_
  have hduplicates : duplicates (bankList (nothingRaised s) b l) ⟨days, start, target⟩ = false :=
    (duplicates_eq_false_iff _ _).2 hnew
  have hpool : Config.poolSize ≤ ((nothingRaised s).program.banks.get b).poolCount := hroom
  rw [pointAddBlock_of_fields hdays hstart htarget, addPoint, hrevision.not_stale, hduplicates, if_pos hpool]
  rfl

theorem pointDel_accepted (hdays : days ≠ 0) (hstart : start < 1440)
    (hfound : ∃ q ∈ (s.program.banks.get b).lists.get l, q.days = days ∧ q.start = start) :
    ∃ t, exec (.pointDel p b.val l.val days.toNat start revision) s = .next t ∧
      BankWritten p b ((s.program.banks.get b).edited ((s.program.banks.get b).lists.set l
          (((s.program.banks.get b).lists.get l).eraseP (SwitchPoint.isAt days start))))
        (fun l' => decide (l' = l)) [] s t := by
  refine command_of_bankPut (.pointDel p b.val l.val days.toNat start revision) hp ?_
  have hany : (bankList (nothingRaised s) b l).any (SwitchPoint.isAt days start) = true := (any_isAt_iff _).2 hfound
  rw [pointDelBlock_of_fields hdays hstart, removePoint, hrevision.not_stale, if_pos hany]
  rfl

theorem pointDel_notFound (hdays : days ≠ 0) (hstart : start < 1440)
    (hnone : ∀ q ∈ (s.program.banks.get b).lists.get l, ¬(q.days = days ∧ q.start = start)) :
    ∃ t, exec (.pointDel p b.val l.val days.toNat start revision) s = .next t ∧ Keeps responseParts s t ∧
      t.answered = some (p, .er .notFound) := by
  refine refused_powered (.pointDel p b.val l.val days.toNat start revision) p _ .notFound s hp ?_
  have hany : ¬ (bankList (nothingRaised s) b l).any (SwitchPoint.isAt days start) = true := by
    rw [any_isAt_iff]
    rintro ⟨q, hq, hat⟩
    exact hnone q hq hat
  rw [pointDelBlock_of_fields hdays hstart, removePoint, hrevision.not_stale, if_neg hany]
  rfl

theorem listClear_accepted (l : Fin 17) :
    ∃ t, exec (.listClear p b.val l.val revision) s = .next t ∧
      BankWritten p b ((s.program.banks.get b).edited ((s.program.banks.get b).lists.set l []))
        (fun l' => decide (l' = l)) [count ((s.program.banks.get b).lists.get l).length] s t := by
  refine command_of_bankPut (.listClear p b.val l.val revision) hp ?_
  simp only [listClearBlock, index_val, hrevision.not_stale]
  rfl

theorem bankCopy_accepted (a : Fin 4) (hidle : saving s b = false) :
    ∃ t, exec (.bankCopy p a.val b.val revision) s = .next t ∧
      BankWritten p b ((s.program.banks.get b).edited (s.program.banks.get a).lists) (fun _ => true) [] s t := by
  refine command_of_bankPut (.bankCopy p a.val b.val revision) hp ?_
  have hsaving : saving (nothingRaised s) b = false := hidle
  simp only [bankCopyBlock, index_val, hrevision.not_stale, hsaving]
  rfl

theorem bankCopy_busy (a : Fin 4) (hbusy : saving s b = true) :
    ∃ t, exec (.bankCopy p a.val b.val revision) s = .next t ∧ Keeps responseParts s t ∧
      t.answered = some (p, .er .busy) := by
  refine refused_powered (.bankCopy p a.val b.val revision) p _ .busy s hp ?_
  have hsaving : saving (nothingRaised s) b = true := hbusy
  simp only [bankCopyBlock, index_val, hrevision.not_stale, hsaving]
  rfl

end

end Sys2Proof.Machine

namespace Sys2Proof.Machine

/-! ## Edits as accepted changes (R22, R23) -/

section
variable {p : Port} {b : Fin 4} {l : Fin 17} {days : DaySet} {start : Nat} {target : Int} {s : State}

/-- Each of the four edits that is accepted writes its bank, and in the active bank has at least its own list found
afresh, BANK COPY every list (R22). -/
theorem edit_accepted {i : Instr} {revision : Option Int} (hp : s.powered = true) (hdays : days ≠ 0)
    (hstart : start < 1440) (hrevision : RevisionFits s b revision)
    (hedit : i = .pointAdd p b.val l.val days.toNat start target revision ∧ (targetOf l target).isSome = true ∧
        (∀ q ∈ (s.program.banks.get b).lists.get l, q.start = start → q.days &&& days = 0) ∧
        ((s.program.banks.get b).lists.list.map List.length).sum < 256 ∨
      i = .pointDel p b.val l.val days.toNat start revision ∧
        (∃ q ∈ (s.program.banks.get b).lists.get l, q.days = days ∧ q.start = start) ∨
      i = .listClear p b.val l.val revision ∨
      (∃ a : Fin 4, i = .bankCopy p a.val b.val revision ∧ saving s b = false)) :
    ∃ lists q tail t, exec i s = .next t ∧ BankWritten p b ((s.program.banks.get b).edited lists) q tail s t ∧
      ∀ l', (l' = l ∨ ∃ a : Fin 4, i = .bankCopy p a.val b.val revision) → q l' = true := by
  rcases hedit with ⟨rfl, htarget, hnew, hroom⟩ | ⟨rfl, hfound⟩ | rfl | ⟨a, rfl, hidle⟩
  · obtain ⟨point, hpoint⟩ := Option.isSome_iff_exists.1 htarget
    obtain ⟨t, hrow, h⟩ := pointAdd_accepted hp hrevision hdays hstart hpoint hnew hroom
    exact ⟨_, _, _, t, hrow, h, by rintro l' (rfl | ⟨a, ⟨⟩⟩); simp⟩
  · obtain ⟨t, hrow, h⟩ := pointDel_accepted hp hrevision hdays hstart hfound
    exact ⟨_, _, _, t, hrow, h, by rintro l' (rfl | ⟨a, ⟨⟩⟩); simp⟩
  · obtain ⟨t, hrow, h⟩ := listClear_accepted hp hrevision l
    exact ⟨_, _, _, t, hrow, h, by rintro l' (rfl | ⟨a, ⟨⟩⟩); simp⟩
  · obtain ⟨t, hrow, h⟩ := bankCopy_accepted hp hrevision a hidle
    exact ⟨_, _, _, t, hrow, h, fun _ _ => rfl⟩

/-- An edit under another revision than the bank's is refused (R23). -/
theorem edit_stale {i : Instr} {r : Int} {a : Fin 4} (hp : s.powered = true) (hdays : days ≠ 0)
    (hstart : start < 1440) (hr : r ≠ (s.program.banks.get b).revision)
    (hedit : i = .pointAdd p b.val l.val days.toNat start target (some r) ∧ (targetOf l target).isSome = true ∨
      i = .pointDel p b.val l.val days.toNat start (some r) ∨ i = .listClear p b.val l.val (some r) ∨
      i = .bankCopy p a.val b.val (some r)) :
    ∃ t, exec i s = .next t ∧ Keeps responseParts s t ∧ t.answered = some (p, .er .stale) := by
  have hstale := isStale_of_ne hr
  rcases hedit with ⟨rfl, htarget⟩ | rfl | rfl | rfl
  · obtain ⟨point, hpoint⟩ := Option.isSome_iff_exists.1 htarget
    refine refused_powered (.pointAdd p b.val l.val days.toNat start target (some r)) p _ .stale s hp ?_
    rw [pointAddBlock_of_fields hdays hstart hpoint, addPoint, if_pos hstale]
  · refine refused_powered (.pointDel p b.val l.val days.toNat start (some r)) p _ .stale s hp ?_
    rw [pointDelBlock_of_fields hdays hstart, removePoint, if_pos hstale]
  · refine refused_powered (.listClear p b.val l.val (some r)) p _ .stale s hp ?_
    simp only [listClearBlock, index_val, if_pos hstale]
  · refine refused_powered (.bankCopy p a.val b.val (some r)) p _ .stale s hp ?_
    simp only [bankCopyBlock, index_val, if_pos hstale]

end

/-- Settles O21: every accepted edit is the write of a bank under the next revision, and `BankWritten` says what that
leaves. -/
theorem editsCountAsChanges : Obligations.EditsCountAsChanges := by
  intro p b l days start target s hp hdays hstart
  refine ⟨fun i revision hrevision hedit => ?_, fun r i a hr hedit => edit_stale hp hdays hstart hr hedit⟩
  obtain ⟨lists, q, tail, t, hrow, h, hq⟩ := edit_accepted hp hdays hstart hrevision hedit
  refine ⟨t, tail, hrow, h.keeps, h.answered, by rw [h.written]; rfl, by rw [h.written]; rfl, h.told, h.untold, h.slots,
    h.resolved, h.active, h.timed, h.remembered, fun hactive hvalid l' hl => ?_, fun b' => h.others⟩
  rw [h.entries, if_pos ⟨hactive, hvalid, hq l' hl⟩, h.written]

/-! ## What the edits make of their list (R24 to R28) -/

section
variable {p : Port} {s : State}

/-- POINT ADD, POINT DEL, LIST CLEAR and BANK COPY refuse a field out of range (R15, R24 to R26, R28). -/
theorem edit_range {i : Instr} {v w d m x : Int} {r : Option Int} (hp : s.powered = true)
    (hedit : i = .pointAdd p v w d m x r ∧ (v < 0 ∨ 3 < v ∨ w < 0 ∨ 16 < w ∨ d < 1 ∨ 127 < d ∨ m < 0 ∨ 1439 < m ∨
          (w = 16 ∧ x ≠ 0 ∧ x ≠ 1)) ∨
        i = .pointDel p v w d m r ∧ (v < 0 ∨ 3 < v ∨ w < 0 ∨ 16 < w ∨ d < 1 ∨ 127 < d ∨ m < 0 ∨ 1439 < m) ∨
        i = .listClear p v w r ∧ (v < 0 ∨ 3 < v ∨ w < 0 ∨ 16 < w) ∨
        i = .bankCopy p v w r ∧ (v < 0 ∨ 3 < v ∨ w < 0 ∨ 3 < w)) :
    ∃ t, exec i s = .next t ∧ Keeps responseParts s t ∧ t.answered = some (p, .er .range) := by
  have hfield : ∀ {n : Nat} {a : Int} {j : Fin n}, index n a = some j → 0 ≤ a ∧ a < n := fun h => by
    have := (index_eq_some_iff _ _ _).1 h
    omega
  have hdaySet : ∀ {a d}, daySetOf a = some d → 1 ≤ a ∧ a ≤ 127 := fun h => by
    by_contra hout
    rw [daySetOf_eq_none (by omega)] at h
    cases h
  have hstartIn : ∀ {a m}, startOf a = some m → 0 ≤ a ∧ a ≤ 1439 := fun h => by
    by_contra hout
    rw [startOf_eq_none (by omega)] at h
    cases h
  rcases hedit with ⟨rfl, hrange⟩ | ⟨rfl, hrange⟩ | ⟨rfl, hrange⟩ | ⟨rfl, hrange⟩
  · refine refused_powered (.pointAdd p v w d m x r) p _ .range s hp ?_
    unfold pointAddBlock
    split
    · next b l days start hb hl hd hm =>
      have := hfield hb
      have := hfield hl
      have := hdaySet hd
      have := hstartIn hm
      obtain ⟨rfl, hoff, hon⟩ : w = 16 ∧ x ≠ 0 ∧ x ≠ 1 := by omega
      have hlist : l = hotWaterList := Fin.ext (by have := (index_eq_some_iff _ _ _).1 hl; simp [hotWaterList]; omega)
      have htarget : targetOf l x = none := by rw [targetOf, if_pos hlist, if_neg hoff, if_neg hon]
      rw [htarget]
    · rfl
  · refine refused_powered (.pointDel p v w d m r) p _ .range s hp ?_
    unfold pointDelBlock
    split
    · next b l days start hb hl hd hm =>
      have := hfield hb
      have := hfield hl
      have := hdaySet hd
      have := hstartIn hm
      omega
    · rfl
  · refine refused_powered (.listClear p v w r) p _ .range s hp ?_
    unfold listClearBlock
    split
    · next b l hb hl =>
      have := hfield hb
      have := hfield hl
      omega
    · rfl
  · refine refused_powered (.bankCopy p v w r) p _ .range s hp ?_
    unfold bankCopyBlock
    split
    · next a b ha hb =>
      have := hfield ha
      have := hfield hb
      omega
    · rfl

end

/-- A point's place divides its list into the points before it and the others (R16). -/
theorem insertPoint_eq (point : SwitchPoint) (points : List SwitchPoint) :
    ∃ before after, points = before ++ after ∧ insertPoint point points = before ++ point :: after ∧
      placeFor point points = before.length ∧ ∀ q ∈ before, q.start ≤ point.start := by
  refine ⟨_, _, (List.takeWhile_append_dropWhile (p := fun q : SwitchPoint => q.before point)).symm, rfl, rfl,
    fun q hq => ?_⟩
  have := (before_iff _ _).1 (List.mem_takeWhile_imp (p := fun q : SwitchPoint => q.before point) hq)
  omega

/-- The first point that is at a day set and a start is the one taken out (R25). -/
theorem eraseP_isAt (before after : List SwitchPoint) (q : SwitchPoint)
    (h : ∀ r ∈ before, ¬(r.days = q.days ∧ r.start = q.start)) :
    (before ++ q :: after).eraseP (SwitchPoint.isAt q.days q.start) = before ++ after := by
  rw [List.eraseP_append_right _ fun r hr => by simpa [SwitchPoint.isAt] using h r hr,
    List.eraseP_cons_of_pos (by simp [SwitchPoint.isAt])]

/-- A list of an edited bank: the new one in its place, the others as they were. -/
theorem edited_lists (bank : Bank) (l l' : Fin 17) (points : List SwitchPoint) :
    (bank.edited (bank.lists.set l points)).lists.get l' = if l' = l then points else bank.lists.get l' :=
  Tab.get_set _ _ _ _

/-- Settles O22: each accepted edit by the lists that it writes, each refusal by the check of its block that fails. -/
theorem editsPlaceAndRemovePoints : Obligations.EditsPlaceAndRemovePoints := by
  intro p b l revision s hp hrevision
  refine ⟨fun days start value target hdays hstart htarget => ⟨fun hnew hroom => ?_,
      pointAdd_duplicate hp hrevision hdays hstart htarget, pointAdd_full hp hrevision hdays hstart htarget,
      pointDel_notFound hp hrevision hdays hstart⟩,
    fun before after q hlist hdays hstart hfirst => ?_, ?_, fun a => ⟨fun hidle => ?_, ?_⟩,
    fun v w d m x r i hedit => edit_range hp hedit⟩
  · obtain ⟨t, hrow, h⟩ := pointAdd_accepted hp hrevision hdays hstart htarget hnew hroom
    obtain ⟨before, after, hsplit, hinsert, hplace, hbefore⟩ :=
      insertPoint_eq ⟨days, start, target⟩ ((s.program.banks.get b).lists.get l)
    refine ⟨t, before, after, hrow, hsplit, ?_, fun l' hl => ?_, hbefore, ?_⟩
    · rw [h.written, edited_lists, if_pos rfl, hinsert]
    · rw [h.written, edited_lists, if_neg hl]
    · rw [h.answered, hplace]
      rfl
  · obtain ⟨t, hrow, h⟩ := pointDel_accepted (l := l) hp hrevision hdays hstart ⟨q, by simp [hlist], rfl, rfl⟩
    refine ⟨t, hrow, ?_, fun l' hl => ?_, h.answered⟩
    · rw [h.written, edited_lists, if_pos rfl, hlist, eraseP_isAt before after q hfirst]
    · rw [h.written, edited_lists, if_neg hl]
  · obtain ⟨t, hrow, h⟩ := listClear_accepted hp hrevision l
    refine ⟨t, hrow, ?_, fun l' hl => ?_, h.answered⟩
    · rw [h.written, edited_lists, if_pos rfl]
    · rw [h.written, edited_lists, if_neg hl]
  · obtain ⟨t, hrow, h⟩ := bankCopy_accepted hp hrevision a hidle
    exact ⟨t, hrow, by rw [h.written]; rfl, h.answered⟩
  · rintro ⟨lists, port, hsaved⟩
    exact bankCopy_busy hp hrevision a (saving_of_operation hsaved)

/-! ## BANK LOAD (R36) -/

section
variable {p : Port} {s : State} (hp : s.powered = true)
include hp

theorem bankLoad_accepted {b : Fin 4} (hidle : s.store.operation = none) (hgood : (s.store.banks.get b).good = true) :
    ∃ t, exec (.bankLoad p b.val) s = .next t ∧
      BankWritten p b ⟨(s.store.banks.get b).content, nextRevision (s.program.banks.get b).revision, false⟩
        (fun _ => true) [] s t := by
  refine command_of_bankPut (.bankLoad p b.val) hp ?_
  have hfree : (nothingRaised s).store.operation = none := hidle
  have hstored : (storedBank (nothingRaised s) b).good = true := hgood
  simp only [bankLoadBlock, index_val, hfree, hstored]
  rfl

theorem bankLoad_corrupt {b : Fin 4} (hidle : s.store.operation = none)
    (hgood : (s.store.banks.get b).good = false) :
    ∃ t, exec (.bankLoad p b.val) s = .next t ∧ Keeps responseParts s t ∧ t.answered = some (p, .er .corrupt) := by
  refine refused_powered (.bankLoad p b.val) p _ .corrupt s hp ?_
  have hfree : (nothingRaised s).store.operation = none := hidle
  have hstored : (storedBank (nothingRaised s) b).good = false := hgood
  simp only [bankLoadBlock, index_val, hfree, hstored]
  rfl

theorem bankLoad_busy (b : Fin 4) (hbusy : s.store.operation.isSome = true) :
    ∃ t, exec (.bankLoad p b.val) s = .next t ∧ Keeps responseParts s t ∧ t.answered = some (p, .er .busy) := by
  refine refused_powered (.bankLoad p b.val) p _ .busy s hp ?_
  have hsaving : (nothingRaised s).store.operation.isSome = true := hbusy
  simp only [bankLoadBlock, index_val, if_pos hsaving]

theorem bankLoad_range {v : Int} (hrange : v < 0 ∨ 3 < v) :
    ∃ t, exec (.bankLoad p v) s = .next t ∧ Keeps responseParts s t ∧ t.answered = some (p, .er .range) := by
  refine refused_powered (.bankLoad p v) p _ .range s hp ?_
  have hnone : index 4 v = none := (index_eq_none_iff 4 v).2 (by omega)
  simp only [bankLoadBlock, hnone]

end

/-- Settles O25: the load of a good copy is the write of the bank under the next revision, each refusal a failing
check. -/
theorem bankLoadTakesStoredCopy : Obligations.BankLoadTakesStoredCopy := by
  intro p b s hp
  refine ⟨fun hidle hgood => ?_, bankLoad_corrupt hp, bankLoad_busy hp b, fun v => bankLoad_range hp⟩
  obtain ⟨t, hrow, h⟩ := bankLoad_accepted (p := p) hp hidle hgood
  exact ⟨t, hrow, h.keeps, h.written, fun b' => h.others, h.active, h.timed, h.slots, h.resolved,
    fun hactive hvalid l => by rw [h.entries, if_pos ⟨hactive, hvalid, rfl⟩], fun hother => h.remembered (.inl hother),
    h.told, h.untold, h.answered⟩

end Sys2Proof.Machine

namespace Sys2Proof.Machine

/-! ## Saves (R34, R35, R177, R178) -/

theorem setOperation_keeps (o : Option Operation) (s : State) : Keeps [.store] s (setOperation o s) := by
  intro part hp
  cases part <;> first | rfl | (simp at hp)

theorem setDirty_keeps (b : Fin 4) (dirty : Bool) (s : State) : Keeps [.program] s (setDirty b dirty s) := by
  intro part hp
  cases part <;> first | rfl | (simp at hp)

section
variable {p : Port} {s : State} (hp : s.powered = true)
include hp

/-- CONFIG SAVE on an idle store puts the record as it stands into a save in flight (R178). -/
theorem configSave_started (hidle : s.store.operation = none) :
    ∃ t, exec (.configSave p) s = .next t ∧ Keeps (responseParts ++ [.store]) s t ∧
      t.store = { s.store with operation := some ⟨.config s.settings, p⟩ } ∧ t.answered = some (p, .ok []) := by
  have hfree : (nothingRaised s).store.operation = none := hidle
  have hblock : configSaveBlock p (nothingRaised s) =
      (setOperation (some ⟨.config s.settings, p⟩) (nothingRaised s), .ok []) := by
    simp only [configSaveBlock, hfree]
    rfl
  obtain ⟨t, hrow, hkeeps, hanswer, hu⟩ := command_of_keeps (.configSave p) p hp hblock (setOperation_keeps _ _)
    (by decide)
  exact ⟨t, hrow, hkeeps, hu .store (by decide), hanswer⟩

/-- BANK SAVE on an idle store puts the bank's lists into a save in flight and clears its dirty flag (R34). -/
theorem bankSave_started {b : Fin 4} (hidle : s.store.operation = none) :
    ∃ t, exec (.bankSave p b.val) s = .next t ∧ Keeps (responseParts ++ [.store, .program]) s t ∧
      t.store = { s.store with operation := some ⟨.bank b (s.program.banks.get b).lists, p⟩ } ∧
      t.answered = some (p, .ok []) ∧
      t.program = { s.program with
        banks := s.program.banks.set b { s.program.banks.get b with dirty := false } } := by
  have hfree : (nothingRaised s).store.operation = none := hidle
  have hblock : bankSaveBlock p b.val (nothingRaised s) =
      (setDirty b false (setOperation (some ⟨.bank b (s.program.banks.get b).lists, p⟩) (nothingRaised s)),
        .ok []) := by
    simp only [bankSaveBlock, index_val, hfree]
    rfl
  obtain ⟨t, hrow, hkeeps, hanswer, hu⟩ := command_of_keeps (l := [.store, .program]) (.bankSave p b.val) p hp hblock
    (((setOperation_keeps _ _).mono (by simp)).trans ((setDirty_keeps _ _ _).mono (by simp))) (by decide)
  exact ⟨t, hrow, hkeeps, hu .store (by decide), hanswer, hu .program (by decide)⟩

/-- The three commands that use the store are refused while a save is in flight (R177). -/
theorem store_busy {b : Fin 4} (hbusy : s.store.operation.isSome = true) {i : Instr}
    (hi : i = .configSave p ∨ i = .bankSave p b.val ∨ i = .bankLoad p b.val) :
    ∃ t, exec i s = .next t ∧ Keeps responseParts s t ∧ t.answered = some (p, .er .busy) := by
  have hsaving : (nothingRaised s).store.operation.isSome = true := hbusy
  rcases hi with rfl | rfl | rfl
  · refine refused_powered (.configSave p) p _ .busy s hp ?_
    simp only [configSaveBlock, if_pos hsaving]
  · refine refused_powered (.bankSave p b.val) p _ .busy s hp ?_
    simp only [bankSaveBlock, index_val, if_pos hsaving]
  · exact bankLoad_busy hp b hbusy

theorem bankSave_range {v : Int} (hrange : v < 0 ∨ 3 < v) :
    ∃ t, exec (.bankSave p v) s = .next t ∧ Keeps responseParts s t ∧ t.answered = some (p, .er .range) := by
  refine refused_powered (.bankSave p v) p _ .range s hp ?_
  have hnone : index 4 v = none := (index_eq_none_iff 4 v).2 (by omega)
  simp only [bankSaveBlock, hnone]

/-- With no save in flight there is no completion (R178). -/
theorem saveCompletion_of_idle (hidle : s.store.operation = none) (good : Bool) :
    exec (.saveCompletion good) s = .next s := by
  have hblock : saveCompletionBlock good (nothingRaised s) = nothingRaised s := by
    have hfree : (nothingRaised s).store.operation = none := hidle
    simp only [saveCompletionBlock, hfree]
  have hrow := event_powered (saveCompletionBlock good) s hp
  rw [withMatrix_of_quiet (by rw [hblock]; rfl), hblock, setRaised_nothingRaised] at hrow
  exact hrow

/-- The completion finds the save in flight, and raises nothing for the matrix (R178). -/
theorem saveCompletion_of_operation {o : Operation} (ho : s.store.operation = some o) (good : Bool) :
    exec (.saveCompletion good) s = .next (completeSave o good s) := by
  have hblock : saveCompletionBlock good (nothingRaised s) = completeSave o good (nothingRaised s) := by
    have hbusy : (nothingRaised s).store.operation = some o := ho
    simp only [saveCompletionBlock, hbusy]
  have hrow := event_powered (saveCompletionBlock good) s hp
  obtain ⟨object, port⟩ := o
  rw [withMatrix_of_quiet (by rw [hblock]; cases object <;> cases good <;> rfl), hblock] at hrow
  refine hrow.trans ?_
  cases object <;> cases good <;> rfl

end

/-! ### The completion, part by part -/

section
variable (o : Operation) (good : Bool) (s : State)

theorem completeSave_keeps : Keeps [.store, .notices, .program] s (completeSave o good s) := by
  obtain ⟨object, port⟩ := o
  intro part hp
  cases object <;> cases good <;> cases part <;> first | rfl | (simp at hp)

/-- The requesting port alone is told (R35, R178). -/
theorem completeSave_notices : (completeSave o good s).notices =
    s.notices.put o.port ((s.notices.of o.port).take (if good then .saveDone else .saveFail)) := by
  obtain ⟨object, port⟩ := o
  cases object <;> cases good <;> rfl

theorem completeSave_store :
    (completeSave o good s).store = (setOperation none (writeStored o.object good s)).store := by
  obtain ⟨object, port⟩ := o
  cases object <;> cases good <;> rfl

/-- Only a failed save reaches the program store, at its bank's dirty flag (R35). -/
theorem completeSave_program :
    (completeSave o good s).program = if good then s.program else (markFailed o.object s).program := by
  obtain ⟨object, port⟩ := o
  cases object <;> cases good <;> rfl

end

/-- Settles O24: the start of the two saves, the refusals of a busy store, and the completion part by part. -/
theorem savesStartAndComplete : Obligations.SavesStartAndComplete := by
  intro p b s hp
  refine ⟨fun hidle => ⟨configSave_started hp hidle, ?_, saveCompletion_of_idle hp hidle⟩,
    fun hbusy i => store_busy hp hbusy, fun v => bankSave_range hp, fun good o ho => ?_⟩
  · obtain ⟨t, hrow, hkeeps, hstore, hanswer, hprogram⟩ := bankSave_started (p := p) (b := b) hp hidle
    refine ⟨t, hrow, hkeeps, hstore, hanswer, ?_, fun b' hb => ?_, ?_⟩
    · rw [hprogram]
      exact Tab.get_set_self _ _ _
    · rw [hprogram]
      exact Tab.get_set_ne _ _ hb
    · rw [hprogram]
      exact ⟨rfl, rfl, rfl⟩
  · refine ⟨_, saveCompletion_of_operation hp ho good, completeSave_keeps o good s, ?_, ?_, ?_, fun c hc => ?_,
      fun b lists hb => ?_⟩
    · rw [completeSave_store]
      rfl
    · rw [completeSave_notices, Notices.of_put, if_neg (by cases o.port <;> decide)]
    · rw [completeSave_notices, Notices.of_put, if_pos rfl]
    · rw [completeSave_store, completeSave_program, hc, writeStored_config]
      cases good with
      | true => exact ⟨rfl, rfl, rfl, fun _ => rfl⟩
      | false => exact ⟨rfl, rfl, rfl, nofun⟩
    · rw [completeSave_store, completeSave_program, hb, writeStored_bank]
      refine ⟨rfl, ?_, ?_, ?_, ?_, fun b' hne => ⟨Tab.get_set_ne _ _ hne, ?_⟩⟩
      · rw [Tab.get_set_self]
        cases good <;> rfl
      · rintro rfl
        rw [Tab.get_set_self]
        rfl
      · cases good with
        | true => rfl
        | false => simp [markFailed, setDirty]
      · cases good with
        | true => rfl
        | false => simp [markFailed, setDirty]
      · cases good with
        | true => rfl
        | false => simp [markFailed, setDirty, hne]

/-! ## The active bank (R29 to R33, R51) -/

/-- The active bank has moved to b from s to u on a command of port p (R17, R29, R51, R54). -/
structure BankMoved (p : Port) (b : Fin 4) (s u : State) : Prop where
  told : (u.notices.of p.other).kinds.getLsbD 1 = true
  bankChange : EventsTaken s u .bankChange fun z => decide (z = 0)
  switchCross : EventsTaken s u .switchCross fun _ => false
  slots : u.overrides.slots = s.overrides.slots.filter fun o => decide (o.kind ≠ .next)
  resolved : SetpointsResolved u
  ended : ∀ o ∈ s.overrides.slots, o.kind = .next → (u.notices.of o.origin).TellsEnded o.zone
  entries : s.clock.valid = true → ∀ l, u.program.remembered.get l = inForce b s l

/-- The state in which a command has made a bank active and has told the other port and the matrix (R29). -/
def bankSelected (p : Port) (b : Fin 4) (s : State) : State :=
  raise .bankChange (post p.other .bankChanged (setActive b s))

theorem bankSelected_keeps (p : Port) (b : Fin 4) (s : State) :
    Keeps [.program, .notices, .raised] s (bankSelected p b s) := by
  intro part hp
  cases part <;> first | rfl | (simp at hp)

section
variable (order : Order) (p : Port) {b : Fin 4} {s : State}

theorem changeBank_command_eq (hb : b ≠ s.program.active) :
    changeBank order (some p) b s = takeInTurns order.turns (expireNext (handOn
      (setRemembered (foundAgain (fun _ => true) (bankSelected p b s)) (bankSelected p b s)))) := by
  rw [← silently_eq, changeBank, if_neg hb]
  rfl

theorem changeBank_keeps : Keeps [.program, .overrides, .valves, .firing, .links, .notices, .raised] s
    (changeBank order (some p) b s) := by
  by_cases hb : b = s.program.active
  · rw [changeBank, if_pos hb]
    exact Keeps.refl _ _
  · rw [changeBank_command_eq order p hb]
    exact ((bankSelected_keeps p b s).mono (by simp)).trans
      (storePass_of_handOn ((expire_keeps _ _).mono (by simp)) order.turns).keeps

theorem changeBank_raised (hs : s.raised = []) : (changeBank order (some p) b s).raised = [] := by
  by_cases hb : b = s.program.active
  · rwa [changeBank, if_pos hb]
  · rw [changeBank_command_eq order p hb]
    exact takeInTurns_raised _ _

/-- The bank is the active one, and of the program the entries alone may have changed beside it. -/
theorem changeBank_program : (changeBank order (some p) b s).program =
    { s.program with active := b, remembered := (changeBank order (some p) b s).program.remembered } := by
  by_cases hb : b = s.program.active
  · rw [changeBank, if_pos hb, hb]
  · rw [changeBank_command_eq order p hb, expireNext,
      program_of_handOn ((expire_keeps Slot.isNext _).mono (by simp))]
    rfl

theorem changeBank_moved (hb : b ≠ s.program.active) (hs : s.raised = []) :
    BankMoved p b s (changeBank order (some p) b s) := by
  rw [changeBank_command_eq order p hb, expireNext]
  have hstart := bankSelected_keeps p b s
  have hnotices : (bankSelected p b s).notices = (post p.other .bankChanged s).notices := rfl
  have hraised : (bankSelected p b s).raised = s.raised ++ [⟨.bankChange, 0⟩] := rfl
  have hprogram : (bankSelected p b s).program = { s.program with active := b } := rfl
  generalize bankSelected p b s = a at hstart hnotices hraised hprogram ⊢
  have hclock : a.clock = s.clock := hstart .clock (by decide)
  have hlinks : a.links = s.links := hstart .links (by decide)
  have hsettings : a.settings = s.settings := hstart .settings (by decide)
  have hoverrides : a.overrides = s.overrides := hstart .overrides (by decide)
  have htable := expire_keeps Slot.isNext (handOn (setRemembered (foundAgain (fun _ => true) a) a))
  have hkeeps := htable.mono (m := [.overrides, .notices, .raised]) (by simp)
  have hbehind := (htable .raised (by decide)).trans (List.append_nil _).symm
  have hslots := (slotsPass_of_handOn (expire_slotsPass Slot.isNext _) order.turns :
    SlotsPass _ a (takeInTurns order.turns
      (expire Slot.isNext (handOn (setRemembered (foundAgain (fun _ => true) a) a)))))
  refine ⟨?_, ?_, ?_, ?_, ?_, fun o ho hnext => ?_, fun hvalid l => ?_⟩
  · rw [hslots.kinds_of_ne _ (by decide), hnotices, (post_fields _ _ _).1, Notices.of_put, if_pos rfl,
      PortNotices.take_kinds_getLsbD]
    rfl
  · refine (eventsTaken_of_handOn hkeeps hbehind (by decide) ?_ order.turns).congr hlinks.symm hsettings.symm rfl
    rw [hraised, hs]
    decide
  · refine (eventsTaken_of_handOn hkeeps hbehind (by decide) ?_ order.turns).congr hlinks.symm hsettings.symm rfl
    rw [hraised, hs]
    decide
  · rw [hslots.slots, hoverrides, List.filterMap_eq_filter]
    simp [Slot.isNext]
  · exact (expire_resolved _ _).of_keeps (takeInTurns_keeps _ _) (by decide)
  · exact hslots.tells (hoverrides ▸ ho) (by simp [Slot.isNext, hnext])
  · rw [program_of_handOn hkeeps, Tab.get_ofFn, foundAgain, if_pos ⟨hclock ▸ hvalid, rfl⟩, activeList,
      hprogram, hclock]
    rfl

end

/-! ### The three commands (R30, R31, R33) -/

/-- The block's state where a command takes a bank and a timed-program record (R29 to R33). -/
def bankTaken (p : Port) (b : Fin 4) (record : Option Timed) (s : State) : State :=
  withOrder (fun order s => changeBank order (some p) b (setTimed record s)) s

/-- The state that a command finds when it takes a bank: its order taken and the timed-program record written. -/
def recordTaken (record : Option Timed) (s : State) : State := setTimed record { s with orders := s.orders.rest }

theorem recordTaken_keeps (record : Option Timed) (s : State) :
    Keeps [.program, .orders] s (recordTaken record s) := by
  intro part hp
  cases part <;> first | rfl | (simp at hp)

theorem bankTaken_eq (p : Port) (b : Fin 4) (record : Option Timed) (s : State) :
    bankTaken p b record s = changeBank s.orders.next (some p) b (recordTaken record s) := rfl

/-- BANK TIMED with its fields in range asks for the clock next (R31). -/
theorem bankTimedBlock_of_fields (p : Port) (b : Fin 4) {days minute : Nat} (hlo : 1 ≤ days) (hhi : days ≤ 99)
    (hminute : minute < 1440) (s : State) :
    bankTimedBlock p b.val days minute s =
      if s.clock.valid then
        (bankTaken p b (some ⟨b, s.program.active, days, minute⟩) s,
          .ok [activeField (bankTaken p b (some ⟨b, s.program.active, days, minute⟩) s)])
      else (s, refuse .clock) := by
  have hdays : within 1 99 days = true := (within_iff _ _ _).2 (by omega)
  simp only [bankTimedBlock, index_val, startOf_natCast hminute, hdays, Int.toNat_natCast]
  cases s.clock.valid <;> rfl

/-- What a command of port p that takes bank b and a timed-program record leaves, from s to t (R29 to R33). -/
structure BankTaken (p : Port) (b : Fin 4) (record : Option Timed) (s t : State) : Prop where
  keeps : Keeps (responseParts ++ [.program, .overrides, .valves, .firing, .links, .notices, .orders]) s t
  active : t.program.active = b
  timed : t.program.timed = record
  banks : t.program.banks = s.program.banks
  answered : t.answered = some (p, .ok [.word b.val])
  moved : b ≠ s.program.active → BankMoved p b s t
  stayed : b = s.program.active → t.notices = s.notices ∧ t.overrides = s.overrides ∧ t.links = s.links ∧
    t.program.remembered = s.program.remembered

section
variable {p : Port} {s : State} (hp : s.powered = true)
include hp

/-- A command that takes a bank and a record: what it leaves, by whether the bank is active already. -/
theorem command_of_bankTaken (c : Instr) {b : Fin 4} {record : Option Timed} {block : State → State × Response}
    (hb : block (nothingRaised s) = (bankTaken p b record (nothingRaised s),
      .ok [activeField (bankTaken p b record (nothingRaised s))])) :
    ∃ t, command c p block s = .next t ∧ BankTaken p b record s t := by
  have hkeeps : Keeps [.program, .overrides, .valves, .firing, .links, .notices, .orders] (nothingRaised s)
      (bankTaken p b record (nothingRaised s)) := by
    rw [bankTaken_eq]
    exact Keeps.of_raised (((recordTaken_keeps record _).mono (by simp)).trans
      ((changeBank_keeps _ p).mono (by simp))) (changeBank_raised _ p rfl)
  have hprogram : (bankTaken p b record (nothingRaised s)).program = _ := changeBank_program _ p
  obtain ⟨t, hrow, hkept, hanswer, hu⟩ := command_of_keeps c p hp hb hkeeps (by decide)
  have hprogramT : t.program = (bankTaken p b record (nothingRaised s)).program := hu .program (by decide)
  have hnoticesT : t.notices = (bankTaken p b record (nothingRaised s)).notices := hu .notices (by decide)
  have hoverridesT : t.overrides = (bankTaken p b record (nothingRaised s)).overrides := hu .overrides (by decide)
  have hlinksT : t.links = (bankTaken p b record (nothingRaised s)).links := hu .links (by decide)
  refine ⟨t, hrow, hkept, ?_, ?_, ?_, ?_, fun hmoves => ?_, fun hstays => ?_⟩
  · rw [hprogramT, hprogram]
  · rw [hprogramT, hprogram]
    rfl
  · rw [hprogramT, hprogram]
    rfl
  · rw [hanswer, activeField, hprogram]
    rfl
  · have h : BankMoved p b (recordTaken record (nothingRaised s)) (bankTaken p b record (nothingRaised s)) :=
      changeBank_moved s.orders.next p hmoves rfl
    refine ⟨hnoticesT ▸ h.told, h.bankChange.congr rfl rfl hlinksT, h.switchCross.congr rfl rfl hlinksT, ?_,
      h.resolved.of_keeps hu (by decide), ?_, ?_⟩
    · rw [hoverridesT]
      exact h.slots
    · rw [hnoticesT]
      exact h.ended
    · rw [hprogramT]
      exact h.entries
  · have hstill : bankTaken p b record (nothingRaised s) = recordTaken record (nothingRaised s) := if_pos hstays
    rw [hnoticesT, hoverridesT, hlinksT, hprogramT, hstill]
    exact ⟨rfl, rfl, rfl, rfl⟩

theorem bankSelect_range {v d m : Int} {i : Instr} (hi : i = .bankSelect p v ∧ (v < 0 ∨ 3 < v) ∨
    i = .bankTimed p v d m ∧ (v < 0 ∨ 3 < v ∨ d < 1 ∨ 99 < d ∨ m < 0 ∨ 1439 < m)) :
    ∃ t, exec i s = .next t ∧ Keeps responseParts s t ∧ t.answered = some (p, .er .range) := by
  rcases hi with ⟨rfl, hrange⟩ | ⟨rfl, hrange⟩
  · refine refused_powered (.bankSelect p v) p _ .range s hp ?_
    have hnone : index 4 v = none := (index_eq_none_iff 4 v).2 (by omega)
    simp only [bankSelectBlock, hnone]
  · refine refused_powered (.bankTimed p v d m) p _ .range s hp ?_
    unfold bankTimedBlock
    split
    · next b minute hb hm =>
      have hbank := (index_eq_some_iff _ _ _).1 hb
      have hdays : within 1 99 d = false := by
        rw [Bool.eq_false_iff, ne_eq, within_iff]
        intro hin
        rw [startOf_eq_none (by omega)] at hm
        cases hm
      rw [hdays]
      rfl
    · rfl

end

/-- Settles O23: the three commands take a bank and a record, `command_of_bankTaken` says what that leaves, and
`changeBank_moved` what a move of the active bank brings about. -/
theorem bankCommandsChangeActiveBank : Obligations.BankCommandsChangeActiveBank := by
  intro p b days minute s hp
  refine ⟨fun i record hi => ?_, fun hlo hhi hminute hinvalid => ?_, fun hnone => ?_,
    fun v d m i hi => bankSelect_range hp hi⟩
  · obtain ⟨t, hrow, h⟩ : ∃ t, exec i s = .next t ∧ BankTaken p b record s t := by
      rcases hi with ⟨rfl, rfl⟩ | ⟨rfl, hlo, hhi, hminute, hvalid, rfl⟩ | ⟨rfl, ⟨r, hr, rfl⟩, rfl⟩
      · refine command_of_bankTaken hp (.bankSelect p b.val) (b := b) (record := none) ?_
        simp only [bankSelectBlock, index_val]
        rfl
      · refine command_of_bankTaken hp (.bankTimed p b.val days minute) (b := b) ?_
        exact (bankTimedBlock_of_fields p b hlo hhi hminute _).trans (if_pos hvalid)
      · refine command_of_bankTaken hp (.bankCancel p) (b := r.returnBank) (record := none) ?_
        have hrecord : (nothingRaised s).program.timed = some r := hr
        simp only [bankCancelBlock, hrecord]
        rfl
    refine ⟨t, hrow, h.keeps, h.active, h.timed, h.banks, h.answered, fun hb => ?_, h.stayed⟩
    have hm := h.moved hb
    exact ⟨hm.told, hm.bankChange, hm.switchCross, hm.slots, hm.resolved, hm.ended, hm.entries⟩
  · refine refused_powered (.bankTimed p b.val days minute) p _ .clock s hp ?_
    rw [bankTimedBlock_of_fields p b hlo hhi hminute, if_neg (by simp [hinvalid])]
  · have hblock : bankCancelBlock p (nothingRaised s) = (nothingRaised s, .ok [.word s.program.active.val]) := by
      have hrecord : (nothingRaised s).program.timed = none := hnone
      simp only [bankCancelBlock, hrecord]
      rfl
    obtain ⟨t, hrow, hkeeps, hanswer, -⟩ := command_of_keeps (.bankCancel p) p hp hblock (Keeps.refl [] _) (by decide)
    exact ⟨t, hrow, hkeeps.mono (by decide), hanswer⟩

end Sys2Proof.Machine

namespace Sys2Proof.Machine

/-! ## What the running blocks leave as it is -/

/-- What the capture unit, the regulator, the valve driver, the firing controller, the matrix, the notices and the ports
leave as it is: power, the week clock, the program store, the override table, the levels of the inputs, the settings,
the stored objects and the queue. -/
def State.ground (s : State) : Bool × Clock × Program × Overrides × Inputs × Settings × Store × List Instr :=
  (s.powered, s.clock, s.program, s.overrides, s.inputs, s.settings, s.store, s.pending)

/-- The parts that are no part of the ground. -/
def runningParts : List Part :=
  [.capture, .regulator, .valves, .firing, .links, .notices, .text, .wire, .handed, .answered, .orders, .raised]

theorem keeps_iff_ground (s t : State) : Keeps runningParts s t ↔ t.ground = s.ground := by
  rw [keeps_iff]
  simp [runningParts, State.ground]

theorem Keeps.ground {l : List Part} {s t : State} (h : Keeps l s t) (hl : ∀ part ∈ l, part ∈ runningParts) :
    t.ground = s.ground := (keeps_iff_ground s t).1 (h.mono hl)

theorem ReachesPosting.ground {s t : State} (h : ReachesPosting s t) : t.ground = s.ground := h.1.ground (by decide)

theorem Reaches.ground {s t : State} (h : Reaches s t) : t.ground = s.ground := h.posting.ground

theorem foldl_ground {α : Type} {f : State → α → State} (h : ∀ s a, (f s a).ground = s.ground) (l : List α)
    (s : State) : (l.foldl f s).ground = s.ground := by
  induction l generalizing s with
  | nil => rfl
  | cons a l ih => exact (ih _).trans (h s a)

/-- A block that acts in one case alone leaves the ground where its action does. -/
theorem ite_ground {c : Prop} [Decidable c] {s t : State} (h : t.ground = s.ground) :
    (if c then t else s).ground = s.ground := by
  split
  · exact h
  · rfl

section
variable (s : State)

@[simp] theorem takeInTurns_ground (turns : List Nat) : (takeInTurns turns s).ground = s.ground :=
  (takeInTurns_keeps turns s).ground (by decide)

@[simp] theorem takeRaised_ground : (takeRaised s).ground = s.ground := takeInTurns_ground s []

@[simp] theorem raiseEach_ground (k : SourceKind) (indices : List (Fin 16)) :
    (raiseEach k indices s).ground = s.ground := 
  foldl_ground (fun s i => (raiseFor_reaches k i s).ground) indices s

/-! ### The capture unit, the regulator and the valve driver -/

theorem tempReportBlock_ground (zone value : Int) : (tempReportBlock zone value s).1.ground = s.ground := by
  unfold tempReportBlock
  split
  · rfl
  · split <;> rfl

theorem reportLost_ground (first : List (Fin 16)) (zones : ZoneSet) : (reportLost first zones s).ground = s.ground := by
  unfold reportLost
  split
  · rfl
  · exact raiseEach_ground _ _ _

theorem expireWindow_ground (order : Order) : (expireWindow order s).ground = s.ground :=
  (takePublication_reaches _).ground.trans ((takeRaised_ground _).trans (reportLost_ground _ _ _))

@[simp] theorem handReport_ground : (handReport s).ground = s.ground := by
  unfold handReport
  split
  · rfl
  · exact (takeReport_reaches _ _).ground

theorem handDemand_ground (order : PassOrder) (d : Demand) : (handDemand order d s).ground = s.ground := by
  have htaken : ∀ stood s, (takeDemand stood d s).ground = s.ground := fun stood s =>
    (takeDemand_reaches stood d s).ground
  have happlied : ∀ s, (applyDemand d s).ground = s.ground := fun _ => rfl
  cases order <;> simp [handDemand, htaken, happlied]

theorem frostEvent_ground (before after : Tab 16 ZoneRecord) (z : Fin 16) :
    (frostEvent before after s z).ground = s.ground := by
  unfold frostEvent
  split <;> rfl

theorem callEvent_ground (before after : Tab 16 ZoneRecord) (z : Fin 16) :
    (callEvent before after s z).ground = s.ground := by
  unfold callEvent
  split <;> rfl

/-- A pass hands on its demand update; its own events and records are no part of the ground. -/
theorem passBlock_ground (order : Order) : (passBlock order s).ground = s.ground := by
  have hcalls : ∀ before after s, (bringUpCalling before after s).ground = s.ground := fun before after =>
    foldl_ground (fun s z => callEvent_ground s before after z) _
  have hfrost := fun before after => foldl_ground (fun s z => frostEvent_ground s before after z) (List.finRange 16)
  exact (takeInTurns_ground _ _).trans ((hcalls _ _ _).trans ((handDemand_ground _ _ _).trans
    ((takeRaised_ground _).trans (hfrost _ _ _))))

theorem faultsThenReport_ground (order : Order) (faulted : ChannelSet) :
    (faultsThenReport order faulted s).ground = s.ground := by
  have hreported : (reportFaults order.indices faulted s).ground = s.ground := by
    unfold reportFaults
    split
    · rfl
    · exact raiseEach_ground _ _ _
  exact (takeInTurns_ground _ _).trans ((handReport_ground _).trans hreported)

theorem faultChannel_ground (ch : Fin 16) : (faultChannel ch s).ground = s.ground := faultsThenReport_ground _ _ _

theorem endSwitchBlock_ground (ch : Fin 16) (closed : Bool) : (endSwitchBlock ch closed s).ground = s.ground := by
  unfold endSwitchBlock
  split
  · rfl
  · split
    · exact handReport_ground _
    · exact faultChannel_ground s ch
    all_goals rfl

theorem valveClearBlock_ground (channel : Int) : (valveClearBlock channel s).1.ground = s.ground := by
  unfold valveClearBlock
  split
  · rfl
  · split
    · exact handReport_ground _
    · rfl

/-! ### The firing controller -/

theorem inhibitBlock_ground (p : Port) (value : Int) : (inhibitBlock p value s).1.ground = s.ground := by
  unfold inhibitBlock
  split
  · exact (settle_reaches _).ground
  · rfl

theorem endLockout_ground (p : Port) : (endLockout p s).ground = s.ground := by
  have hcleared : Reaches s (raise .lockoutOff (modFiring (fun f => { f with lockout := none })
      (releaseAnyHold (setPump false s)))) :=
    ((setPump_reaches false s).andThen releaseAnyHold_reaches).trans
      ((modFiring_reaches _ _).trans (raise_reaches _ _))
  unfold endLockout
  exact (((hcleared.trans (modFiring_reaches _ _)).posting.trans (post_reaches _ _ _)).trans
    (select_reaches _).posting).ground

theorem lockoutClearBlock_ground (p : Port) : (lockoutClearBlock p s).1.ground = s.ground := by
  unfold lockoutClearBlock
  split
  · split
    · split
      · exact endLockout_ground s p
      · rfl
    · exact endLockout_ground s p
  · rfl

theorem dhwBoostBlock_ground (minutes : Int) : (dhwBoostBlock minutes s).1.ground = s.ground := by
  unfold dhwBoostBlock
  split_ifs
  · rfl
  · exact (setTimedCall_reaches _ _).ground
  · rfl

theorem flameBlock_ground (asserted : Bool) : (flameBlock asserted s).ground = s.ground := by
  unfold flameBlock
  split <;> rfl

theorem requestBlock_ground (asserted : Bool) : (requestBlock asserted s).ground = s.ground := by
  unfold requestBlock
  split
  · exact (setTimedCall_reaches _ _).ground
  · exact (deriveCall_reaches _).ground

/-- An edge that is new has its block's effect, and another none. -/
theorem onEdge_ground {block : State → State} (h : ∀ s, (block s).ground = s.ground) (old new : Bool) :
    (onEdge old new block s).ground = s.ground := by
  unfold onEdge
  split
  · rfl
  · exact h s

/-! ### The matrix and the ports -/

theorem writeLines_ground (f : LineSet → LineSet → LineSet) (lines : Int) :
    (writeLines f lines s).1.ground = s.ground := by
  unfold writeLines
  split <;> rfl

theorem noticeMaskBlock_ground (p : Port) (mask : Int) : (noticeMaskBlock p mask s).1.ground = s.ground := by
  unfold noticeMaskBlock
  split <;> rfl

theorem enqueue_ground (j : Judgement) : (enqueue j s).ground = s.ground := by
  unfold enqueue
  split
  · cases j <;> rfl
  · rfl

theorem completeLine_ground : (completeLine s).ground = s.ground := by
  have hline : (if s.text.blank then s else enqueue s.text.judge s).ground = s.ground := by
    split
    · rfl
    · exact enqueue_ground s _
  exact hline

theorem textCharacterBlock_ground (c : Byte) (framingError : Bool) :
    (textCharacterBlock c framingError s).ground = s.ground := by
  unfold textCharacterBlock
  split_ifs
  · rfl
  · rfl
  · exact completeLine_ground s
  · rfl
  · rfl

theorem textSendBlock_ground : (textSendBlock s).ground = s.ground := by
  unfold textSendBlock
  split <;> rfl

theorem textSentBlock_ground : (textSentBlock s).ground = s.ground := by
  unfold textSentBlock
  split <;> rfl

theorem judgeFrame_ground : (judgeFrame s).ground = s.ground := by
  unfold judgeFrame
  split
  · rfl
  · split_ifs
    · rfl
    · split <;> rfl
    · rfl

theorem takeByte_ground (role : Role) (b : Byte) : (takeByte role b s).ground = s.ground := by
  unfold takeByte takeAddress
  split
  · split_ifs <;> rfl
  all_goals rfl

theorem bitTaken_ground (b : Bus) : (bitTaken b s).ground = s.ground := by
  unfold bitTaken takeBit
  split
  · rfl
  · split_ifs
    · rfl
    · rfl
    · exact takeByte_ground _ _ _
    · rfl

theorem startSign_ground : (startSign s).ground = s.ground := by
  unfold startSign
  split
  · rfl
  · split <;> rfl

theorem stopSign_ground : (stopSign s).ground = s.ground := by
  unfold stopSign closeTransfer
  split
  · rfl
  · split
    · split
      · exact judgeFrame_ground s
      all_goals rfl
    · rfl

theorem takeLevels_ground (l : Levels) : (takeLevels l s).ground = s.ground := by
  unfold takeLevels
  dsimp only
  split_ifs
  · rfl
  · exact stopSign_ground _
  · exact startSign_ground _
  · exact bitTaken_ground _ _
  · rfl

/-! ### The driver and the controller at SOFT RESET (R115, R143) -/

theorem restartStates_reaches : Reaches s (restartStates s) := by
  unfold restartStates
  split
  · exact (leaveFiring_reaches s).andThen startOverrun_reaches
  · split
    · exact fixHold_reaches s
    · exact .refl s
  all_goals exact ((modFiring_reaches _ s).andThen (setPump_reaches _)).andThen releaseAnyHold_reaches

theorem clearCall_reaches : Reaches s (clearCall s) := by
  unfold clearCall
  dsimp only
  split
  · exact (modFiring_reaches _ s).andThen endCall_reaches
  · exact (modFiring_reaches _ s).andThen setDiverter_reaches

theorem retakeCall_reaches : Reaches s (retakeCall s) := by
  unfold retakeCall
  split
  · exact startCall_reaches s
  · exact .refl s

theorem restartController_reaches : Reaches s (restartController s) :=
  ((((modFiring_reaches _ s).trans (modFiring_reaches _ _)).andThen restartStates_reaches).andThen
    clearCall_reaches).andThen retakeCall_reaches

theorem settleReport_keeps : Keeps passageParts s (settleReport s) := by
  have hreport : Keeps passageParts s
      (modFiring (fun f => { f with report := computeReport s }) (setReport (computeReport s) s)) := by
    intro part hp
    cases part <;> first | rfl | (simp [passageParts] at hp)
  unfold settleReport
  dsimp only
  split
  · exact hreport.trans (endOverrun_reaches _).1
  · exact hreport

theorem restartDriver_keeps : Keeps passageParts s (restartDriver s) := by
  intro part hp
  cases part <;> first | rfl | (simp [passageParts] at hp)

/-- The driver and the controller restart between themselves, and the events they raise wait for the matrix. -/
theorem restartControl_keeps (driverFirst : Bool) : Keeps passageParts s (restartControl driverFirst s) := by
  refine Keeps.trans (Keeps.trans ?_ (settleReport_keeps _)) (settle_reaches _).1
  cases driverFirst
  · exact (restartController_reaches s).1.trans (restartDriver_keeps _)
  · exact (restartDriver_keeps s).trans (restartController_reaches _).1

theorem restartControl_ground (driverFirst : Bool) : (restartControl driverFirst s).ground = s.ground :=
  (restartControl_keeps s driverFirst).ground (by decide)

/-- The matrix takes the events of the reset, and nothing is left to take (R154). -/
theorem takeAroundReset_keeps (early : Nat) : Keeps [.links, .raised] s (takeAroundReset early s) := by
  have hmatrix : ∀ u, Keeps [.links, .raised] u (restartMatrix u) := by
    intro u part hp
    cases part <;> first | rfl | (simp at hp)
  have hraised : ∀ u, Keeps [.links, .raised] u (setRaised [] u) := by
    intro u part hp
    cases part <;> first | rfl | (simp at hp)
  have htaken : ∀ events u, Keeps [.links, .raised] u (takeEvents events u) := fun events u =>
    (takeEvents_keeps events u).mono (by simp)
  exact (((htaken _ s).trans (hmatrix _)).trans (htaken _ _)).trans (hraised _)

theorem takeAroundReset_ground (early : Nat) : (takeAroundReset early s).ground = s.ground :=
  (takeAroundReset_keeps s early).ground (by decide)

end

end Sys2Proof.Machine

namespace Sys2Proof.Machine

/-! ## The distance to an end, one minute on and across a jump (R45, R52, R53) -/

/-- The distance to an end is the one number of minutes, from one to a week, that leads from the current minute to the
end (R45). -/
theorem distanceToEnd_unique {now finish : WeekTime} (hnow : now.ordinal < 10080) (hfinish : finish.ordinal < 10080)
    {r : Nat} (hlo : 1 ≤ r) (hhi : r ≤ 10080) (hr : (now.ordinal + r) % 10080 = finish.ordinal) :
    r = distanceToEnd now finish := by
  obtain ⟨hlo', hhi', hd⟩ := distanceToEnd_spec hnow hfinish
  omega

/-- The clock's current day and minute, whether or not it is VALID. -/
def Clock.time (c : Clock) : WeekTime := ⟨c.day, c.minute⟩

theorem ClockInRange.ordinal_lt {c : Clock} (h : ClockInRange c) : c.time.ordinal < 10080 :=
  Machine.ordinal_lt h.1 h.2.1

theorem ClockInRange.tick {c : Clock} (h : ClockInRange c) : ClockInRange c.tick := by
  obtain ⟨hday, hminute, hsecond⟩ := h
  simp only [ClockInRange, Clock.tick, Clock.dayEnds, Clock.minuteEnds, Bool.and_eq_true, decide_eq_true_eq]
  refine ⟨?_, ?_, ?_⟩ <;> split_ifs <;> omega

/-- A minute boundary takes the clock one minute on around the ring of the week (R5). -/
theorem tick_ordinal {c : Clock} (h : ClockInRange c) (hsecond : c.second = 59) :
    c.tick.time.ordinal = (c.time.ordinal + 1) % 10080 := by
  obtain ⟨hday, hminute, -⟩ := h
  rw [tick_of_minute hsecond]
  simp only [Clock.time, WeekTime.ordinal, Config.minutesPerDay]
  split_ifs <;> omega

/-- Where a jump leaves a slot within its window, the minutes remaining are the distance from the new time (R53). -/
theorem remainingAfter_eq_distance {previous now finish : WeekTime} (hprevious : previous.ordinal < 10080)
    (hnow : now.ordinal < 10080) (hfinish : finish.ordinal < 10080)
    (hlo : 1 ≤ remainingAfter previous now (distanceToEnd previous finish))
    (hhi : remainingAfter previous now (distanceToEnd previous finish) ≤ 10080) :
    (remainingAfter previous now (distanceToEnd previous finish)).toNat = distanceToEnd now finish := by
  obtain ⟨-, -, hd⟩ := distanceToEnd_spec hprevious hfinish
  have hahead : minutesAhead previous now = (now.ordinal + 10080 - previous.ordinal) % 10080 := rfl
  generalize distanceToEnd previous finish = d at hd hlo hhi ⊢
  unfold remainingAfter at hlo hhi ⊢
  refine distanceToEnd_unique hnow hfinish ?_ ?_ ?_ <;> split_ifs at hlo hhi ⊢ <;> omega

/-! ## Slots measured from the current time (R39, R45) -/

theorem slotMeasured_of_not_until {o : Slot} (h : o.kind = .next ∨ o.kind = .hold) (c : Clock) : SlotMeasured c o := by
  rcases h with h | h <;> simp [SlotMeasured, h]

theorem slotMeasured_until_iff {o : Slot} {finish : WeekTime} {r : Nat} (h : o.kind = .untilTime finish r) (c : Clock) :
    SlotMeasured c o ↔ c.valid = true ∧ finish.day < 7 ∧ finish.minute < 1440 ∧ r = distanceToEnd c.time finish := by
  simp only [SlotMeasured, h]
  rfl

/-- The measure of a slot looks at the clock's time and at whether it is VALID. -/
theorem SlotMeasured.congr {c c' : Clock} {o : Slot} (h : SlotMeasured c o) (hvalid : c'.valid = c.valid)
    (htime : c'.time = c.time) : SlotMeasured c' o := by
  cases hkind : o.kind with
  | next => exact slotMeasured_of_not_until (.inl hkind) _
  | hold => exact slotMeasured_of_not_until (.inr hkind) _
  | untilTime finish r =>
    rw [slotMeasured_until_iff hkind] at h ⊢
    rwa [hvalid, htime]

/-- A slot that a minute event keeps is measured from the next minute (R52). -/
theorem SlotMeasured.minute {c : Clock} {o o' : Slot} {moved : Bool} {crossed : Fin 16 → Bool} (hc : ClockInRange c)
    (hsecond : c.second = 59) (h : SlotMeasured c o) (hkept : keptAtMinute moved crossed o = some o') :
    SlotMeasured c.tick o' := by
  cases hkind : o.kind with
  | hold =>
    obtain rfl : o = o' := by simpa [keptAtMinute_hold moved crossed hkind] using hkept
    exact slotMeasured_of_not_until (.inr hkind) _
  | next =>
    rw [keptAtMinute_next moved crossed hkind] at hkept
    split at hkept <;> cases hkept
    exact slotMeasured_of_not_until (.inl hkind) _
  | untilTime finish r =>
    rw [slotMeasured_until_iff hkind] at h
    obtain ⟨hvalid, hday, hminute, hr⟩ := h
    rw [keptAtMinute_until moved crossed hkind] at hkept
    split at hkept <;> cases hkept
    next hlast =>
    obtain ⟨-, hhi, hd⟩ := distanceToEnd_spec hc.ordinal_lt (ordinal_lt hday hminute)
    rw [← hr] at hhi hd
    have htick := tick_ordinal hc hsecond
    refine (slotMeasured_until_iff rfl _).2 ⟨hvalid, hday, hminute, ?_⟩
    exact distanceToEnd_unique hc.tick.ordinal_lt (ordinal_lt hday hminute) (by omega) (by omega) (by omega)

/-- A slot that an accepted CLOCK SET keeps is measured from the time set (R53). -/
theorem SlotMeasured.set {c : Clock} {o o' : Slot} {crossed : Fin 16 → Bool} (hc : ClockInRange c) (p : Port)
    (d : Fin 7) (m : Fin 1440) (sec : Fin 60) (h : SlotMeasured c o)
    (hkept : keptAtSet c.now ⟨d.val, m.val⟩ crossed o = some o') :
    SlotMeasured (Clock.setTo p d.val m.val sec.val) o' := by
  cases hkind : o.kind with
  | hold =>
    obtain rfl : o = o' := by simpa [keptAtSet_hold _ crossed _ hkind] using hkept
    exact slotMeasured_of_not_until (.inr hkind) _
  | next =>
    rw [keptAtSet_next _ crossed _ hkind] at hkept
    split at hkept <;> cases hkept
    exact slotMeasured_of_not_until (.inl hkind) _
  | untilTime finish r =>
    rw [slotMeasured_until_iff hkind] at h
    obtain ⟨hvalid, hday, hminute, rfl⟩ := h
    rw [keptAtSet_until _ crossed c hkind, if_pos hvalid] at hkept
    split at hkept <;> cases hkept
    next hwindow =>
    refine (slotMeasured_until_iff rfl _).2 ⟨rfl, hday, hminute, ?_⟩
    exact remainingAfter_eq_distance hc.ordinal_lt (ordinal_lt d.isLt m.isLt) (ordinal_lt hday hminute) hwindow.1
      hwindow.2

/-! ## The override table kept -/

/-- A pass over the slots keeps the table where it keeps the zone and the measure of each slot. -/
theorem TableKept.of_slots {kept : Slot → Option Slot} {s t : State} (h : TableKept s)
    (hpass : t.overrides.slots = s.overrides.slots.filterMap kept)
    (hzone : ∀ o o', kept o = some o' → o'.zone = o.zone) (hclock : ClockInRange t.clock)
    (hmeasured : ∀ o o', SlotMeasured s.clock o → kept o = some o' → SlotMeasured t.clock o') : TableKept t := by
  obtain ⟨-, hlength, hzones, hslots⟩ := h
  have hnames : ∀ slots : List Slot, ((slots.filterMap kept).map Slot.zone).Sublist (slots.map Slot.zone) := by
    intro slots
    induction slots with
    | nil => exact List.Sublist.refl _
    | cons o slots ih =>
      rw [List.filterMap_cons, List.map_cons]
      split
      · exact ih.cons _
      · next o' ho =>
        rw [List.map_cons, hzone o o' ho]
        exact ih.cons_cons _
  unfold TableKept
  rw [hpass]
  refine ⟨hclock, (List.length_filterMap_le _ _).trans hlength, hzones.sublist (hnames _), fun o' ho' => ?_⟩
  obtain ⟨o, ho, hkept⟩ := List.mem_filterMap.1 ho'
  exact hmeasured o o' (hslots o ho) hkept

/-- Where slots leave the table and the clock stands, the table is kept. -/
theorem TableKept.of_sublist {s t : State} (h : TableKept s) (hclock : t.clock = s.clock)
    (hslots : t.overrides.slots.Sublist s.overrides.slots) : TableKept t := by
  obtain ⟨hrange, hlength, hzones, hmeasured⟩ := h
  exact ⟨hclock ▸ hrange, hslots.length_le.trans hlength, hzones.sublist (hslots.map _),
    fun o ho => hclock ▸ hmeasured o (hslots.subset ho)⟩

/-- Resolved setpoints stay resolved where the table stands and with it whether the clock is VALID, the remembered
entries, and of each zone the settings that its effective setpoint looks at (R54). -/
theorem SetpointsResolved.congr {s t : State} (h : SetpointsResolved s) (hoverrides : t.overrides = s.overrides)
    (hvalid : t.clock.valid = s.clock.valid) (hremembered : t.program.remembered = s.program.remembered)
    (hzones : ∀ z, (t.settings.zones.get z).enabled = (s.settings.zones.get z).enabled ∧
      (t.settings.zones.get z).base = (s.settings.zones.get z).base ∧
      (t.settings.zones.get z).frost = (s.settings.zones.get z).frost) : SetpointsResolved t := by
  intro z
  obtain ⟨henabled, hbase, hfrost⟩ := hzones z
  have := h z
  simpa only [effectiveSetpoint, basis, slotOf, scheduledTarget, hoverrides, hvalid, hremembered, henabled, hbase,
    hfrost] using this

/-- From s to t the override table is kept and the effective setpoints stay resolved. -/
def TableStep (s t : State) : Prop := (TableKept s → TableKept t) ∧ (SetpointsResolved s → SetpointsResolved t)

theorem TableStep.refl (s : State) : TableStep s s := ⟨id, id⟩

theorem TableStep.trans {s t u : State} (h : TableStep s t) (k : TableStep t u) : TableStep s u :=
  ⟨k.1 ∘ h.1, k.2 ∘ h.2⟩

/-- Slots leave, and the setpoints are resolved again (R55). -/
theorem TableStep.of_sublist {s t : State} (hclock : t.clock = s.clock)
    (hslots : t.overrides.slots.Sublist s.overrides.slots) (hresolved : SetpointsResolved s → SetpointsResolved t) :
    TableStep s t := ⟨fun h => h.of_sublist hclock hslots, hresolved⟩

/-- What the table is measured and resolved from stands with the table. -/
theorem TableStep.of_eq {s t : State} (hclock : t.clock = s.clock) (hoverrides : t.overrides = s.overrides)
    (hremembered : t.program.remembered = s.program.remembered) (hsettings : t.settings = s.settings) :
    TableStep s t :=
  .of_sublist hclock (by rw [hoverrides]) fun h =>
    h.congr hoverrides (by rw [hclock]) hremembered fun z => by rw [hsettings]; exact ⟨rfl, rfl, rfl⟩

theorem TableStep.of_keeps {l : List Part} {s t : State} (h : Keeps l s t)
    (hl : ∀ part ∈ [Part.overrides, .clock, .program, .settings], part ∉ l) : TableStep s t :=
  .of_eq (h .clock (hl _ (by decide))) (h .overrides (hl _ (by decide)))
    (congrArg Program.remembered (h .program (hl _ (by decide)))) (h .settings (hl _ (by decide)))

theorem TableStep.of_ground {s t : State} (h : t.ground = s.ground) : TableStep s t :=
  .of_keeps ((keeps_iff_ground s t).2 h) (by decide)

/-- A command keeps what its block keeps; the matrix and the delivery of the response touch nothing of the table. -/
theorem command_tableStep {c : Instr} {p : Port} {block : State → State × Response} {s t : State}
    (hb : TableStep (nothingRaised s) (block (nothingRaised s)).1) (h : command c p block s = .next t) :
    TableStep s t := by
  rcases (command_eq_next_iff c p block s t).1 h with ⟨-, rfl⟩ | ⟨-, rfl⟩
  · exact ((TableStep.of_eq rfl rfl rfl rfl).trans hb).trans
      ((TableStep.of_keeps (eventsTaken_of_block s _) (by decide)).trans
        (.of_keeps (deliver_keeps _ _ _ _) (by decide)))
  · exact .refl _

theorem withMatrix_tableStep {block : State → State} {s : State}
    (hb : TableStep (nothingRaised s) (block (nothingRaised s))) :
    TableStep s (withMatrix block s) :=
  ((TableStep.of_eq rfl rfl rfl rfl).trans hb).trans (.of_keeps (eventsTaken_of_block s _) (by decide))

theorem event_tableStep {block : State → State} {s t : State}
    (hb : TableStep (nothingRaised s) (block (nothingRaised s))) (h : event block s = .next t) : TableStep s t := by
  rcases (event_eq_next_iff block s t).1 h with ⟨-, rfl⟩ | ⟨-, rfl⟩
  · exact withMatrix_tableStep hb
  · exact .refl _

theorem command_tableStep_of_ground {c : Instr} {p : Port} {block : State → State × Response} {s t : State}
    (h : command c p block s = .next t) (hb : ∀ s, (block s).1.ground = s.ground) : TableStep s t :=
  command_tableStep (.of_ground (hb _)) h

theorem event_tableStep_of_ground {block : State → State} {s t : State} (h : event block s = .next t)
    (hb : ∀ s, (block s).ground = s.ground) : TableStep s t :=
  event_tableStep (.of_ground (hb _)) h

/-- An input line's level is nothing that the table looks at. -/
theorem lineEvent_tableStep {level block : State → State} {s t : State} (h : lineEvent level block s = .next t)
    (hl : TableStep s (level s)) (hb : ∀ s, (block s).ground = s.ground) : TableStep s t := by
  rcases (lineEvent_eq_next_iff level block s t).1 h with ⟨-, rfl⟩ | ⟨-, rfl⟩
  · exact hl.trans (withMatrix_tableStep (.of_ground (hb _)))
  · exact hl

theorem busEvent_tableStep {levels : List Levels} {s t : State} (h : busEvent levels s = .next t) : TableStep s t := by
  unfold busEvent at h
  split at h <;> cases h
  · exact withMatrix_tableStep (.of_ground (foldl_ground takeLevels_ground levels _))
  · exact .of_ground (foldl_ground (f := fun s l => modWire (setLevels l) s) (fun _ _ => rfl) levels s)

/-! ## The commands of the override table (R40, R42 to R48) -/

/-- A slot put on top of slots of other zones, with room for it, keeps the table where it is measured. -/
theorem SlotWritten.tableStep {w : Slot} {rest : List Slot} {s t : State} (h : SlotWritten w rest s t)
    (hrest : rest.Sublist s.overrides.slots) (hzones : ∀ o ∈ rest, o.zone ≠ w.zone)
    (hroom : s.overrides.slots.length ≤ 8 → rest.length < 8) (hw : SlotMeasured s.clock w) : TableStep s t := by
  refine ⟨fun hs => ?_, fun _ => h.resolved⟩
  have hclock : t.clock = s.clock := h.keeps .clock (by decide)
  obtain ⟨hrange, hlength, hnames, hmeasured⟩ := hs
  unfold TableKept
  rw [h.slots, hclock]
  refine ⟨hrange, hroom hlength, ?_, ?_⟩
  · rw [List.map_cons, List.nodup_cons]
    refine ⟨fun hmem => ?_, hnames.sublist (hrest.map _)⟩
    obtain ⟨o, ho, hzone⟩ := List.mem_map.1 hmem
    exact hzones o ho hzone
  · exact List.forall_mem_cons.2 ⟨hw, fun o ho => hmeasured o (hrest.subset ho)⟩

theorem withoutZone_zone_ne {slots : List Slot} {z : Fin 16} {o : Slot} (h : o ∈ withoutZone slots z) : o.zone ≠ z := by
  simpa using (List.mem_filter.1 h).2

theorem withoutZone_sublist (slots : List Slot) (z : Fin 16) : (withoutZone slots z).Sublist slots :=
  List.filter_sublist

/-- A zone's slot taken out leaves fewer slots. -/
theorem length_withoutZone_lt {slots : List Slot} {o : Slot} (h : o ∈ slots) :
    (withoutZone slots o.zone).length < slots.length :=
  List.length_filter_lt_length_iff_exists.2 ⟨o, h, by simp⟩

theorem slotOf_mem {s : State} {z : Fin 16} {o : Slot} (h : slotOf s z = some o) :
    o ∈ s.overrides.slots ∧ o.zone = z :=
  ⟨List.mem_of_find?_eq_some h, by simpa using List.find?_some h⟩

theorem victim_mem {slots : List Slot} {v : Slot} (h : victim slots = some v) : v ∈ slots :=
  List.mem_reverse.1 (List.mem_of_find?_eq_some h)

/-- The slots that eviction leaves (R44). -/
theorem evict_slots {s : State} {v : Slot} (h : victim s.overrides.slots = some v) :
    (evict s).overrides.slots = withoutZone s.overrides.slots v.zone := by
  simp only [evict, h]
  rfl

/-- Every write of a slot, accepted or refused FULL, keeps the table (R40, R42 to R47). -/
theorem writeSlot_tableStep (p : Port) (z : Fin 16) (sp : Option Int) {k : Kind} {s : State}
    (hk : SlotMeasured s.clock (writtenSlot p z sp k s)) : TableStep s (writeSlot p z sp k s).1 := by
  cases hslot : slotOf s z with
  | some o =>
    obtain ⟨ho, rfl⟩ := slotOf_mem hslot
    rw [writeSlot_of_slot p sp k hslot]
    exact ((putOnTop_slotWritten _ (Keeps.refl _ s)).postChangedBy p o).tableStep (withoutZone_sublist _ _)
      (fun _ => withoutZone_zone_ne) (fun hlength => (length_withoutZone_lt ho).trans_le hlength) hk
  | none =>
    by_cases hroom : s.overrides.slots.length < 8
    · rw [writeSlot_of_room p sp k hslot hroom]
      exact (putOnTop_slotWritten _ (Keeps.refl _ s)).tableStep (withoutZone_sublist _ _)
        (fun _ => withoutZone_zone_ne) (fun _ => (withoutZone_sublist _ _).length_le.trans_lt hroom) hk
    · cases hv : victim s.overrides.slots with
      | none =>
        have hfull : 8 ≤ s.overrides.slots.length := by omega
        have hrefused : writeSlot p z sp k s = (s, refuse .full) := by
          simp [writeSlot, hslot, tableFull, Config.slotCount, hfull, hv]
        rw [hrefused]
        exact .refl s
      | some v =>
        have hleft := evict_slots hv
        have hfewer := length_withoutZone_lt (victim_mem hv)
        rw [writeSlot_of_victim p sp k hslot (by omega) hv]
        refine (putOnTop_slotWritten _ (evict_keeps s)).tableStep ?_ (fun _ => withoutZone_zone_ne)
          (fun hlength => ?_) hk
        · exact (withoutZone_sublist _ _).trans (hleft ▸ withoutZone_sublist _ _)
        · have := (withoutZone_sublist (evict s).overrides.slots (writtenSlot p z sp k s).zone).length_le
          rw [hleft] at this
          rw [hleft]
          omega

theorem ovrSetBlock_tableStep (p : Port) (zone setpoint kind : Int) (endDay endMinute : Option Int) (s : State) :
    TableStep s (ovrSetBlock p zone setpoint kind endDay endMinute s).1 := by
  unfold ovrSetBlock
  split
  · exact .refl s
  · split_ifs
    · exact writeSlot_tableStep _ _ _ (slotMeasured_of_not_until (.inl rfl) _)
    · exact writeSlot_tableStep _ _ _ (slotMeasured_of_not_until (.inr rfl) _)
    · split
      · exact .refl s
      · exact .refl s
      · next finish now hend hnow =>
        refine writeSlot_tableStep _ _ _ ((slotMeasured_until_iff rfl _).2 ?_)
        have hvalid : s.clock.valid = true ∧ s.clock.time = now := by
          unfold Clock.now at hnow
          split at hnow <;> cases hnow
          exact ⟨by assumption, rfl⟩
        have hfinish : finish.day < 7 ∧ finish.minute < 1440 := by
          unfold endOf at hend
          split at hend
          · split at hend
            · cases hend
              exact ⟨Fin.isLt _, Fin.isLt _⟩
            · cases hend
          · cases hend
        exact ⟨hvalid.1, hfinish.1, hfinish.2, by rw [hvalid.2]⟩
    · exact .refl s

theorem ovrHoldBlock_tableStep (p : Port) (zone : Int) (setpoint : Option Int) (s : State) :
    TableStep s (ovrHoldBlock p zone setpoint s).1 := by
  unfold ovrHoldBlock
  split
  · exact .refl s
  · exact writeSlot_tableStep _ _ _ (slotMeasured_of_not_until (.inr rfl) _)

theorem ovrReleaseBlock_tableStep (p : Port) (zone : Int) (s : State) :
    TableStep s (ovrReleaseBlock p zone s).1 := by
  unfold ovrReleaseBlock
  split
  · exact .refl s
  · next z _ =>
    split
    · next o _ =>
      have hput : TableStep s (putSlots (withoutZone s.overrides.slots z) s) :=
        .of_sublist rfl (withoutZone_sublist _ _) fun _ => putSlots_resolved _ _
      exact hput.trans (.of_keeps (postChangedBy_keeps p o _) (by decide))
    · exact .refl s

/-! ## The program store's events and commands (R20 to R33, R50, R51) -/

theorem crossZones_resolved (zones : List (Fin 16)) {s : State} (h : SetpointsResolved s) :
    SetpointsResolved (zones.foldl crossZone s) := by
  induction zones generalizing s with
  | nil => exact h
  | cons z zones ih => exact ih (expire_resolved _ _)

/-- The setpoints are resolved from the entries that a crossing leaves (R18, R55). -/
theorem cross_resolved (order : Order) (crossed : Fin 17 → Bool) (next : Fin 17 → Option Entry) (s : State) :
    SetpointsResolved (cross order crossed next s) :=
  (crossZones_resolved _ (handOn_resolved _)).of_keeps (takeInTurns_keeps _ _) (by decide)

theorem bankPut_tableStep (p : Port) (b : Fin 4) (bank : Bank) (q : Fin 17 → Bool) (s : State) :
    TableStep s (bankPut p b bank q s) :=
  have hput := bankPut_spec (p := p) (b := b) (bank := bank) (q := q) s
  .of_sublist (bankPut_keeps s .clock (by decide)) (by rw [hput.slots]) hput.resolved

/-- A bank taken leaves the table as it is where it is active already, and ends the NEXT overrides where it is not
(R29, R51). -/
theorem bankTaken_tableStep (p : Port) (b : Fin 4) (record : Option Timed) {s : State} (hs : s.raised = []) :
    TableStep s (bankTaken p b record s) := by
  rw [bankTaken_eq]
  refine TableStep.trans (.of_eq rfl rfl rfl rfl : TableStep s (recordTaken record s)) ?_
  by_cases hb : b = (recordTaken record s).program.active
  · rw [changeBank, if_pos hb]
    exact .refl _
  · have hmoved := changeBank_moved s.orders.next p hb (s := recordTaken record s) hs
    refine .of_sublist (changeBank_keeps _ p .clock (by decide)) ?_ fun _ => hmoved.resolved
    rw [hmoved.slots]
    exact List.filter_sublist

theorem pointAddBlock_tableStep (p : Port) (bank list days start target : Int) (revision : Option Int) (s : State) :
    TableStep s (pointAddBlock p bank list days start target revision s).1 := by
  unfold pointAddBlock addPoint
  split
  · split
    · split_ifs
      · exact .refl s
      · exact .refl s
      · exact .refl s
      · exact bankPut_tableStep _ _ _ _ s
    · exact .refl s
  · exact .refl s

theorem pointDelBlock_tableStep (p : Port) (bank list days start : Int) (revision : Option Int) (s : State) :
    TableStep s (pointDelBlock p bank list days start revision s).1 := by
  unfold pointDelBlock removePoint
  split
  · split_ifs
    · exact .refl s
    · exact bankPut_tableStep _ _ _ _ s
    · exact .refl s
  · exact .refl s

theorem listClearBlock_tableStep (p : Port) (bank list : Int) (revision : Option Int) (s : State) :
    TableStep s (listClearBlock p bank list revision s).1 := by
  unfold listClearBlock
  split
  · split_ifs
    · exact .refl s
    · exact bankPut_tableStep _ _ _ _ s
  · exact .refl s

theorem bankCopyBlock_tableStep (p : Port) (source destination : Int) (revision : Option Int) (s : State) :
    TableStep s (bankCopyBlock p source destination revision s).1 := by
  unfold bankCopyBlock
  split
  · split_ifs
    · exact .refl s
    · exact .refl s
    · exact bankPut_tableStep _ _ _ _ s
  · exact .refl s

theorem bankLoadBlock_tableStep (p : Port) (bank : Int) (s : State) : TableStep s (bankLoadBlock p bank s).1 := by
  unfold bankLoadBlock
  split
  · exact .refl s
  · split_ifs
    · exact .refl s
    · exact bankPut_tableStep _ _ _ _ s
    · exact .refl s

theorem bankSelectBlock_tableStep (p : Port) (bank : Int) {s : State} (hs : s.raised = []) :
    TableStep s (bankSelectBlock p bank s).1 := by
  unfold bankSelectBlock
  split
  · exact bankTaken_tableStep _ _ none hs
  · exact .refl s

theorem bankTimedBlock_tableStep (p : Port) (bank days endMinute : Int) {s : State} (hs : s.raised = []) :
    TableStep s (bankTimedBlock p bank days endMinute s).1 := by
  unfold bankTimedBlock
  split
  · next b m _ _ =>
    split_ifs
    · exact .refl s
    · exact .refl s
    · exact bankTaken_tableStep p b (some ⟨b, s.program.active, days.toNat, m⟩) hs
  · exact .refl s

theorem bankCancelBlock_tableStep (p : Port) {s : State} (hs : s.raised = []) :
    TableStep s (bankCancelBlock p s).1 := by
  unfold bankCancelBlock
  split
  · exact bankTaken_tableStep _ _ none hs
  · exact .refl s

theorem bankSaveBlock_tableStep (p : Port) (bank : Int) (s : State) : TableStep s (bankSaveBlock p bank s).1 := by
  unfold bankSaveBlock
  split
  · exact .refl s
  · split
    · exact .refl s
    · exact .of_eq rfl rfl rfl rfl

theorem configSaveBlock_tableStep (p : Port) (s : State) : TableStep s (configSaveBlock p s).1 := by
  unfold configSaveBlock
  split
  · exact .refl s
  · exact .of_eq rfl rfl rfl rfl

/-- A completion reaches of the program store the dirty flags alone (R35). -/
theorem saveCompletionBlock_tableStep (good : Bool) (s : State) : TableStep s (saveCompletionBlock good s) := by
  unfold saveCompletionBlock
  split
  · exact .refl s
  · next o _ =>
    have hkeeps := completeSave_keeps o good s
    refine .of_eq (hkeeps .clock (by decide)) (hkeeps .overrides (by decide)) ?_ (hkeeps .settings (by decide))
    rw [completeSave_program]
    split
    · rfl
    · unfold markFailed
      split <;> rfl

/-! ## The week clock's events (R5, R6, R52, R53) -/

theorem jumpSlots_resolved (previous : Option WeekTime) (now : WeekTime) {s : State} (h : SetpointsResolved s) :
    SetpointsResolved (jumpSlots previous now s) := by
  cases previous with
  | none => exact h
  | some before => exact putSlots_resolved _ _

theorem clockSetDone_resolved (p : Port) (d : Fin 7) (m : Fin 1440) (sec : Fin 60) (s : State) :
    SetpointsResolved (clockSetDone p d m sec s) :=
  jumpSlots_resolved _ _ (cross_resolved _ _ _ _)

theorem Clock.setTo_inRange (p : Port) (d : Fin 7) (m : Fin 1440) (sec : Fin 60) :
    ClockInRange (Clock.setTo p d.val m.val sec.val) := ⟨d.isLt, m.isLt, sec.isLt⟩

theorem clockSetBlock_tableStep (p : Port) (day minute second : Int) (s : State) :
    TableStep (nothingRaised s) (clockSetBlock p day minute second (nothingRaised s)).1 := by
  by_cases hrange : day < 0 ∨ 6 < day ∨ minute < 0 ∨ 1439 < minute ∨ second < 0 ∨ 59 < second
  · rw [clockSetBlock_refused p _ hrange]
    exact .refl _
  · obtain ⟨d, rfl⟩ := exists_fin_of_within (n := 7) (v := day) (by omega) (by omega)
    obtain ⟨m, rfl⟩ := exists_fin_of_within (n := 1440) (v := minute) (by omega) (by omega)
    obtain ⟨sec, rfl⟩ := exists_fin_of_within (n := 60) (v := second) (by omega) (by omega)
    rw [clockSetBlock_accepted]
    have hclock := clockSetDone_clock p d m sec s
    have hpass := clockSetDone_slotsPass p d m sec s
    refine ⟨fun hs => hs.of_slots hpass.slots (fun o o' ho => (hpass.same o o' ho).1) ?_ fun o o' ho hkept => ?_,
      fun _ => clockSetDone_resolved p d m sec _⟩ <;> rw [hclock]
    · exact Clock.setTo_inRange p d m sec
    · exact ho.set hs.1 p d m sec hkept

/-- A second that ends no minute leaves every slot's measure, and a minute boundary counts every slot down (R52). -/
theorem secondBoundary_tableStep {s t : State} (h : exec .secondBoundary s = .next t) : TableStep s t := by
  cases hp : s.powered with
  | false =>
    rcases (event_eq_next_iff secondBoundaryBlock s t).1 h with ⟨hpowered, -⟩ | ⟨-, rfl⟩
    · rw [hp] at hpowered
      cases hpowered
    · exact .refl _
  | true =>
    cases hvalid : s.clock.valid with
    | false =>
      refine event_tableStep (block := secondBoundaryBlock) ?_ h
      rw [secondBoundaryBlock_of_invalid (s := nothingRaised s) hvalid]
      exact .refl _
    | true =>
      by_cases hsecond : s.clock.second = 59
      · rw [(exec_secondBoundary_of_minute hp hvalid hsecond).1] at h
        cases h
        have hminute := minutePassed hvalid (returns := decide _) (moved := decide _) decide_eq_true_iff
          decide_eq_true_iff
        refine ⟨fun hs => ?_, fun _ => hminute.resolved⟩
        refine hs.of_slots (by rw [hminute.slots.slots, announced_overrides])
          (fun o o' ho => (hminute.slots.same o o' ho).1) ?_ fun o o' ho hkept => ?_ <;> rw [hminute.clock]
        · exact hs.1.tick
        · exact ho.minute hs.1 hsecond hkept
      · rw [exec_secondBoundary_of_second hp hvalid hsecond] at h
        cases h
        refine ⟨fun hs => ?_, fun hs => hs.congr rfl rfl rfl fun _ => ⟨rfl, rfl, rfl⟩⟩
        obtain ⟨⟨hday, hmin, hsec⟩, hlength, hzones, hslots⟩ := hs
        exact ⟨⟨hday, hmin, by dsimp only; omega⟩, hlength, hzones, fun o ho => (hslots o ho).congr rfl rfl⟩

end Sys2Proof.Machine

namespace Sys2Proof.Machine

/-! ## PARAM SET (R54, R55, R180) -/

/-- The settings of which a write resolves the effective setpoints again (R55). -/
def Param.resolves : Param → Bool
  | .enabled _ | .base _ | .frost _ => true
  | _ => false

theorem act_eq_resolve {q : Param} (h : q.resolves = true) : q.act = resolve := by
  cases q with
  | enabled | base | frost => rfl
  | _ => cases h

theorem act_ground {q : Param} (h : q.resolves = false) (s : State) : (q.act s).ground = s.ground := by
  have hrewritten : ∀ v f s, (rewriteValve v f s).ground = s.ground := fun _ _ _ => handReport_ground _
  have hmode : (modeWritten s).ground = s.ground := by
    unfold modeWritten
    rw [(deriveCall_reaches _).ground]
    exact ite_ground rfl
  cases q with
  | enabled | base | frost => cases h
  | valveZone | minDuty | maxDuty | valveOpen | valveClose | confirm => exact hrewritten _ _ s
  | highLimit => exact (testHighLimit_reaches _).ground.trans (formHeating_reaches s).ground
  | fmin | fmax => exact (formHeating_reaches s).ground
  | dhwTarget => exact (formFlow_reaches s).ground
  | dhwMode => exact hmode
  | dhwPriority | dhwMaxPriority => exact ite_ground (endPriority_reaches s).ground
  | dhwOpenTime => exact ite_ground (settle_reaches _).ground
  | _ => rfl

theorem modZone_setpoint_inputs (c : Settings) (y z : Fin 16) {f : ZoneSettings → ZoneSettings}
    (hf : ∀ x, (f x).enabled = x.enabled ∧ (f x).base = x.base ∧ (f x).frost = x.frost) :
    ((c.modZone y f).zones.get z).enabled = (c.zones.get z).enabled ∧
      ((c.modZone y f).zones.get z).base = (c.zones.get z).base ∧
      ((c.modZone y f).zones.get z).frost = (c.zones.get z).frost := by
  rw [Settings.modZone, Tab.get_modify]
  split
  · next hz => exact hz ▸ hf _
  · exact ⟨rfl, rfl, rfl⟩

/-- Every other write leaves what the effective setpoints look at. -/
theorem write_setpoint_inputs {q : Param} (h : q.resolves = false) (c : Settings) (v : Int) (z : Fin 16) :
    ((q.write c v).zones.get z).enabled = (c.zones.get z).enabled ∧
      ((q.write c v).zones.get z).base = (c.zones.get z).base ∧
      ((q.write c v).zones.get z).frost = (c.zones.get z).frost := by
  cases q with
  | enabled | base | frost => cases h
  | band | integralTime | fallback | sensor | sourceMode | staleness =>
    exact modZone_setpoint_inputs c _ z fun _ => ⟨rfl, rfl, rfl⟩
  | _ => exact ⟨rfl, rfl, rfl⟩

theorem resolve_resolved (s : State) : SetpointsResolved (resolve s) := fun z => Tab.get_ofFn _ z

theorem paramSetBlock_tableStep (group idx field value : Int) (s : State) :
    TableStep s (paramSetBlock group idx field value s).1 := by
  unfold paramSetBlock
  split
  · exact .refl s
  · next q _ =>
    dsimp only
    cases hq : q.resolves with
    | true =>
      rw [act_eq_resolve hq]
      exact .of_sublist rfl (.refl _) fun _ => resolve_resolved _
    | false =>
      have hwritten : TableStep s (setSettings (q.write s.settings value) s) :=
        .of_sublist rfl (.refl _) fun h => h.congr rfl rfl rfl (write_setpoint_inputs hq s.settings value)
      exact hwritten.trans (.of_ground (act_ground hq _))

/-! ## Power and resets (R57, R179, R181, R182) -/

theorem blankClock_inRange : ClockInRange blankClock := by
  refine ⟨?_, ?_, ?_⟩ <;> decide

/-- An empty table is kept. -/
theorem TableKept.of_empty {s : State} (hclock : ClockInRange s.clock) (hslots : s.overrides.slots = []) :
    TableKept s := by
  unfold TableKept
  rw [hslots]
  exact ⟨hclock, Nat.zero_le _, List.nodup_nil, nofun⟩

theorem Started.tableStep {s t : State} (h : Started s t) : TableStep s t := by
  obtain ⟨hslots, hresolved⟩ := h.overrides
  have hclock : t.clock = blankClock := h.of_blanked .clock (by decide)
  exact ⟨fun _ => .of_empty (hclock ▸ blankClock_inRange) hslots, fun _ => hresolved⟩

/-- Without power every zone has the factory settings, that is disabled, and no effective setpoint. -/
theorem losePower_tableStep (s : State) : TableStep s (losePower s) := by
  refine ⟨fun _ => .of_empty blankClock_inRange rfl, fun _ z => ?_⟩
  have hdisabled : ((losePower s).settings.zones.get z).enabled = false :=
    congrArg ZoneSettings.enabled (Tab.get_ofFn factoryZone z)
  rw [effectiveSetpoint, if_neg (by simp [hdisabled])]
  exact Tab.get_all _ z

/-- SOFT RESET leaves the table and resolves the setpoints again (R57). -/
theorem softResetBlock_tableStep (p : Port) (order : Order) (s : State) :
    TableStep s (softResetBlock p order s) := by
  have hblocks := (takeAroundReset_ground (restartControl order.driverFirst
      (restartNotices (restartRegulator (restartCapture s)))) order.matrixAt).trans
    (restartControl_ground (restartNotices (restartRegulator (restartCapture s))) order.driverFirst)
  have htaken : TableStep s _ := (TableStep.of_eq rfl rfl rfl rfl).trans (.of_ground hblocks)
  have hresolved : ∀ u, TableStep u (resolve u) := fun u => .of_sublist rfl (.refl _) fun _ => resolve_resolved u
  exact (htaken.trans (hresolved _)).trans (.of_eq rfl rfl rfl rfl)

/-! ## Every row -/

theorem withOrder_tableStep {f : Order → State → State} (h : ∀ o s, TableStep s (f o s)) (s : State) :
    TableStep s (withOrder f s) :=
  have hdrawn : TableStep s { s with orders := s.orders.rest } := .of_eq rfl rfl rfl rfl
  hdrawn.trans (h _ _)

/-- Every row keeps the table and the resolved setpoints: the rows of the clock, the store and the table by their own
lemmas, the others since they leave the ground alone. -/
theorem exec_tableStep {i : Instr} {s t : State} (h : exec i s = .next t) : TableStep s t := by
  cases i with
  | powerUp =>
    obtain ⟨u, hu⟩ := exists_started s
    cases (hu.row .powerUp (.inl rfl)).symm.trans h
    exact hu.tableStep
  | externalReset =>
    cases hp : s.powered with
    | true =>
      obtain ⟨u, hu⟩ := exists_started s
      cases (hu.row .externalReset (.inr ⟨rfl, hp⟩)).symm.trans h
      exact hu.tableStep
    | false =>
      rcases (event_eq_next_iff startPart s t).1 h with ⟨hpowered, -⟩ | ⟨-, rfl⟩
      · rw [hp] at hpowered
        cases hpowered
      · exact .refl _
  | powerLoss => exact event_tableStep (losePower_tableStep _) h
  | softReset p => exact event_tableStep (withOrder_tableStep (softResetBlock_tableStep p) _) h
  | secondBoundary => exact secondBoundary_tableStep h
  | clockSet p day minute second => exact command_tableStep (clockSetBlock_tableStep p day minute second s) h
  | pointAdd => exact command_tableStep (pointAddBlock_tableStep _ _ _ _ _ _ _ _) h
  | pointDel => exact command_tableStep (pointDelBlock_tableStep _ _ _ _ _ _ _) h
  | listClear => exact command_tableStep (listClearBlock_tableStep _ _ _ _ _) h
  | bankCopy => exact command_tableStep (bankCopyBlock_tableStep _ _ _ _ _) h
  | bankSelect => exact command_tableStep (bankSelectBlock_tableStep _ _ rfl) h
  | bankTimed => exact command_tableStep (bankTimedBlock_tableStep _ _ _ _ rfl) h
  | bankCancel => exact command_tableStep (bankCancelBlock_tableStep _ rfl) h
  | bankSave => exact command_tableStep (bankSaveBlock_tableStep _ _ _) h
  | bankLoad => exact command_tableStep (bankLoadBlock_tableStep _ _ _) h
  | configSave => exact command_tableStep (configSaveBlock_tableStep _ _) h
  | saveCompletion good => exact event_tableStep (saveCompletionBlock_tableStep good _) h
  | ovrSet => exact command_tableStep (ovrSetBlock_tableStep _ _ _ _ _ _ _) h
  | ovrHold => exact command_tableStep (ovrHoldBlock_tableStep _ _ _ _) h
  | ovrRelease => exact command_tableStep (ovrReleaseBlock_tableStep _ _ _) h
  | paramSet => exact command_tableStep (paramSetBlock_tableStep _ _ _ _ _) h
  | ident | status | zoneGet | clockGet | pointGet | bankGet | ovrList | captureGet | regGet | valveGet | lineGet
  | linkGet | paramGet | noticeRead =>
    exact command_tableStep_of_ground h fun _ => rfl
  | tempReport p zone value => exact command_tableStep_of_ground h fun s => tempReportBlock_ground s zone value
  | valveClear p channel => exact command_tableStep_of_ground h fun s => valveClearBlock_ground s channel
  | inhibit p value => exact command_tableStep_of_ground h fun s => inhibitBlock_ground s p value
  | lockoutClear p => exact command_tableStep_of_ground h fun s => lockoutClearBlock_ground s p
  | dhwBoost p minutes => exact command_tableStep_of_ground h fun s => dhwBoostBlock_ground s minutes
  | lineSet p lines | lineClear p lines | lineToggle p lines =>
    exact command_tableStep_of_ground h fun s => writeLines_ground s _ lines
  | noticeMask p mask => exact command_tableStep_of_ground h fun s => noticeMaskBlock_ground s p mask
  | textCharacter c framingError =>
    exact event_tableStep_of_ground h fun s => textCharacterBlock_ground s c framingError
  | textResponseSend => exact event_tableStep_of_ground h textSendBlock_ground
  | textResponseSent => exact event_tableStep_of_ground h textSentBlock_ground
  | writeTransfer | readTransfer | repeatedStart | busError => exact busEvent_tableStep h
  | rawInputChange ch level elapsed =>
    replace h : (if s.powered then event (rawInputBlock ch level elapsed) s else .next (setRaw ch level s)) = .next t :=
      h
    split at h
    · exact event_tableStep_of_ground h fun _ => rfl
    · cases h
      exact .of_eq rfl rfl rfl rfl
  | acceptedEdge | timeout | captureSecond | cycleStart | driveLineOff =>
    exact event_tableStep_of_ground h fun _ => rfl
  | windowExpiry =>
    exact event_tableStep (withOrder_tableStep (fun o s => .of_ground (expireWindow_ground s o)) _) h
  | pass => exact event_tableStep (withOrder_tableStep (fun o s => .of_ground (passBlock_ground s o)) _) h
  | valveUpdate =>
    refine event_tableStep_of_ground h fun s => ?_
    exact (faultsThenReport_ground _ _ _).trans rfl
  | confirmTimeout ch => exact event_tableStep_of_ground h fun s => ite_ground (faultChannel_ground s ch)
  | endSwitchEdge ch closed =>
    refine lineEvent_tableStep h (.of_eq rfl rfl rfl rfl) fun u => ?_
    split
    · rfl
    · exact endSwitchBlock_ground u ch closed
  | flameEdge asserted =>
    exact lineEvent_tableStep h (.of_eq rfl rfl rfl rfl) fun u =>
      onEdge_ground u (fun s => flameBlock_ground s asserted) _ _
  | boilerFaultEdge asserted =>
    exact lineEvent_tableStep h (.of_eq rfl rfl rfl rfl) fun u => onEdge_ground u (block := faultBlock asserted)
      (fun _ => rfl) _ _
  | interlockEdge closed =>
    exact lineEvent_tableStep h (.of_eq rfl rfl rfl rfl) fun u =>
      onEdge_ground u (fun s => (settle_reaches s).ground) _ _
  | hotWaterRequestEdge asserted =>
    exact lineEvent_tableStep h (.of_eq rfl rfl rfl rfl) fun u =>
      onEdge_ground u (fun s => requestBlock_ground s asserted) _ _
  | pathWaitExpiry | flameWaitExpiry => exact event_tableStep_of_ground h fun _ => ite_ground rfl
  | minOnExpiry | minOffExpiry | diverterOpen =>
    exact event_tableStep_of_ground h fun _ => ite_ground (settle_reaches _).ground
  | overrunExpiry => exact event_tableStep_of_ground h fun _ => ite_ground (endOverrun_reaches _).ground
  | faultPersistenceExpiry => exact event_tableStep_of_ground h fun _ => ite_ground (lockOut_reaches _ _).ground
  | timedCallExpiry => exact event_tableStep_of_ground h fun _ => ite_ground (deriveCall_reaches _).ground
  | priorityExpiry => exact event_tableStep_of_ground h fun _ => ite_ground (endPriority_reaches _).ground

/-- Settles O53: every row keeps the table and the resolved setpoints, and a step is a row or the rows of a second. -/
theorem stepsKeepOverrideTable : Obligations.StepsKeepOverrideTable := fun _ _ h =>
  step_rel TableStep.refl TableStep.trans exec_tableStep (fun _ _ => .of_eq rfl rfl rfl rfl)
    (fun _ => .of_eq rfl rfl rfl rfl) h

end Sys2Proof.Machine

namespace Sys2Proof.Machine

/-! ## A record that tells of a changed override (R43, R44, R46, R48, R173) -/

/-- A record that tells that the other port, or eviction, took a zone's override. -/
def PortNotices.TellsChanged (r : PortNotices) (z : Fin 16) : Prop :=
  r.kinds.getLsbD 3 = true ∧ r.overrideChanged.getLsbD z.val = true

theorem PortNotices.tellsChanged_take (r : PortNotices) (z : Fin 16) :
    (r.take (.overrideChanged (zoneSet z))).TellsChanged z := by
  have hmerge : (r.take (.overrideChanged (zoneSet z))).overrideChanged =
      mergeScope (r.kinds.getLsbD 3) r.overrideChanged (zoneSet z) := rfl
  rw [TellsChanged, take_kinds_getLsbD, hmerge, mergeScope_getLsbD, zoneSet, getLsbD_single _ _ z.isLt]
  exact ⟨rfl, by simp⟩

/-- A slot taken from its own port tells nobody. -/
theorem postChangedBy_of_own {p : Port} {o : Slot} (h : o.origin = p) (s : State) : postChangedBy p o s = s := if_pos h

/-- A slot taken from the other port tells that port. -/
theorem postChangedBy_of_other {p : Port} {o : Slot} (h : o.origin ≠ p) (s : State) :
    postChangedBy p o s = post p.other (.overrideChanged (zoneSet o.zone)) s := by
  have horigin : o.origin = p.other := by cases p <;> cases ho : o.origin <;> simp_all [Port.other]
  rw [postChangedBy, if_neg h, horigin]

/-- The commanding port is told nothing, and the slot's origin where it is the other port (R43, R46, R48). -/
theorem postChangedBy_notices (p : Port) (o : Slot) (s : State) :
    (postChangedBy p o s).notices.of p = s.notices.of p ∧
      (o.origin ≠ p → ((postChangedBy p o s).notices.of p.other).TellsChanged o.zone) ∧
      (o.origin = p → (postChangedBy p o s).notices = s.notices) := by
  by_cases ho : o.origin = p
  · rw [postChangedBy_of_own ho]
    exact ⟨rfl, fun hne => absurd ho hne, fun _ => rfl⟩
  · rw [postChangedBy_of_other ho]
    refine ⟨by cases p <;> rfl, fun _ => ?_, fun heq => absurd heq ho⟩
    show ((s.notices.put p.other _).of p.other).TellsChanged o.zone
    rw [Notices.of_put, if_pos rfl]
    exact PortNotices.tellsChanged_take _ _

/-! ## The commands that write a slot (R42, R43, R46, R47) -/

theorem ovrSetBlock_next (p : Port) (z : Fin 16) (v : Int) (d m : Option Int) (s : State) :
    ovrSetBlock p z.val v 0 d m s = writeSlot p z (givenSetpoint v) .next s := by
  simp only [ovrSetBlock, index_val, if_true]
  rfl

theorem ovrSetBlock_hold (p : Port) (z : Fin 16) (v : Int) (d m : Option Int) (s : State) :
    ovrSetBlock p z.val v 2 d m s = writeSlot p z (givenSetpoint v) .hold s := by
  simp only [ovrSetBlock, index_val]
  rfl

theorem ovrHoldBlock_val (p : Port) (z : Fin 16) (setpoint : Option Int) (s : State) :
    ovrHoldBlock p z.val setpoint s = writeSlot p z (heldSetpoint s z setpoint) .hold s := by
  simp only [ovrHoldBlock, index_val]

theorem exec_ovrHold (p : Port) (zone : Int) (setpoint : Option Int) (s : State) :
    exec (.ovrHold p zone setpoint) s = command (.ovrHold p zone setpoint) p (ovrHoldBlock p zone setpoint) s := rfl

/-- Every command that writes an override is the write of a slot, with the setpoint and the kind that its fields
give. -/
theorem exec_eq_writeSlot {p : Port} {z : Fin 16} {v : Int} {s : State} {i : Instr} {kind : Kind}
    {setpoint : Option Int}
    (h : WritesOverride p z v s i kind ∧ setpoint = givenSetpoint v ∨
      i = .ovrHold p z.val none ∧ kind = .hold ∧ setpoint = heldSetpoint s z none) :
    ∃ block, exec i s = command i p block s ∧
      block (nothingRaised s) = writeSlot p z setpoint kind (nothingRaised s) := by
  rcases h with ⟨hwrites, rfl⟩ | ⟨rfl, rfl, rfl⟩
  · rcases hwrites with ⟨d, m, rfl, rfl⟩ | ⟨d, m, rfl, rfl⟩ | ⟨rfl, rfl⟩ | ⟨day, minute, rfl, hvalid, rfl⟩
    · exact ⟨_, exec_ovrSet .., ovrSetBlock_next ..⟩
    · exact ⟨_, exec_ovrSet .., ovrSetBlock_hold ..⟩
    · exact ⟨_, exec_ovrHold .., ovrHoldBlock_val ..⟩
    · exact ⟨_, exec_ovrSet .., ovrSetBlock_until p z v day minute hvalid⟩
  · exact ⟨_, exec_ovrHold .., ovrHoldBlock_val ..⟩

/-! ## OVR RELEASE (R48) -/

theorem ovrReleaseBlock_of_slot (p : Port) {z : Fin 16} {s : State} {o : Slot} (h : slotOf s z = some o) :
    ovrReleaseBlock p z.val s = (postChangedBy p o (putSlots (withoutZone s.overrides.slots z) s), .ok [.word 1]) := by
  simp only [ovrReleaseBlock, index_val, h]
  rfl

theorem ovrReleaseBlock_of_none (p : Port) {z : Fin 16} {s : State} (h : slotOf s z = none) :
    ovrReleaseBlock p z.val s = (s, .ok [.word 0]) := by
  simp only [ovrReleaseBlock, index_val, h]
  rfl

/-! ## RANGE refusals (R42) -/

theorem endOf_eq_none_of {d m : Option Int}
    (h : d = none ∨ m = none ∨ (∃ e ∈ d, e < 0 ∨ 6 < e) ∨ ∃ e ∈ m, e < 0 ∨ 1439 < e) : endOf d m = none := by
  cases d with
  | none => rfl
  | some d =>
    cases m with
    | none => rfl
    | some m =>
      have hnone : index 7 d = none ∨ index 1440 m = none := by
        simp only [index_eq_none_iff]
        simp at h
        omega
      unfold endOf
      dsimp only
      split
      · next hday hminute => simp [hday, hminute] at hnone
      · rfl

theorem ovrSetBlock_range (p : Port) {v k : Int} (w : Int) (d m : Option Int) (s : State)
    (h : v < 0 ∨ 15 < v ∨ k < 0 ∨ 2 < k) : ovrSetBlock p v w k d m s = (s, refuse .range) := by
  unfold ovrSetBlock
  split
  · rfl
  · next z hz =>
    have hzone : ¬ (v < 0 ∨ 16 ≤ v) := fun hout => by
      rw [(index_eq_none_iff ..).2 (by simpa using hout)] at hz
      cases hz
    rw [if_neg (by omega), if_neg (by omega), if_neg (by omega)]

theorem ovrSetBlock_until_range (p : Port) (v w : Int) {d m : Option Int} (s : State) (h : endOf d m = none) :
    ovrSetBlock p v w 1 d m s = (s, refuse .range) := by
  unfold ovrSetBlock
  split
  · rfl
  · simp only [h]
    rfl

theorem index_zone_eq_none {v : Int} (h : v < 0 ∨ 15 < v) : index 16 v = none := by
  rw [index_eq_none_iff]
  omega

/-- Settles O26: a write is `writeSlot` over the zone's own slot, a release takes that slot out. -/
theorem overrideWritesAndReleases : Obligations.OverrideWritesAndReleases := by
  intro p z s hp
  refine ⟨fun v kind setpoint i o hslot hwrites => ?_, fun o hslot => ?_, fun hnone => ?_,
    fun v w k d m x i hrefused => ?_⟩
  · obtain ⟨-, rfl⟩ := slotOf_mem hslot
    have hheld : heldSetpoint s o.zone none = o.setpoint := by simp only [heldSetpoint, hslot]
    obtain ⟨block, hexec, hblock⟩ := exec_eq_writeSlot (hheld ▸ hwrites)
    have hwritten := hblock.trans (writeSlot_of_slot p setpoint kind (s := nothingRaised s) hslot)
    obtain ⟨t, hrow, hkeeps, hresolved, hslots, hanswer, hnotices⟩ := command_of_slotWritten i p hp hwritten
      ((putOnTop_slotWritten _ (Keeps.refl _ _)).postChangedBy p o)
    obtain ⟨hown, hother, hsame⟩ := postChangedBy_notices p o
      (putOnTop (writtenSlot p o.zone setpoint kind (nothingRaised s)) (nothingRaised s))
    rw [← hnotices] at hown hother hsame
    exact ⟨t, hexec.trans hrow, hkeeps, hslots, hresolved, hanswer, hown, hother, hsame⟩
  · obtain ⟨-, rfl⟩ := slotOf_mem hslot
    have hkeeps : Keeps [.overrides, .notices] (nothingRaised s)
        (postChangedBy p o (putSlots (withoutZone s.overrides.slots o.zone) (nothingRaised s))) :=
      ((putSlots_keeps _ _).mono (by simp)).trans ((postChangedBy_keeps p o _).mono (by simp))
    obtain ⟨t, hrow, htkeeps, hanswer, hu⟩ := command_of_keeps (.ovrRelease p o.zone.val) p hp
      (ovrReleaseBlock_of_slot p (s := nothingRaised s) hslot) hkeeps (by decide)
    obtain ⟨hown, hother, hsame⟩ := postChangedBy_notices p o
      (putSlots (withoutZone (nothingRaised s).overrides.slots o.zone) (nothingRaised s))
    have hoverrides := (hu .overrides (by decide)).trans (postChangedBy_keeps p o _ .overrides (by decide))
    rw [← (hu .notices (by decide) : t.notices = (postChangedBy p o _).notices)] at hown hother hsame
    refine ⟨t, hrow, htkeeps, congrArg Overrides.slots hoverrides, ?_, hanswer, hown, hsame, hother⟩
    exact ((putSlots_resolved _ _).of_keeps (postChangedBy_keeps p o _) (by decide)).of_keeps hu (by decide)
  · obtain ⟨t, hrow, hkeeps, hanswer, -⟩ := command_of_keeps (.ovrRelease p z.val) p hp
      (ovrReleaseBlock_of_none p (s := nothingRaised s) hnone) (Keeps.refl [] _) (by decide)
    exact ⟨t, hrow, hkeeps.mono (by decide), hanswer⟩
  · rcases hrefused with ⟨rfl, hzone⟩ | ⟨rfl, hzone⟩ | ⟨rfl, hrange⟩ | ⟨rfl, hend⟩
    · refine refused_powered _ p _ .range s hp ?_
      simp only [ovrReleaseBlock, index_zone_eq_none hzone]
    · refine refused_powered _ p _ .range s hp ?_
      simp only [ovrHoldBlock, index_zone_eq_none hzone]
    · exact refused_powered _ p _ .range s hp (ovrSetBlock_range p w d m _ hrange)
    · exact refused_powered _ p _ .range s hp (ovrSetBlock_until_range p v w _ (endOf_eq_none_of hend))

end Sys2Proof.Machine

namespace Sys2Proof.Machine

/-! ## Eviction from a full table (R44) -/

/-- The lowest slot that is no HOLD is the one with HOLD slots alone below it. -/
theorem victim_append {above below : List Slot} {o : Slot} (ho : o.kind ≠ .hold)
    (hbelow : ∀ q ∈ below, q.kind = .hold) :
    victim (above ++ o :: below) = some o := by
  have hnone : below.reverse.find? (fun q => !q.isHold) = none := by simpa [Slot.isHold] using hbelow
  rw [victim, List.reverse_append, List.reverse_cons, List.append_assoc, List.find?_append, hnone, Option.none_or,
    List.find?_append]
  simp [Slot.isHold, ho]

theorem victim_eq_none {slots : List Slot} (h : ∀ q ∈ slots, q.kind = .hold) : victim slots = none := by
  rw [← Option.not_isSome_iff_eq_none, victim_isSome_iff]
  rintro ⟨o, ho, hkind⟩
  exact hkind (h o ho)

/-- Where no two slots are of one zone, a slot's zone leaves the others. -/
theorem withoutZone_append {above below : List Slot} {o : Slot} (h : ((above ++ o :: below).map Slot.zone).Nodup) :
    withoutZone (above ++ o :: below) o.zone = above ++ below := by
  rw [List.map_append, List.map_cons, List.nodup_append, List.nodup_cons] at h
  obtain ⟨-, ⟨hbelow, -⟩, habove⟩ := h
  have hleft : ∀ q ∈ above ++ below, q.zone ≠ o.zone := by
    intro q hq
    rcases List.mem_append.1 hq with hq | hq
    · exact habove _ (List.mem_map_of_mem hq) _ (List.mem_cons_self ..)
    · exact fun heq => hbelow (heq ▸ List.mem_map_of_mem hq)
  have hfilter : ∀ slots : List Slot, (∀ q ∈ slots, q.zone ≠ o.zone) → withoutZone slots o.zone = slots :=
    fun slots hq => List.filter_eq_self.2 fun q hmem => by simpa using hq q hmem
  rw [withoutZone, List.filter_append, List.filter_cons_of_neg (by simp)]
  exact congrArg₂ _ (hfilter above fun q hq => hleft q (List.mem_append_left _ hq))
    (hfilter below fun q hq => hleft q (List.mem_append_right _ hq))

/-- Eviction tells the victim's origin port and no other (R44). -/
theorem evict_notices {s : State} {v : Slot} (h : victim s.overrides.slots = some v) :
    ((evict s).notices.of v.origin).TellsChanged v.zone ∧
      (evict s).notices.of v.origin.other = s.notices.of v.origin.other := by
  have hput : (evict s).notices =
      s.notices.put v.origin ((s.notices.of v.origin).take (.overrideChanged (zoneSet v.zone))) := by
    simp only [evict, h]
    rfl
  have hother : v.origin.other ≠ v.origin := by cases v.origin <;> decide
  rw [hput, Notices.of_put, Notices.of_put, if_pos rfl, if_neg hother]
  exact ⟨PortNotices.tellsChanged_take _ _, rfl⟩

/-- Where all eight slots are HOLD, a creating write is refused (R44, R47). -/
theorem writeSlot_of_full (p : Port) {z : Fin 16} (sp : Option Int) (k : Kind) {s : State} (h : slotOf s z = none)
    (hfull : 8 ≤ s.overrides.slots.length) (hv : victim s.overrides.slots = none) :
    writeSlot p z sp k s = (s, refuse .full) := by
  simp [writeSlot, h, tableFull, Config.slotCount, hfull, hv]

/-- Without a slot and without a setpoint, OVR HOLD holds the scheduled target (R47). -/
theorem heldSetpoint_of_none {s : State} {z : Fin 16} (h : slotOf s z = none) :
    heldSetpoint s z none = (scheduledTarget s z).setpoint := by
  simp only [heldSetpoint, h]

/-- Settles O28: a write of a zone without a slot is `writeSlot` with a victim, refused, or with room. -/
theorem fullTableEvictsLowestUnheldSlot : Obligations.FullTableEvictsLowestUnheldSlot := by
  intro p z s hp hslot v i kind setpoint hwrites
  obtain ⟨block, hexec, hblock⟩ : ∃ block, exec i s = command i p block s ∧
      block (nothingRaised s) = writeSlot p z setpoint kind (nothingRaised s) := by
    refine exec_eq_writeSlot (hwrites.imp_right fun ⟨hi, hkind, hheld⟩ => ⟨hi, hkind, hheld.trans ?_⟩)
    rw [heldSetpoint_of_none hslot, scheduledTarget]
    cases s.program.remembered.get (zoneList z) with
    | none => rfl
    | some e =>
      dsimp only
      cases e.point.target <;> rfl
  rw [hexec]
  refine ⟨fun hfull hzones => ⟨fun above o below hslots ho hbelow => ?_, fun hheld => ?_⟩, fun hroom => ?_⟩
  · have hvictim : victim s.overrides.slots = some o := hslots ▸ victim_append ho hbelow
    have hleft : withoutZone s.overrides.slots o.zone = above ++ below := by
      rw [hslots] at hzones ⊢
      exact withoutZone_append hzones
    have hevicted : withoutZone (evict (nothingRaised s)).overrides.slots z = above ++ below := by
      have hself : withoutZone s.overrides.slots z = s.overrides.slots := withoutZone_eq_self hslot
      rw [evict_slots (s := nothingRaised s) hvictim, withoutZone, withoutZone, List.filter_comm]
      exact (congrArg (withoutZone · o.zone) hself).trans hleft
    obtain ⟨t, hrow, hkeeps, hresolved, htslots, hanswer, hnotices⟩ := command_of_slotWritten i p hp
      (hblock.trans (writeSlot_of_victim p setpoint kind hslot hfull.ge hvictim))
      (putOnTop_slotWritten _ (evict_keeps _))
    have htold := evict_notices (s := nothingRaised s) hvictim
    have htnotices : t.notices = (evict (nothingRaised s)).notices :=
      hnotices.trans (putOnTop_keeps _ _ .notices (by decide))
    rw [← htnotices] at htold
    obtain ⟨⟨hkind, hzone⟩, hother⟩ := htold
    exact ⟨t, hrow, hkeeps, htslots.trans (congrArg _ hevicted), hresolved, hkind, hzone, hother, hanswer⟩
  · exact refused_powered i p block .full s hp
      (hblock.trans (writeSlot_of_full p setpoint kind hslot hfull.ge (victim_eq_none hheld)))
  · have hself : withoutZone s.overrides.slots z = s.overrides.slots := withoutZone_eq_self hslot
    have hwritten := putOnTop_slotWritten (writtenSlot p z setpoint kind (nothingRaised s))
      (Keeps.refl _ (nothingRaised s))
    obtain ⟨t, hrow, hkeeps, hanswer, hu⟩ := command_of_keeps i p hp
      (hblock.trans (writeSlot_of_room p setpoint kind hslot hroom)) (putOnTop_keeps _ _) (by decide)
    refine ⟨t, hrow, hkeeps, hwritten.resolved.of_keeps hu (by decide), ?_, hanswer⟩
    have hoverrides : t.overrides = _ := hu .overrides (by decide)
    rw [hoverrides, hwritten.slots]
    exact congrArg _ hself

end Sys2Proof.Machine

namespace Sys2Proof.Machine

/-! ## The blank records of the state after reset -/

theorem reset_zone (z : Fin 16) : State.reset.regulator.zones.get z = blankZoneRecord := Tab.get_all _ z

theorem reset_valve (v : Fin 16) : State.reset.valves.channels.get v = blankValve false :=
  (Tab.get_ofFn _ v).trans (congrArg blankValve (congrArg ValveChannel.endSwitch (Tab.get_all _ v)))

theorem reset_settingsKept : SettingsKept State.reset :=
  (settingsKept_iff _).2 ⟨factorySettings_inRange, factorySettings_inRange, nofun⟩

theorem reset_banksKept : BanksKept State.reset := by
  have hstored : ∀ b, unwrittenStore.banks.get b = ⟨emptyLists, true⟩ := Tab.get_all _
  have hram : ∀ b, State.reset.program.banks.get b = loadedBank (unwrittenStore.banks.get b) := Tab.get_ofFn _
  refine (banksKept_iff _).2 ⟨fun b => ?_, fun b => ?_, nofun⟩
  · rw [hram, hstored]
    exact emptyLists_inOrder
  · exact (congrArg (fun stored => ListsInOrder stored.content) (hstored b)).mpr emptyLists_inOrder

/-- With the factory settings every zone is disabled and has no effective setpoint. -/
theorem reset_setpointsResolved : SetpointsResolved State.reset := by
  intro z
  have hdisabled : (State.reset.settings.zones.get z).enabled = false :=
    congrArg ZoneSettings.enabled (Tab.get_ofFn factoryZone z)
  rw [effectiveSetpoint, if_neg (by simp [hdisabled])]
  exact Tab.get_all _ z

theorem blankZoneRecord_kept (priority : Bool) : RecordKept priority blankZoneRecord := by
  constructor <;> simp [blankZoneRecord]

theorem blankValve_dutyKept (c : ValveSettings) (endSwitch : Bool) : DutyKept c (blankValve endSwitch) := by
  constructor <;> simp [blankValve, DutyAllowed]

theorem blankValve_channelKept (endSwitch : Bool) : ChannelKept (blankValve endSwitch) := by
  constructor <;> simp [blankValve, Machine.undriven]

/-- Where no channel provides a path, no zone has one and the report is empty (R111). -/
theorem computeReport_of_closed {s : State} (h : ∀ v, (s.valves.channels.get v).state.passes = false) :
    computeReport s = blankReport := by
  have hempty : setOf (fun _ : Fin 16 => false) = 0 := by decide
  simp only [computeReport, zoneHasPath, h, Bool.and_false, List.any_eq_false.2 (fun _ _ => Bool.false_ne_true), hempty,
    blankReport]

theorem reset_reportsCurrent : ReportsCurrent State.reset := by
  refine ⟨(computeReport_of_closed fun v => ?_).symm, rfl, rfl⟩
  rw [reset_valve]
  rfl

/-- After reset the controller is IDLE, its lines OFF, and nothing calls. -/
theorem reset_linesKept : LinesKept State.reset where
  burner := by decide
  pump := by decide
  quiet _ := rfl
  safe := nofun
  called := nofun
  selected _ := ⟨fun _ => ⟨by simp [CallPresent, State.reset, blankFiring, blankDemand], rfl⟩, nofun, nofun⟩
  waiting := nofun

theorem reset_callKept : CallKept State.reset where
  call _ := by decide
  schedule := by decide
  diverter := rfl
  path := nofun
  priority := nofun

theorem reset_targetsKept : TargetsKept State.reset where
  heating := by decide
  target := by decide
  least := nofun
  greatest := nofun
  limit := nofun
  code _ := rfl

theorem blankDemand_inRange : DemandInRange blankDemand := by
  intro z
  rw [show blankDemand.delivered.get z = 0 from Tab.get_all _ z]
  decide

theorem reset_portsKept : PortsKept State.reset where
  line := Nat.zero_le _
  queue := Nat.zero_le _
  frame := Nat.zero_le _
  idle _ := ⟨rfl, rfl⟩
  bits := nofun

/-- Settles O4: the blank records and the factory settings keep every condition. -/
theorem conditionsHoldAfterReset : Obligations.ConditionsHoldAfterReset :=
  ⟨reset_settingsKept, reset_banksKept, .of_empty blankClock_inRange rfl, reset_setpointsResolved,
    fun z => reset_zone z ▸ blankZoneRecord_kept _, fun v => reset_valve v ▸ blankValve_dutyKept _ _,
    fun v => reset_valve v ▸ blankValve_channelKept _, reset_reportsCurrent, reset_linesKept, reset_callKept,
    reset_targetsKept, blankDemand_inRange, fun h => absurd rfl h, ⟨by decide, nofun⟩, reset_portsKept⟩

end Sys2Proof.Machine

namespace Sys2Proof.Machine

/-! ## The driver at SOFT RESET (R115) -/

theorem restartDriver_channel (s : State) (v : Fin 16) :
    (restartDriver s).valves.channels.get v = (s.valves.channels.get v).restart := Tab.get_ofFn _ v

theorem restart_of_fault {v : ValveChannel} (h : v.state = .fault) :
    v.restart = { v with demandDuty := 0, hold := false } := if_pos h

theorem restart_of_not_fault {v : ValveChannel} (h : v.state ≠ .fault) :
    v.restart = { v.stopCycle with
      demandDuty := 0, hold := false, outputDuty := 0, state := undriven v.position, confirmTimer := none } := if_neg h

/-! ## What the controller keeps of its record while it settles -/

/-- The fields of the controller that no line, state or target moves: the inhibit flags, the fault-persistence timer,
the timed call, and the copies of the demand update and of the report. -/
def Firing.memory (f : Firing) : Bool × Bool × Option Nat × Option Nat × Demand × PathReport :=
  (f.inhibitText, f.inhibitWire, f.faultTimer, f.timedCall, f.demand, f.report)

/-- The events that the controller raises at a soft reset, BURNER_OFF apart. -/
def settlingKinds : List SourceKind := [.burnerOn, .pumpOn, .pumpOff, .dhwOn, .dhwOff]

/-- From s to t the controller raises events of `settlingKinds` alone, behind those raised before, and keeps its
memory. -/
structure Settling (s t : State) : Prop where
  events : ∃ own, t.raised = s.raised ++ own ∧ ∀ e ∈ own, e.kind ∈ settlingKinds
  memory : t.firing.memory = s.firing.memory

theorem Settling.of_quiet {s t : State} (hraised : t.raised = s.raised) (hmemory : t.firing.memory = s.firing.memory) :
    Settling s t := ⟨⟨[], by simp [hraised], nofun⟩, hmemory⟩

theorem Settling.refl (s : State) : Settling s s := .of_quiet rfl rfl

theorem Settling.trans {s t u : State} (h : Settling s t) (k : Settling t u) : Settling s u where
  events := by
    obtain ⟨a, ha, hown⟩ := h.events
    obtain ⟨b, hb, hown'⟩ := k.events
    exact ⟨a ++ b, by rw [hb, ha, List.append_assoc], List.forall_mem_append.2 ⟨hown, hown'⟩⟩
  memory := k.memory.trans h.memory

theorem Settling.andThen {s t : State} {f : State → State} (h : Settling s t) (k : ∀ u, Settling u (f u)) :
    Settling s (f t) := h.trans (k t)

theorem modFiring_settling {f : Firing → Firing} {s : State} (h : (f s.firing).memory = s.firing.memory) :
    Settling s (modFiring f s) := .of_quiet rfl h

theorem raise_settling {k : SourceKind} (h : k ∈ settlingKinds) (s : State) : Settling s (raise k s) :=
  ⟨⟨[⟨k, 0⟩], rfl, by simpa using h⟩, rfl⟩

section
variable (s : State)

theorem setBurner_true_settling : Settling s (setBurner true s) := by
  unfold setBurner
  split
  · exact .refl s
  · exact (modFiring_settling rfl).trans (raise_settling (by decide) _)

theorem setPump_settling (on : Bool) : Settling s (setPump on s) := by
  unfold setPump
  split
  · exact .refl s
  · exact (modFiring_settling rfl).trans (raise_settling (by cases on <;> decide) _)

theorem setDiverter_settling : Settling s (setDiverter s) := by
  unfold setDiverter
  dsimp only
  split
  · exact .refl s
  · exact modFiring_settling rfl

theorem fixHold_settling : Settling s (fixHold s) := .of_quiet rfl rfl

theorem releaseHold_settling : Settling s (releaseHold s) :=
  have hreleased : Settling s (writeHold 0 (modFiring (fun f => { f with hold := none }) s)) := .of_quiet rfl rfl
  hreleased.andThen setDiverter_settling

theorem releaseAnyHold_settling : Settling s (releaseAnyHold s) := by
  unfold releaseAnyHold
  split
  · exact releaseHold_settling s
  · exact .refl s

theorem formFlow_settling : Settling s (formFlow s) := by
  unfold formFlow
  split
  · split
    · exact .refl s
    · exact modFiring_settling rfl
  · exact .refl s

theorem formHeating_settling : Settling s (formHeating s) := by
  unfold formHeating
  split
  · exact (modFiring_settling rfl).andThen formFlow_settling
  · exact .refl s

theorem enterFiring_settling : Settling s (enterFiring s) :=
  ((((setPump_settling _ _).andThen setBurner_true_settling).trans (modFiring_settling rfl)).andThen
    formHeating_settling).andThen releaseAnyHold_settling

theorem enterQuiet_settling (state : FiringState) : Settling s (enterQuiet state s) := modFiring_settling rfl

theorem select_settling : Settling s (select s) := by
  unfold select
  split
  · exact enterFiring_settling s
  · exact enterQuiet_settling s _

theorem selectQuiet_settling : Settling s (selectQuiet s) := by
  unfold selectQuiet
  split
  · exact select_settling s
  · exact select_settling s
  · exact select_settling s
  all_goals exact .refl s

theorem endOverrun_settling : Settling s (endOverrun s) := by
  unfold endOverrun
  split
  · exact enterFiring_settling s
  · exact (((setPump_settling _ _).andThen releaseHold_settling).andThen (enterQuiet_settling · _)).andThen
      selectQuiet_settling

theorem startOverrun_settling : Settling s (startOverrun s) := by
  unfold startOverrun
  dsimp only
  split
  · exact modFiring_settling rfl
  · exact (modFiring_settling rfl).andThen fixHold_settling

theorem startCall_settling : Settling s (startCall s) :=
  (((raise_settling (by decide) s).trans (modFiring_settling rfl)).andThen setDiverter_settling).andThen
    formFlow_settling

theorem endCall_settling : Settling s (endCall s) :=
  (((raise_settling (by decide) s).trans (modFiring_settling rfl)).andThen setDiverter_settling).andThen
    formFlow_settling

theorem retakeCall_settling : Settling s (retakeCall s) := by
  unfold retakeCall
  split
  · exact startCall_settling s
  · exact .refl s

/-- Where FIRING need not be left, what an event brings about leaves the burner ON if it is. -/
theorem settle_settling (h : s.firing.state = .firing → mustStop s = false) : Settling s (settle s) := by
  unfold settle
  split
  · exact select_settling s
  · exact select_settling s
  · exact select_settling s
  · split
    · exact enterFiring_settling s
    · exact .refl s
  · next hfiring =>
    rw [if_neg (by simp [h hfiring])]
    exact .refl s
  · exact .refl s

end

/-! ## What the burner stands on -/

/-- What the call, the path and the permission are formed from, with the diverter and the hold set. -/
def Firing.grounds (f : Firing) :
    Demand × PathReport × Bool × Bool × Bool × Bool × TempStatus × Bool × Option HoldSet :=
  (f.demand, f.report, f.call, f.dhwPath, f.inhibitText, f.inhibitWire, f.flowStatus, f.diverter, f.hold)

/-- The diverter line is where the call and the hold set have it (R139). -/
def Firing.DiverterFollows (f : Firing) : Prop := f.diverter = (f.call || f.diverterHeld)

theorem Firing.DiverterFollows.congr {f g : Firing} (h : f.DiverterFollows) (hg : g.grounds = f.grounds) :
    g.DiverterFollows := by
  simp only [Firing.grounds, Prod.mk.injEq] at hg
  obtain ⟨-, -, hcall, -, -, -, -, hdiverter, hhold⟩ := hg
  simpa only [DiverterFollows, diverterHeld, hcall, hdiverter, hhold] using h

theorem setPump_grounds (on : Bool) (s : State) : (setPump on s).firing.grounds = s.firing.grounds := by
  unfold setPump
  split <;> rfl

theorem setBurner_grounds (on : Bool) (s : State) : (setBurner on s).firing.grounds = s.firing.grounds := by
  unfold setBurner
  split <;> rfl

theorem formFlow_grounds (s : State) : (formFlow s).firing.grounds = s.firing.grounds := by
  unfold formFlow
  split
  · split <;> rfl
  · rfl

theorem formHeating_grounds (s : State) : (formHeating s).firing.grounds = s.firing.grounds := by
  unfold formHeating
  split
  · exact formFlow_grounds _
  · rfl

theorem setDiverter_follows (s : State) : (setDiverter s).firing.DiverterFollows := by
  unfold setDiverter
  dsimp only
  split
  · assumption
  · rfl

/-- While the hot-water call has the diverter, the release of a hold set moves nothing else. -/
theorem releaseAnyHold_of_call {s : State} (hcall : s.firing.call = true) (hdiverter : s.firing.diverter = true) :
    (releaseAnyHold s).firing = { s.firing with hold := none } := by
  unfold releaseAnyHold
  split
  · simp [releaseHold, setDiverter, writeHold, modFiring, hcall, hdiverter]
  · next hnone =>
    rw [Bool.not_eq_true, Option.isSome_eq_false_iff, Option.isNone_iff_eq_none] at hnone
    rw [← hnone]

/-- The state of FIRING before its hold set is released. -/
theorem exists_entered (s : State) : ∃ u, enterFiring s = releaseAnyHold u ∧ u.firing.grounds = s.firing.grounds :=
  ⟨_, rfl, (formHeating_grounds _).trans ((setBurner_grounds _ _).trans (setPump_grounds _ _))⟩

/-- FIRING entered by the selection for a hot-water call is not left at once: neither the call nor the path goes with
the hold set. -/
theorem enterFiring_mustStop {s : State} (hselected : selection s = .firing) (hfollows : s.firing.DiverterFollows)
    (hcalling : s.firing.demand.calling = 0) : mustStop (enterFiring s) = false := by
  have hinterlock : (enterFiring s).inputs = s.inputs := (enterFiring_reaches s).1 .inputs (by decide)
  obtain ⟨u, hu, hgrounds⟩ := exists_entered s
  simp only [Firing.grounds, Prod.mk.injEq] at hgrounds
  obtain ⟨hdemand, hreport, hcall, hpath, htext, hwire, hstatus, hdiverter, -⟩ := hgrounds
  have hfired : s.firing.anyCall = true ∧ s.firing.pathExists = true ∧ permitted s = true := by
    unfold selection at hselected
    split_ifs at hselected with hany hexists hpermitted
    exact ⟨hany, hexists, hpermitted⟩
  obtain ⟨hany, hexists, hpermitted⟩ := hfired
  have hcalled : s.firing.call = true := by
    simpa [Firing.anyCall, Firing.heatingCall, Firing.heatingZones, hcalling] using hany
  have hfiring : (enterFiring s).firing = { u.firing with hold := none } := by
    rw [hu]
    refine releaseAnyHold_of_call (hcall.trans hcalled) (hdiverter.trans ?_)
    rw [hfollows, hcalled, Bool.true_or]
  have hstillCalled : (enterFiring s).firing.anyCall = true := by simp [Firing.anyCall, hfiring, hcall, hcalled]
  have hstillPath : (enterFiring s).firing.pathExists = true := by
    simpa only [Firing.pathExists, hfiring, hreport, hpath] using hexists
  have hstillFree : unobstructed (enterFiring s) = true := by
    have hfree : unobstructed s = true := (Bool.and_eq_true _ _ ▸ hpermitted).1
    simpa only [unobstructed, Firing.flowKnown, hfiring, hinterlock, htext, hwire, hstatus] using hfree
  simp [mustStop, hstillCalled, hstillPath, hstillFree]

end Sys2Proof.Machine

namespace Sys2Proof.Machine

/-! ## The controller at SOFT RESET (R143) -/

/-- To the events raised before, a soft reset adds one BURNER_OFF at most, and behind it events of `settlingKinds`. -/
def StopsOnce (before after : List SourceEvent) : Prop :=
  ∃ stops own, after = before ++ (stops ++ own) ∧ stops.length ≤ 1 ∧ (∀ e ∈ stops, e.kind = .burnerOff) ∧
    ∀ e ∈ own, e.kind ∈ settlingKinds

theorem StopsOnce.settling {before : List SourceEvent} {s t : State} (h : StopsOnce before s.raised)
    (k : Settling s t) : StopsOnce before t.raised := by
  obtain ⟨stops, own, hraised, hlength, hstops, hown⟩ := h
  obtain ⟨more, hmore, hkinds⟩ := k.events
  exact ⟨stops, own ++ more, by rw [hmore, hraised]; simp only [List.append_assoc], hlength, hstops,
    List.forall_mem_append.2 ⟨hown, hkinds⟩⟩

theorem Settling.stopsOnce {s t : State} (k : Settling s t) : StopsOnce s.raised t.raised :=
  StopsOnce.settling ⟨[], [], by simp, Nat.zero_le _, nofun, nofun⟩ k

theorem leaveFiring_stopsOnce (s : State) : StopsOnce s.raised (leaveFiring s).raised := by
  unfold leaveFiring setBurner
  split
  · exact ⟨[], [], by simp [modFiring], Nat.zero_le _, nofun, nofun⟩
  · exact ⟨[⟨.burnerOff, 0⟩], [], rfl, le_rfl, by simp, nofun⟩

theorem leaveFiring_memory (s : State) : (leaveFiring s).firing.memory = s.firing.memory := by
  unfold leaveFiring setBurner
  split <;> rfl

section
variable (s : State)

theorem setPump_state (on : Bool) : (setPump on s).firing.state = s.firing.state := by
  unfold setPump
  split <;> rfl

theorem setDiverter_state : (setDiverter s).firing.state = s.firing.state := by
  unfold setDiverter
  dsimp only
  split <;> rfl

theorem releaseHold_state : (releaseHold s).firing.state = s.firing.state := setDiverter_state _

theorem releaseAnyHold_state : (releaseAnyHold s).firing.state = s.firing.state := by
  unfold releaseAnyHold
  split
  · exact releaseHold_state s
  · rfl

theorem formFlow_state : (formFlow s).firing.state = s.firing.state := by
  unfold formFlow
  split
  · split <;> rfl
  · rfl

theorem startCall_state : (startCall s).firing.state = s.firing.state :=
  (formFlow_state _).trans (setDiverter_state _)

theorem endCall_state : (endCall s).firing.state = s.firing.state := (formFlow_state _).trans (setDiverter_state _)

theorem startCall_follows : (startCall s).firing.DiverterFollows := (setDiverter_follows _).congr (formFlow_grounds _)

theorem endCall_follows : (endCall s).firing.DiverterFollows := (setDiverter_follows _).congr (formFlow_grounds _)

/-- FIRING goes to OVERRUN. -/
theorem startOverrun_state : (startOverrun s).firing.state = .overrun := by
  unfold startOverrun
  dsimp only
  split <;> rfl

/-- The states other than FIRING and LOCKOUT go to IDLE with the pump OFF. -/
def idleAgain : State :=
  releaseAnyHold (setPump false (modFiring (fun f => { f with state := .idle, overrun := none }) s))

theorem idleAgain_settling : Settling s (idleAgain s) :=
  ((modFiring_settling rfl).andThen (setPump_settling · _)).andThen releaseAnyHold_settling

theorem idleAgain_state : (idleAgain s).firing.state = .idle := (releaseAnyHold_state _).trans (setPump_state _ _)

/-- What the state machine does at a soft reset: at most one BURNER_OFF, the memory kept, and FIRING left. -/
theorem restartStates_spec : StopsOnce s.raised (restartStates s).raised ∧
    (restartStates s).firing.memory = s.firing.memory ∧ (restartStates s).firing.state ≠ .firing := by
  have hidle : StopsOnce s.raised (idleAgain s).raised ∧ (idleAgain s).firing.memory = s.firing.memory ∧
      (idleAgain s).firing.state ≠ .firing :=
    ⟨(idleAgain_settling s).stopsOnce, (idleAgain_settling s).memory, by rw [idleAgain_state]; decide⟩
  unfold restartStates
  split
  · refine ⟨(leaveFiring_stopsOnce s).settling (startOverrun_settling _),
      (startOverrun_settling _).memory.trans (leaveFiring_memory s), ?_⟩
    rw [startOverrun_state]
    decide
  · next hlockout =>
    split
    · have hstays : (fixHold s).firing.state = .lockout := hlockout
      exact ⟨(fixHold_settling s).stopsOnce, rfl, by rw [hstays]; decide⟩
    · exact ⟨(Settling.refl s).stopsOnce, rfl, by rw [hlockout]; decide⟩
  · exact hidle
  · exact hidle
  · exact hidle
  · exact hidle

/-- The timed call is stopped. -/
def callForgotten : State := modFiring (fun f => { f with timedCall := none }) s

theorem clearCall_settling : Settling (callForgotten s) (clearCall s) := by
  unfold clearCall
  dsimp only
  split
  · exact endCall_settling _
  · exact setDiverter_settling _

theorem clearCall_state : (clearCall s).firing.state = s.firing.state := by
  unfold clearCall
  dsimp only
  split
  · exact endCall_state _
  · exact setDiverter_state _

theorem clearCall_follows : (clearCall s).firing.DiverterFollows := by
  unfold clearCall
  dsimp only
  split
  · exact endCall_follows _
  · exact setDiverter_follows _

theorem retakeCall_state : (retakeCall s).firing.state = s.firing.state := by
  unfold retakeCall
  split
  · exact startCall_state s
  · rfl

theorem retakeCall_follows (h : s.firing.DiverterFollows) : (retakeCall s).firing.DiverterFollows := by
  unfold retakeCall
  split
  · exact startCall_follows s
  · exact h

/-- The memory that a soft reset leaves, with a report: the timed call stopped and no demand. -/
def Firing.memoryAfterReset (f : Firing) (report : PathReport) :
    Bool × Bool × Option Nat × Option Nat × Demand × PathReport :=
  (f.inhibitText, f.inhibitWire, f.faultTimer, none, blankDemand, report)

end

/-- The controller restarted from s to t: the events raised, the memory left, the diverter in its place, FIRING left. -/
structure ControllerRestarted (s t : State) : Prop where
  events : StopsOnce s.raised t.raised
  memory : t.firing.memory = s.firing.memoryAfterReset s.firing.report
  follows : t.firing.DiverterFollows
  left : t.firing.state ≠ .firing

theorem restartController_restarted (s : State) : ControllerRestarted s (restartController s) := by
  obtain ⟨hevents, hmemory, hleft⟩ := restartStates_spec (dropHeldDiverter (clearFiring s))
  have hcleared : (restartFiring (clearFiring s)).firing.memory = (clearFiring s).firing.memory := hmemory
  have hcall := clearCall_settling (restartFiring (clearFiring s))
  have hretaken := retakeCall_settling (clearCall (restartFiring (clearFiring s)))
  refine ⟨?_, ?_, retakeCall_follows _ (clearCall_follows _), ?_⟩
  · exact (StopsOnce.settling (s := callForgotten (restartFiring (clearFiring s))) hevents hcall).settling hretaken
  · refine hretaken.memory.trans (hcall.memory.trans ?_)
    simp only [Firing.memory, Prod.mk.injEq] at hcleared
    obtain ⟨htext, hwire, hfault, -, hdemand, hreport⟩ := hcleared
    simp only [Firing.memory, Firing.memoryAfterReset, Prod.mk.injEq]
    exact ⟨htext, hwire, hfault, rfl, hdemand, hreport⟩
  · rw [restartController, retakeCall_state, clearCall_state]
    exact hleft

/-! ## The driver and the controller together (R115, R143) -/

/-- The driver and the controller restarted in either order, before the report. -/
def bothRestarted (driverFirst : Bool) (s : State) : State :=
  if driverFirst then restartController (restartDriver s) else restartDriver (restartController s)

theorem restartControl_eq (driverFirst : Bool) (s : State) :
    restartControl driverFirst s = settle (settleReport (bothRestarted driverFirst s)) := rfl

theorem bothRestarted_restarted (driverFirst : Bool) (s : State) :
    ControllerRestarted s (bothRestarted driverFirst s) := by
  cases driverFirst
  · have h := restartController_restarted s
    exact ⟨h.events, h.memory, h.follows, h.left⟩
  · have h := restartController_restarted (restartDriver s)
    exact ⟨h.events, h.memory, h.follows, h.left⟩

/-- The driver's channels and its copy of the demand update are restarted in either order. -/
theorem bothRestarted_valves (driverFirst : Bool) (s : State) :
    (∀ v, (bothRestarted driverFirst s).valves.channels.get v = (s.valves.channels.get v).restart) ∧
      (bothRestarted driverFirst s).valves.demand = blankDemand := by
  cases driverFirst
  · obtain ⟨hchannels, -, -⟩ := (restartController_reaches s).2
    refine ⟨fun v => ?_, rfl⟩
    show (restartDriver (restartController s)).valves.channels.get v = _
    rw [restartDriver_channel, hchannels]
  · obtain ⟨hchannels, hdemand, -⟩ := (restartController_reaches (restartDriver s)).2
    refine ⟨fun v => ?_, hdemand⟩
    show (restartController (restartDriver s)).valves.channels.get v = _
    rw [hchannels, restartDriver_channel]

/-- The driver's report handed to the controller as it stands. -/
def reported (s : State) : State :=
  modFiring (fun f => { f with report := computeReport s }) (setReport (computeReport s) s)

theorem settleReport_eq (s : State) : settleReport s =
    if (reported s).firing.state = .overrun ∧ (reported s).firing.overrun.isNone then endOverrun (reported s)
    else reported s := rfl

theorem settleReport_settling (s : State) : Settling (reported s) (settleReport s) := by
  rw [settleReport_eq]
  split
  · exact endOverrun_settling _
  · exact .refl _

theorem settleReport_written (s : State) : OnlyHoldWritten (reported s).valves (settleReport s).valves := by
  rw [settleReport_eq]
  split
  · exact (endOverrun_reaches _).2
  · exact .refl _

/-- The selection enters FIRING for a call that lasts. -/
theorem select_mustStop {s : State} (hfollows : s.firing.DiverterFollows) (hcalling : s.firing.demand.calling = 0)
    (h : (select s).firing.state = .firing) : mustStop (select s) = false := by
  unfold select at h ⊢
  split at h
  · next hselected =>
    rw [if_pos hselected]
    exact enterFiring_mustStop hselected hfollows hcalling
  · next hselected => exact absurd h hselected

theorem selectQuiet_mustStop {s : State} (hquiet : s.firing.state ≠ .firing) (hfollows : s.firing.DiverterFollows)
    (hcalling : s.firing.demand.calling = 0) (h : (selectQuiet s).firing.state = .firing) :
    mustStop (selectQuiet s) = false := by
  unfold selectQuiet at h ⊢
  split at h
  · exact select_mustStop hfollows hcalling h
  · exact select_mustStop hfollows hcalling h
  · exact select_mustStop hfollows hcalling h
  all_goals exact absurd h hquiet

/-- Where the run-on ends in FIRING, FIRING need not be left. -/
theorem endOverrun_mustStop {s : State} (hfollows : s.firing.DiverterFollows) (hcalling : s.firing.demand.calling = 0)
    (h : (endOverrun s).firing.state = .firing) : mustStop (endOverrun s) = false := by
  unfold endOverrun at h ⊢
  split at h
  · next hselected =>
    rw [if_pos hselected]
    exact enterFiring_mustStop hselected hfollows hcalling
  · next hselected =>
    rw [if_neg hselected]
    have hmemory := ((setPump_settling s false).andThen releaseHold_settling).memory
    simp only [Firing.memory, Prod.mk.injEq] at hmemory
    obtain ⟨-, -, -, -, hdemand, -⟩ := hmemory
    refine selectQuiet_mustStop hselected (setDiverter_follows _) ?_ h
    exact (congrArg Demand.calling hdemand).trans hcalling

end Sys2Proof.Machine

namespace Sys2Proof.Machine

/-! ## What the driver and the controller leave after a soft reset -/

/-- The report looks at the settings, the channels and the demand update of the driver (R111). -/
theorem computeReport_congr {s t : State} (hsettings : t.settings = s.settings)
    (hchannels : t.valves.channels = s.valves.channels) (hdemand : t.valves.demand = s.valves.demand) :
    computeReport t = computeReport s := by
  simp only [computeReport, zoneHasPath, hsettings, hchannels, hdemand]

/-- The driver and the controller restarted from s to t (R115, R143). -/
structure ControlRestarted (s t : State) : Prop where
  channels : ∀ v, t.valves.channels.get v = (s.valves.channels.get v).restart
  demand : t.valves.demand = blankDemand
  report : t.valves.report = computeReport t
  memory : t.firing.memory = s.firing.memoryAfterReset t.valves.report
  events : StopsOnce s.raised t.raised

theorem restartControl_restarted (driverFirst : Bool) (s : State) :
    ControlRestarted s (restartControl driverFirst s) := by
  rw [restartControl_eq]
  obtain ⟨hchannels, hdemand⟩ := bothRestarted_valves driverFirst s
  obtain ⟨hevents, hmemory, hfollows, hleft⟩ := bothRestarted_restarted driverFirst s
  generalize bothRestarted driverFirst s = x at *
  have hreported : (reported x).firing.memory = s.firing.memoryAfterReset (computeReport x) := by
    simp only [Firing.memory, Firing.memoryAfterReset, Prod.mk.injEq] at hmemory
    obtain ⟨htext, hwire, hfault, htimed, hcopy, -⟩ := hmemory
    simp only [Firing.memory, Firing.memoryAfterReset, Prod.mk.injEq]
    exact ⟨htext, hwire, hfault, htimed, hcopy, rfl⟩
  have hcalling : (reported x).firing.demand.calling = 0 := by
    simp only [Firing.memory, Firing.memoryAfterReset, Prod.mk.injEq] at hreported
    obtain ⟨-, -, -, -, hcopy, -⟩ := hreported
    exact congrArg Demand.calling hcopy
  have hstays : (settleReport x).firing.state = .firing → mustStop (settleReport x) = false := by
    rw [settleReport_eq]
    split
    · exact endOverrun_mustStop hfollows hcalling
    · exact fun hfiring => absurd hfiring hleft
  have hsettled := (settleReport_settling x).trans (settle_settling _ hstays)
  have hwritten : OnlyHoldWritten (reported x).valves (settle (settleReport x)).valves :=
    (settleReport_written x).trans (settle_reaches _).2
  have hsettings : (settle (settleReport x)).settings = x.settings :=
    ((settleReport_keeps x).trans (settle_reaches _).1) .settings (by decide)
  have hreport : (settle (settleReport x)).valves.report = computeReport x := hwritten.2.2
  exact {
    channels := fun v => (congrArg (Tab.get · v) hwritten.1).trans (hchannels v)
    demand := hwritten.2.1.trans hdemand
    report := hreport.trans (computeReport_congr hsettings hwritten.1 hwritten.2.1).symm
    memory := by rw [hsettled.memory, hreported, hreport]
    events := StopsOnce.settling (s := reported x) hevents hsettled }

/-! ## A soft reset at rest raises nothing -/

/-- No event is raised, the pump is OFF, the controller is in neither FIRING nor OVERRUN, and there is no hot-water call
and no cause of one but a timed call. -/
structure AtRest (s : State) : Prop where
  raised : s.raised = []
  pump : s.firing.pump = false
  notFiring : s.firing.state ≠ .firing
  notOverrun : s.firing.state ≠ .overrun
  call : s.firing.call = false
  unwanted : ownCondition s = false

section
variable {s : State} (h : AtRest s)
include h

/-- Rest looks at the events, the pump, the state, the call, and what the mode's own condition looks at. -/
theorem AtRest.congr {t : State} (hraised : t.raised = s.raised) (hpump : t.firing.pump = s.firing.pump)
    (hstate : t.firing.state = s.firing.state ∨ t.firing.state = .idle) (hcall : t.firing.call = s.firing.call)
    (hsettings : t.settings = s.settings) (hinputs : t.inputs = s.inputs)
    (hschedule : t.firing.schedule = s.firing.schedule) : AtRest t where
  raised := hraised.trans h.raised
  pump := hpump.trans h.pump
  notFiring := by rcases hstate with hstate | hstate <;> rw [hstate]; exacts [h.notFiring, by decide]
  notOverrun := by rcases hstate with hstate | hstate <;> rw [hstate]; exacts [h.notOverrun, by decide]
  call := hcall.trans h.call
  unwanted := by
    have := h.unwanted
    simpa only [ownCondition, hsettings, hinputs, hschedule] using this

theorem AtRest.setDiverter : AtRest (setDiverter s) := by
  unfold Machine.setDiverter
  dsimp only
  split
  · exact h
  · exact h.congr rfl rfl (.inl rfl) rfl rfl rfl rfl

theorem AtRest.releaseAnyHold : AtRest (releaseAnyHold s) := by
  unfold Machine.releaseAnyHold
  split
  · have hreleased : AtRest (writeHold 0 (modFiring (fun f => { f with hold := none }) s)) :=
      h.congr rfl rfl (.inl rfl) rfl rfl rfl rfl
    exact hreleased.setDiverter
  · exact h

theorem AtRest.idleAgain : AtRest (idleAgain s) := by
  have hidle : AtRest (modFiring (fun f => { f with state := .idle, overrun := none }) s) :=
    h.congr rfl rfl (.inr rfl) rfl rfl rfl rfl
  have hpump : setPump false (modFiring (fun f => { f with state := .idle, overrun := none }) s) =
      modFiring (fun f => { f with state := .idle, overrun := none }) s := if_pos h.pump
  unfold Machine.idleAgain
  rw [hpump]
  exact hidle.releaseAnyHold

theorem AtRest.restartStates : AtRest (restartStates s) := by
  unfold Machine.restartStates
  split
  · next hfiring => exact absurd hfiring h.notFiring
  · split
    · exact h.congr rfl rfl (.inl rfl) rfl rfl rfl rfl
    · exact h
  all_goals exact h.idleAgain

theorem AtRest.clearCall : AtRest (clearCall s) := by
  have hforgotten : AtRest (callForgotten s) := h.congr rfl rfl (.inl rfl) rfl rfl rfl rfl
  have hclear : Machine.clearCall s = Machine.setDiverter (callForgotten s) := by
    simp only [Machine.clearCall, h.call]
    rfl
  rw [hclear]
  exact hforgotten.setDiverter

theorem AtRest.retakeCall (htimed : s.firing.timedCall = none) : AtRest (retakeCall s) := by
  have hunwanted : callWanted s = false := by simp [callWanted, h.unwanted, htimed]
  rw [Machine.retakeCall, if_neg (by simp [hunwanted])]
  exact h

theorem AtRest.restartController : AtRest (restartController s) := by
  have hcleared : AtRest (dropHeldDiverter (clearFiring s)) := h.congr rfl rfl (.inl rfl) rfl rfl rfl rfl
  refine hcleared.restartStates.clearCall.retakeCall ?_
  have hmemory := (clearCall_settling (restartFiring (clearFiring s))).memory
  simp only [Firing.memory, Prod.mk.injEq] at hmemory
  obtain ⟨-, -, -, htimed, -⟩ := hmemory
  exact htimed

theorem AtRest.bothRestarted (driverFirst : Bool) : AtRest (bothRestarted driverFirst s) := by
  have hdriver : ∀ {u}, AtRest u → AtRest (restartDriver u) := fun hu =>
    hu.congr rfl rfl (.inl rfl) rfl rfl rfl rfl
  cases driverFirst
  · exact hdriver h.restartController
  · exact (hdriver h).restartController

/-- Without a call and without demand the selection is IDLE, and its entry raises nothing. -/
theorem AtRest.settle_raised (hcalling : s.firing.demand.calling = 0) : (settle s).raised = [] := by
  have hselected : selection s = .idle := by
    simp [selection, Firing.anyCall, Firing.heatingCall, Firing.heatingZones, Firing.zoneDemand, hcalling, h.call]
  have hselect : (select s).raised = [] := by
    rw [select, if_neg (by rw [hselected]; decide)]
    exact h.raised
  unfold settle
  split
  · exact hselect
  · exact hselect
  · exact hselect
  · next hoverrun => exact absurd hoverrun h.notOverrun
  · next hfiring => exact absurd hfiring h.notFiring
  · exact h.raised

theorem AtRest.restartControl_raised (driverFirst : Bool) : (restartControl driverFirst s).raised = [] := by
  have hboth := h.bothRestarted driverFirst
  have hmemory := (bothRestarted_restarted driverFirst s).memory
  rw [restartControl_eq]
  generalize Machine.bothRestarted driverFirst s = x at *
  have hreported : AtRest (reported x) := hboth.congr rfl rfl (.inl rfl) rfl rfl rfl rfl
  rw [settleReport_eq, if_neg fun hover => hreported.notOverrun hover.1]
  refine hreported.settle_raised ?_
  simp only [Firing.memory, Firing.memoryAfterReset, Prod.mk.injEq] at hmemory
  obtain ⟨-, -, -, -, hcopy, -⟩ := hmemory
  exact congrArg Demand.calling hcopy

end

/-! ## What the matrix shows after its own reset (R154) -/

/-- A MASTER line keeps its state whatever the matrix takes (R148). -/
theorem takeEvents_master {line : Fin 8} (events : List SourceEvent) (s : State)
    (h : s.settings.linked.get line = false) :
    (takeEvents events s).links.lines.getLsbD line.val = s.links.lines.getLsbD line.val := by
  induction events generalizing s with
  | nil => rfl
  | cons v events ih =>
    have htaken : (takeEvent v s).links.lines.getLsbD line.val = s.links.lines.getLsbD line.val := by
      simp [takeEvent, Links.take, lineAfter, h]
    exact (ih (takeEvent v s) h).trans htaken

/-- The fire count of a channel on a matrix that has taken events alone: no more than the events of its kind. -/
theorem takeEvents_counts_le (events : List SourceEvent) {s : State} (hblank : s.links = blankLinks) (e : Fin 8) :
    (takeEvents events s).links.counts.get e ≤
      events.countP fun v => (s.settings.events.get e).enabled && decide (v.kind = (s.settings.events.get e).kind) := by
  have hzero : s.links.counts.get e = 0 := by rw [hblank]; exact Tab.get_all _ e
  have hfires : events.countP (fun v => fires (s.settings.events.get e) v.kind v.parameter) ≤
      events.countP fun v => (s.settings.events.get e).enabled && decide (v.kind = (s.settings.events.get e).kind) := by
    refine List.countP_mono_left fun v _ hv => ?_
    simp only [fires, Bool.and_eq_true, decide_eq_true_eq] at hv ⊢
    exact ⟨hv.1.1, hv.1.2.symm⟩
  rw [takeEvents_counts, hzero]
  split
  · exact Nat.zero_le _
  · exact (Nat.mod_le _ _).trans ((Nat.zero_add _).le.trans hfires)

/-- The matrix after the reset has taken, on a blank record, the events that were left. -/
theorem takeAroundReset_links (early : Nat) (s : State) : ∃ u, u.links = blankLinks ∧ u.settings = s.settings ∧
    (takeAroundReset early s).links = (takeEvents (s.raised.drop early) u).links :=
  ⟨restartMatrix (takeEvents (s.raised.take early) s), rfl,
    takeEvents_keeps (s.raised.take early) s .settings (by decide), rfl⟩

/-- Of the events of a soft reset none is of another kind than BURNER_OFF and `settlingKinds`. -/
theorem StopsOnce.kinds {events : List SourceEvent} (h : StopsOnce [] events) :
    ∀ e ∈ events, e.kind ∈ SourceKind.burnerOff :: settlingKinds := by
  obtain ⟨stops, own, rfl, -, hstops, hown⟩ := h
  rw [List.nil_append]
  exact List.forall_mem_append.2 ⟨fun e he => hstops e he ▸ List.mem_cons_self .., fun e he =>
    List.mem_cons_of_mem _ (hown e he)⟩

/-- Of the events of a soft reset one at most is a BURNER_OFF. -/
theorem StopsOnce.burnerOff_le {events : List SourceEvent} (h : StopsOnce [] events) :
    events.countP (fun v => decide (v.kind = .burnerOff)) ≤ 1 := by
  obtain ⟨stops, own, rfl, hlength, -, hown⟩ := h
  have hnone : own.countP (fun v => decide (v.kind = .burnerOff)) = 0 := by
    rw [List.countP_eq_zero]
    intro v hv hkind
    have hmem := of_decide_eq_true hkind ▸ hown v hv
    exact absurd hmem (by decide)
  rw [List.nil_append, List.countP_append, hnone]
  exact (List.countP_le_length).trans hlength

end Sys2Proof.Machine

namespace Sys2Proof.Machine

/-! ## SOFT RESET as a whole (R182) -/

/-- The state of a soft reset in which the capture unit, the regulator and the notices have restarted. -/
def restartBegun (s : State) : State :=
  restartNotices (restartRegulator (restartCapture { nothingRaised s with orders := s.orders.rest }))

/-- The state in which the driver and the controller have restarted too. -/
def restartControlled (s : State) : State := restartControl s.orders.next.driverFirst (restartBegun s)

/-- The state in which the matrix has taken the events of the reset. -/
def restartTaken (s : State) : State := takeAroundReset s.orders.next.matrixAt (restartControlled s)

/-- The state after SOFT RESET on a port. -/
def softReset (p : Port) (s : State) : State :=
  setRaised s.raised (restartPorts p s.orders.next (resolve (restartTaken s)))

/-- SOFT RESET leaves the matrix nothing more to take. -/
theorem exec_softReset (p : Port) {s : State} (hp : s.powered = true) :
    exec (.softReset p) s = .next (softReset p s) := by
  have hquiet : (withOrder (softResetBlock p) (nothingRaised s)).raised = [] := rfl
  show event (withOrder (softResetBlock p)) s = _
  rw [event_powered _ _ hp, withMatrix_of_quiet hquiet]
  rfl

/-- The driver, the controller and the matrix restart between themselves. -/
theorem restartTaken_keeps (s : State) :
    Keeps [.firing, .valves, .raised, .links] (restartBegun s) (restartTaken s) :=
  ((restartControl_keeps _ _).mono (by decide)).trans ((takeAroundReset_keeps _ _).mono (by decide))

theorem softReset_keeps (p : Port) (s : State) :
    Keeps [.overrides, .capture, .regulator, .valves, .firing, .links, .notices, .text, .wire, .handed, .answered,
      .orders] s (softReset p s) := by
  have hkeeps := restartTaken_keeps s
  intro part hpart
  cases part
  case powered => exact hkeeps .powered (by decide)
  case clock => exact hkeeps .clock (by decide)
  case program => exact hkeeps .program (by decide)
  case inputs => exact hkeeps .inputs (by decide)
  case settings => exact hkeeps .settings (by decide)
  case store => exact hkeeps .store (by decide)
  case pending => exact hkeeps .pending (by decide)
  case raised => rfl
  all_goals simp at hpart

/-- The table is kept and its setpoints resolved (R57). -/
theorem softReset_overrides (p : Port) (s : State) :
    (softReset p s).overrides.slots = s.overrides.slots ∧ SetpointsResolved (softReset p s) := by
  have hoverrides : (restartTaken s).overrides = s.overrides := restartTaken_keeps s .overrides (by decide)
  have hslots : (softReset p s).overrides.slots = (restartTaken s).overrides.slots := rfl
  exact ⟨hslots.trans (congrArg Overrides.slots hoverrides), resolve_resolved (restartTaken s)⟩

/-- The driver and the controller are as `ControlRestarted` says. -/
theorem softReset_control (p : Port) (s : State) :
    (∀ v, (softReset p s).valves.channels.get v = (s.valves.channels.get v).restart) ∧
      (softReset p s).valves.demand = blankDemand ∧
      (softReset p s).valves.report = computeReport (softReset p s) ∧
      (softReset p s).firing.memory = s.firing.memoryAfterReset (softReset p s).valves.report := by
  obtain ⟨hchannels, hdemand, hreport, hmemory, -⟩ :=
    restartControl_restarted s.orders.next.driverFirst (restartBegun s)
  have htaken := takeAroundReset_keeps (restartControlled s) s.orders.next.matrixAt
  have hvalves : (softReset p s).valves = (restartControlled s).valves := htaken .valves (by decide)
  have hfiring : (softReset p s).firing = (restartControlled s).firing := htaken .firing (by decide)
  have hsettings : (softReset p s).settings = (restartControlled s).settings := htaken .settings (by decide)
  have hsame : computeReport (softReset p s) = computeReport (restartControlled s) :=
    computeReport_congr hsettings (by rw [hvalves]) (by rw [hvalves])
  rw [hvalves, hfiring, hsame]
  exact ⟨hchannels, hdemand, hreport, hmemory⟩

/-- A valve channel as a soft reset leaves it (R115). -/
theorem restart_spec (v : ValveChannel) :
    v.restart.position = v.position ∧ v.restart.demandDuty = 0 ∧ v.restart.hold = false ∧
      v.restart.endSwitch = v.endSwitch ∧
      (v.state ≠ .fault →
        v.restart.outputDuty = 0 ∧ v.restart.drive = false ∧ v.restart.running = false ∧ v.restart.appliedDuty = 0 ∧
          v.restart.confirmTimer = none ∧ v.restart.state = if v.position = 0 then .closed else .closing) ∧
      (v.state = .fault → v.restart.state = .fault) := by
  by_cases h : v.state = .fault
  · rw [restart_of_fault h]
    exact ⟨rfl, rfl, rfl, rfl, fun hne => absurd h hne, fun _ => h⟩
  · rw [restart_of_not_fault h]
    exact ⟨rfl, rfl, rfl, rfl, fun _ => ⟨rfl, rfl, rfl, rfl, rfl, rfl⟩, fun heq => absurd heq h⟩

/-- Lines and counts after a soft reset are a blank record that has taken events of that reset alone (R154). -/
theorem softReset_links (p : Port) (s : State) : ∃ u events, u.links = blankLinks ∧ u.settings = s.settings ∧
    events.Sublist (restartControlled s).raised ∧ (softReset p s).links = (takeEvents events u).links := by
  obtain ⟨u, hblank, hsettings, hlinks⟩ := takeAroundReset_links s.orders.next.matrixAt (restartControlled s)
  have hkept : (restartControlled s).settings = s.settings :=
    restartControl_keeps (restartBegun s) _ .settings (by decide)
  exact ⟨u, _, hblank, hsettings.trans hkept, List.drop_sublist _ _, hlinks⟩

theorem restartControlled_stopsOnce (s : State) : StopsOnce [] (restartControlled s).raised :=
  (restartControl_restarted s.orders.next.driverFirst (restartBegun s)).events

theorem softReset_master (p : Port) {s : State} {line : Fin 8} (h : s.settings.linked.get line = false) :
    (softReset p s).links.lines.getLsbD line.val = false := by
  obtain ⟨u, events, hblank, hsettings, -, hlinks⟩ := softReset_links p s
  rw [hlinks, takeEvents_master events u (by rwa [hsettings]), hblank]
  exact BitVec.getLsbD_zero

/-- A channel that is disabled, or of a kind that a soft reset does not raise, has the count 0. -/
theorem softReset_count_zero (p : Port) {s : State} {e : Fin 8}
    (h : (s.settings.events.get e).enabled = false ∨
      (s.settings.events.get e).kind ∉ SourceKind.burnerOff :: settlingKinds) :
    (softReset p s).links.counts.get e = 0 := by
  obtain ⟨u, events, hblank, hsettings, hevents, hlinks⟩ := softReset_links p s
  have hcount := takeEvents_counts_le events hblank e
  rw [hsettings] at hcount
  rw [hlinks]
  refine Nat.le_zero.1 (hcount.trans (List.countP_eq_zero.2 fun v hv hfires => ?_).le)
  simp only [Bool.and_eq_true, decide_eq_true_eq] at hfires
  obtain ⟨henabled, hkind⟩ := hfires
  rcases h with h | h
  · rw [h] at henabled
    cases henabled
  · exact h (hkind ▸ (restartControlled_stopsOnce s).kinds v (hevents.subset hv))

theorem softReset_count_burnerOff (p : Port) {s : State} {e : Fin 8} (h : (s.settings.events.get e).kind = .burnerOff) :
    (softReset p s).links.counts.get e ≤ 1 := by
  obtain ⟨u, events, hblank, hsettings, hevents, hlinks⟩ := softReset_links p s
  have hcount := takeEvents_counts_le events hblank e
  rw [hsettings, h] at hcount
  rw [hlinks]
  refine hcount.trans (LE.le.trans ?_ ((hevents.countP_le).trans (restartControlled_stopsOnce s).burnerOff_le))
  exact List.countP_mono_left fun v _ hv => (Bool.and_eq_true _ _ ▸ hv).2

/-- Where nothing is raised the matrix stays blank. -/
theorem softReset_links_of_rest (p : Port) {s : State} (h : AtRest (restartBegun s)) :
    (softReset p s).links = blankLinks := by
  obtain ⟨u, events, hblank, -, hevents, hlinks⟩ := softReset_links p s
  have hnone : events = [] := by
    refine List.sublist_nil.1 ?_
    rw [← h.restartControl_raised s.orders.next.driverFirst]
    exact hevents
  rw [hlinks, hnone]
  exact hblank

/-- Without an own condition of the mode, with its lines OFF and no call, the part is at rest when the reset begins. -/
theorem restartBegun_atRest {s : State} (hpump : s.firing.pump = false) (hfiring : s.firing.state ≠ .firing)
    (hoverrun : s.firing.state ≠ .overrun) (hcall : s.firing.call = false)
    (hmode : s.settings.hotWater.mode = .off ∨ s.settings.hotWater.mode = .pulse ∨ s.inputs.request = false) :
    AtRest (restartBegun s) where
  raised := rfl
  pump := hpump
  notFiring := hfiring
  notOverrun := hoverrun
  call := hcall
  unwanted := by
    have hown : ownCondition s = false := by
      unfold ownCondition
      rcases hmode with hmode | hmode | hrequest
      · rw [hmode]
      · rw [hmode]
      · rw [hrequest]
        split <;> rfl
    exact hown

/-- The responses of the commands that a soft reset finds with their blocks will be dropped (R171). -/
theorem dropHanded_live (c : Instr) (handed : List Handed) : ∀ h ∈ dropHanded c handed, h.live = false := by
  intro h hmem
  obtain ⟨-, -, rfl⟩ := List.mem_map.1 hmem
  rfl

/-- One character at most stays on the line, and it is one of those that were on their way (R171). -/
theorem onTheLine_spec (sent : Nat) (line : List Byte) :
    (onTheLine sent line).length ≤ 1 ∧ ∀ c ∈ onTheLine sent line, c ∈ line :=
  ⟨List.length_take_le _ _, fun _ hc => List.mem_of_mem_drop (List.mem_of_mem_take hc)⟩

/-- The text port is cleared but for the character on its line, and the OK takes a place on the carrying port (R171). -/
theorem softReset_text (p : Port) (s : State) : (softReset p s).text = { blankText with
    places := match p with | .text => [.ready (.ok [])] | .wire => []
    transmitting := onTheLine s.orders.next.onLine s.text.transmitting } := by
  have htext : (restartTaken s).text = s.text := restartTaken_keeps s .text (by decide)
  rw [← htext]
  rfl

/-- The two-wire port is cleared with its address taken afresh, and holds the OK on the carrying port (R161, R171). -/
theorem softReset_wire (p : Port) (s : State) :
    (softReset p s).wire = { blankWire s.wire.bus s.settings.wireAddress with
      record := match p with | .text => .statusRecord | .wire => .judged 0x93 (.ok []) } := by
  have hwire : (restartTaken s).wire = s.wire := restartTaken_keeps s .wire (by decide)
  have hsettings : (restartTaken s).settings = s.settings := restartTaken_keeps s .settings (by decide)
  rw [← hwire, ← hsettings]
  rfl

/-- The capture unit starts blank and keeps its publication (R77). -/
theorem softReset_capture (p : Port) (s : State) :
    (softReset p s).capture = { blankCapture s.capture.channels with publication := s.capture.publication } :=
  restartTaken_keeps s .capture (by decide)

/-- The pending records are emptied under their masks (R176). -/
theorem softReset_notices (p q : Port) (s : State) :
    (softReset p s).notices.of q = emptyNotices (s.notices.of q).mask := by
  have hnotices : (softReset p s).notices = (restartBegun s).notices := restartTaken_keeps s .notices (by decide)
  rw [hnotices]
  cases q <;> rfl

theorem softReset_regulator (p : Port) (s : State) : (softReset p s).regulator = blankRegulator :=
  restartTaken_keeps s .regulator (by decide)

/-- Settles O9: block by block, what the reset leaves in each. -/
theorem softResetKeepsAndRestarts : Obligations.SoftResetKeepsAndRestarts := by
  intro p s hp
  obtain ⟨hslots, hresolved⟩ := softReset_overrides p s
  obtain ⟨hchannels, hdemand, hreport, hmemory⟩ := softReset_control p s
  simp only [Firing.memory, Firing.memoryAfterReset, Prod.mk.injEq] at hmemory
  obtain ⟨hinhibitText, hinhibitWire, hfault, htimed, hcopy, hhanded⟩ := hmemory
  obtain ⟨hshort, hon⟩ := onTheLine_spec s.orders.next.onLine s.text.transmitting
  refine ⟨softReset p s, exec_softReset p hp, softReset_keeps p s, hslots, hresolved, softReset_regulator p s, ?_⟩
  rw [softReset_capture, softReset_text, softReset_wire]
  refine ⟨rfl, rfl, rfl, Tab.get_all _, Tab.get_ofFn _, fun v => ?_, hdemand, hreport, hhanded, hinhibitText,
    hinhibitWire, hfault, htimed, hcopy, fun line => softReset_master p, fun e =>
    ⟨fun h => softReset_count_zero p (h.imp_right fun hkind hmem => ?_), softReset_count_burnerOff p⟩,
    fun _ hpump hfiring hoverrun hcall hmode => ?_, fun q => ?_, rfl, rfl, rfl, hshort, hon, rfl, rfl, rfl, rfl, ?_, ?_,
    dropHanded_live _ _⟩
  · rw [hchannels]
    exact restart_spec _
  · revert hmem
    generalize (s.settings.events.get e).kind = kind at hkind
    revert hkind
    cases kind <;> decide
  · rw [softReset_links_of_rest p (restartBegun_atRest hpump hfiring hoverrun hcall hmode)]
    exact ⟨rfl, Tab.get_all _⟩
  · rw [softReset_notices]
    exact ⟨rfl, rfl, rfl⟩
  · rintro rfl
    exact ⟨rfl, rfl⟩
  · rintro rfl
    exact ⟨rfl, rfl⟩

end Sys2Proof.Machine

namespace Sys2Proof.Machine

/-! ## Reads of the capture unit, the regulator, the valve driver and the link matrix (R74, R95, R112, R151) -/

section
variable (s : State)

theorem captureGetView_of_range {v : Int} (h : v < 0 ∨ 17 < v) : captureGetView v s = refuse .range := by
  have hnone : index 18 v = none := (index_eq_none_iff 18 v).2 (by omega)
  simp only [captureGetView, hnone]

theorem regGetView_of_range {v : Int} (h : v < 0 ∨ 15 < v) : regGetView v s = refuse .range := by
  simp only [regGetView, index_zone_eq_none h]

theorem valveGetView_of_range {v : Int} (h : v < 0 ∨ 15 < v) : valveGetView v s = refuse .range := by
  simp only [valveGetView, index_zone_eq_none h]

theorem linkGetView_of_range {v : Int} (h : v < 0 ∨ 7 < v) : linkGetView v s = refuse .range := by
  have hnone : index 8 v = none := (index_eq_none_iff 8 v).2 (by omega)
  simp only [linkGetView, hnone]

end

/-- Settles O17: each read is a view; the codes of the views are those of the tables, value by value. -/
theorem unitReadsAnswerRecords : Obligations.UnitReadsAnswerRecords := by
  intro p s hp
  refine ⟨fun c => ?_, fun z => ?_, fun v => ?_, ?_, fun e => ?_, fun n i hi => ?_⟩
  · refine command_reads (.captureGet p c.val) p hp ?_
    simp only [captureGetView, index_val, nothingRaised_fields]
    cases (s.capture.channels.get c).status <;> rfl
  · refine command_reads (.regGet p z.val) p hp ?_
    simp only [regGetView, index_val, zoneRecord, nothingRaised_fields]
    cases (s.regulator.zones.get z).outcome <;> cases (s.regulator.zones.get z).statusUsed <;> rfl
  · refine command_reads (.valveGet p v.val) p hp ?_
    simp only [valveGetView, index_val, nothingRaised_fields]
    cases (s.valves.channels.get v).state <;> cases (s.settings.valves.get v).confirm <;> rfl
  · obtain ⟨t, ht, hkeeps, hanswered⟩ := command_reads (.lineGet p) p (view := lineGetView) hp rfl
    exact ⟨t, ht, hkeeps, linkedLines s, hanswered, fun line => getLsbD_setOf _ line⟩
  · refine command_reads (.linkGet p e.val) p hp ?_
    simp only [linkGetView, index_val, nothingRaised_fields]
    have hbindings : bindingFields (nothingRaised s) e = (List.finRange 8).map fun line => Field.word
        (match (s.settings.bindings.get e).get line with
          | .nothing => 0 | .set => 1 | .clear => 2 | .toggle => 3) := by
      refine List.map_congr_left fun line _ => ?_
      simp only [nothingRaised_fields]
      cases (s.settings.bindings.get e).get line <;> rfl
    rw [hbindings]
    rfl
  · rcases hi with ⟨rfl, hn⟩ | ⟨rfl, hn⟩ | ⟨rfl, hn⟩ | ⟨rfl, hn⟩
    · exact command_reads (.captureGet p n) p hp (captureGetView_of_range _ hn)
    · exact command_reads (.regGet p n) p hp (regGetView_of_range _ hn)
    · exact command_reads (.valveGet p n) p hp (valveGetView_of_range _ hn)
    · exact command_reads (.linkGet p n) p hp (linkGetView_of_range _ hn)

/-! ## Remote reports (R64, R67, R68) -/

theorem Report.older_eq (r : Report) : r.older = ⟨r.value, if r.age < 65535 then r.age + 1 else 65535⟩ := by
  have hage : min 65535 (r.age + 1) = if r.age < 65535 then r.age + 1 else 65535 := by split <;> omega
  exact congrArg (Report.mk r.value) hage

/-- The report of a zone stored with age 0 (R67). -/
def reportStored (z : Fin 16) (value : Int) (s : State) : State :=
  { s with capture := { s.capture with reports := s.capture.reports.set z (some ⟨value, 0⟩) } }

theorem reportStored_keeps (z : Fin 16) (value : Int) (s : State) : Keeps [.capture] s (reportStored z value s) := by
  intro part hp
  cases part <;> first | rfl | (simp at hp)

theorem tempReportBlock_of_fields (z : Fin 16) {value : Int} (hlo : -4000 ≤ value) (hhi : value ≤ 12500) (s : State) :
    tempReportBlock z.val value s =
      (reportStored z value s, .ok [flag (decide ((s.settings.zones.get z).mode ≠ .localOnly))]) := by
  have hwithin : within Config.tempMin Config.tempMax value = true := (within_iff _ _ _).2 ⟨hlo, hhi⟩
  simp only [tempReportBlock, index_val, hwithin, if_true, reportStored]

theorem tempReportBlock_of_range {zone value : Int} (h : zone < 0 ∨ 15 < zone ∨ value < -4000 ∨ 12500 < value)
    (s : State) : tempReportBlock zone value s = (s, refuse .range) := by
  unfold tempReportBlock
  split
  · rfl
  · next z hz =>
    have hvalue : within Config.tempMin Config.tempMax value = false := by
      rw [Bool.eq_false_iff, ne_eq, within_iff]
      have hzone := (index_eq_some_iff 16 zone z).1 hz
      have := z.isLt
      simp only [Config.tempMin, Config.tempMax]
      omega
    simp only [hvalue, Bool.false_eq_true, if_false]

theorem captureSecondBlock_keeps (s : State) : Keeps [.capture] s (captureSecondBlock s) := by
  intro part hp
  cases part <;> first | rfl | (simp at hp)

/-- An event whose block raises nothing: the block's changes are all there is. -/
theorem event_of_keeps {l : List Part} {block : State → State} {s : State} (hp : s.powered = true)
    (hk : Keeps l (nothingRaised s) (block (nothingRaised s))) (hl : .raised ∉ l) :
    ∃ t, event block s = .next t ∧ Keeps l s t ∧ Keeps [.raised] (block (nothingRaised s)) t := by
  refine ⟨_, event_powered block s hp, ?_, ?_⟩ <;> rw [withMatrix_of_quiet (hk .raised hl)]
  · intro part hpart
    have := hk part hpart
    cases part <;> first | rfl | exact this
  · intro part hpart
    cases part <;> first | rfl | (simp at hpart)

/-- Settles O29: TEMP REPORT puts one report, a capture second makes every report older. -/
theorem reportsAreStoredAndAge : Obligations.ReportsAreStoredAndAge := by
  intro s hp
  refine ⟨fun p z value hlo hhi => ?_, fun p zone value hrange => ?_, ?_⟩
  · obtain ⟨t, ht, hkeeps, hanswered, hblock⟩ := command_of_keeps (.tempReport p z.val value) p hp
      (tempReportBlock_of_fields z hlo hhi _) (reportStored_keeps z value _) (by decide)
    have hcapture : t.capture = (reportStored z value s).capture := hblock .capture (by decide)
    refine ⟨t, ht, hkeeps, ?_, fun z' hne => ?_, ?_, ?_, ?_, ?_, ?_⟩
    · rw [hcapture]; exact Tab.get_set_self _ _ _
    · rw [hcapture]; exact Tab.get_set_ne _ _ hne
    iterate 4 rw [hcapture]; rfl
    · rw [hanswered]
      simp only [nothingRaised_fields]
      cases (s.settings.zones.get z).mode <;> rfl
  · exact refused_powered _ p _ .range s hp (tempReportBlock_of_range hrange _)
  · obtain ⟨t, ht, hkeeps, hblock⟩ := event_of_keeps hp (captureSecondBlock_keeps _) (by decide)
    have hcapture : t.capture = (captureSecondBlock s).capture := hblock .capture (by decide)
    refine ⟨t, ht, hkeeps, ?_, ?_, ?_, ?_, fun z => ?_⟩
    iterate 4 rw [hcapture]; rfl
    · rw [hcapture]
      exact (Tab.get_ofFn _ z).trans (congrArg (Option.map · _) (funext Report.older_eq))

end Sys2Proof.Machine

namespace Sys2Proof.Machine

/-! ## The value that a write stores (R79, R100, R117, R145, R146, R180) -/

section
variable (v : Int)

@[simp] theorem clampNat_cast {lo hi : Nat} (h : lo ≤ hi) : (clampNat lo hi v : Int) = clamp lo hi v := by
  have := clamp_mem lo hi v (by omega)
  unfold clampNat
  omega

@[simp] theorem clampFin_cast (n : Nat) : ((clampFin n v).val : Int) = clamp 0 n v := by
  have := clamp_mem 0 n v (by omega)
  simp only [clampFin]
  omega

theorem bit_truth : bit (truth v) = if v = 0 then 0 else 1 := by
  by_cases h : v = 0 <;> simp [bit, truth, h]

/-- An optional number on a port: the number of an index in range, and n beyond it (R112, R145, R180). -/
theorem index_getD (n : Nat) : ((((index n v).map Fin.val).getD n : Nat) : Int) = if 0 ≤ v ∧ v < n then v else n := by
  cases h : index n v with
  | none =>
    rw [index_eq_none_iff] at h
    rw [if_neg (by omega)]
    rfl
  | some i =>
    obtain rfl := (index_eq_some_iff n v i).1 h
    have := i.isLt
    rw [if_pos (by omega)]
    rfl

theorem SourceMode.code_ofCode : (SourceMode.ofCode v).code = if v = 1 ∨ v = 2 then v else 0 := by
  unfold SourceMode.ofCode
  split_ifs <;> simp_all [SourceMode.code]

theorem DhwMode.code_ofCode : (DhwMode.ofCode v).code = if v = 1 ∨ v = 2 ∨ v = 3 then v else 0 := by
  unfold DhwMode.ofCode
  split_ifs <;> simp_all [DhwMode.code]

theorem Binding.code_ofCode : (Binding.ofCode v).code = clamp 0 3 v := by
  unfold Binding.ofCode clamp
  split_ifs <;> simp only [Binding.code] <;> omega

theorem SourceKind.code_ofCode {n : Nat} (h : n ≤ 15) : (SourceKind.ofCode n).code = n := by
  interval_cases n <;> rfl

/-- Settings of the same address read the value stored (R180). -/
theorem read_write_self (c : Settings) (q : Param) : q.read (q.write c v) = q.stored c v := by
  cases q with
  | wireAddress => exact clampNat_cast v (lo := 8) (hi := 119) (by decide)
  | startupBank => exact clampFin_cast v 3
  | enabled | edge | bypass | eventEnabled | lineMode =>
    simp [Param.read, Param.write, Param.stored, Settings.modZone, Settings.modCapture, Settings.modFiring,
      Settings.modEvent, bit_truth]
  | base | frost =>
    simp [Param.read, Param.write, Param.stored, Settings.modZone, storedSetpoint, roundTen, Config.setpointMin,
      Config.setpointMax, Int.mul_comm]
  | band | integralTime | fallback | sourceMode =>
    simp [Param.read, Param.write, Param.stored, Settings.modZone, integralTimeOf, Config.fullDemand,
      SourceMode.code_ofCode]
  | sensor =>
    simp only [Param.read, Param.write, Param.stored, Settings.modZone, Tab.get_modify_self, index_getD]
    congr 1
    apply propext
    omega
  | staleness | valveOpen | valveClose | minDuty | maxDuty =>
    simp [Param.read, Param.write, Param.stored, Settings.modZone, Settings.modValve, ValveSettings.writeMin,
      ValveSettings.writeMax]
  | filter =>
    simp only [Param.read, Param.write, Param.stored, Settings.modCapture, Tab.get_modify_self, filterOf]
    split_ifs <;> rfl
  | offset => simp [Param.read, Param.write, Param.stored, Settings.modCapture]
  | valveZone | eventParameter =>
    simp only [Param.read, Param.write, Param.stored, Settings.modValve, Settings.modEvent, Tab.get_modify_self,
      index_getD]
    congr 1
    apply propext
    omega
  | confirm =>
    simp only [Param.read, Param.write, Param.stored, Settings.modValve, Tab.get_modify_self]
    split <;> rfl
  | minOn | minOff | overrun | fallbackChannel | flowChannel =>
    simp [Param.read, Param.write, Param.stored, Settings.modFiring]
  | highLimit | fmin | fmax | dhwTarget => rfl
  | dhwMode => exact DhwMode.code_ofCode v
  | dhwPriority =>
    by_cases h : v = 1 <;> simp [Param.read, Param.write, Param.stored, Settings.modHotWater, bit, h]
  | dhwPulse | dhwMaxPriority | dhwOpenTime =>
    simp [Param.read, Param.write, Param.stored, Settings.modHotWater]
  | eventKind =>
    simp [Param.read, Param.write, Param.stored, Settings.modEvent,
      SourceKind.code_ofCode (clampNat_mem (Nat.zero_le 15) v).2]
  | binding => simp [Param.read, Param.write, Param.stored, Binding.code_ofCode]

/-- A write leaves every setting that it neither names nor moves in step (R180). A setting of another record cannot
differ; one of the same record differs in its index or in its field. -/
theorem read_write_other (c : Settings) {q r : Param} (hne : r ≠ q) (hmovable : r ∉ movable q) :
    r.read (q.write c v) = r.read c := by
  cases q with
  | wireAddress | startupBank =>
    cases r with
    | wireAddress | startupBank => first | rfl | exact absurd rfl hne
    | _ => rfl
  | enabled | base | frost | band | integralTime | fallback | sensor | sourceMode | staleness =>
    cases r with
    | enabled | base | frost | band | integralTime | fallback | sensor | sourceMode | staleness =>
      simp only [Param.read, Param.write, Settings.modZone, Tab.get_modify]
      split <;> simp_all
    | _ => rfl
  | edge | filter | offset =>
    cases r with
    | edge | filter | offset =>
      simp only [Param.read, Param.write, Settings.modCapture, Tab.get_modify]
      split <;> simp_all
    | _ => rfl
  | valveZone | minDuty | maxDuty | valveOpen | valveClose | confirm =>
    cases r with
    | valveZone | minDuty | maxDuty | valveOpen | valveClose | confirm =>
      simp only [Param.read, Param.write, Settings.modValve, Tab.get_modify]
      split <;> simp_all [movable, ValveSettings.writeMin, ValveSettings.writeMax]
    | _ => rfl
  | minOn | minOff | overrun | highLimit | fmin | fmax | bypass | fallbackChannel | flowChannel =>
    cases r with
    | minOn | minOff | overrun | highLimit | fmin | fmax | bypass | fallbackChannel | flowChannel | dhwTarget =>
      first | rfl | exact absurd rfl hne | simp [movable] at hmovable
    | _ => rfl
  | dhwMode | dhwTarget | dhwPulse | dhwPriority | dhwMaxPriority | dhwOpenTime =>
    cases r with
    | dhwMode | dhwTarget | dhwPulse | dhwPriority | dhwMaxPriority | dhwOpenTime =>
      first | rfl | exact absurd rfl hne
    | _ => rfl
  | eventEnabled | eventKind | eventParameter =>
    cases r with
    | eventEnabled | eventKind | eventParameter =>
      simp only [Param.read, Param.write, Settings.modEvent, Tab.get_modify]
      split <;> simp_all
    | _ => rfl
  | binding e line =>
    cases r with
    | binding e' line' =>
      simp only [Param.read, Param.write, Tab.get_modify]
      split
      · rw [Tab.get_set]
        split <;> simp_all
      · rfl
    | _ => rfl
  | lineMode line =>
    cases r with
    | lineMode line' =>
      simp only [Param.read, Param.write, Tab.get_set]
      split <;> simp_all
    | _ => rfl

end
end Sys2Proof.Machine

namespace Sys2Proof.Machine

/-! ## A valve channel's duty formed again (R101 to R103) -/

section
variable (v : ValveChannel) (c : ValveSettings)

/-- What the derivation of a channel's state leaves as it is. -/
def ValveChannel.duty (v : ValveChannel) : Nat × Bool × Nat × Bool × Nat × Nat × Bool × Bool :=
  (v.demandDuty, v.hold, v.outputDuty, v.running, v.cycleTime, v.appliedDuty, v.drive, v.endSwitch)

theorem derive_of_fault (h : v.state = .fault) : v.derive c = v := if_pos h

theorem derive_of_undriven (hstate : v.state ≠ .fault) (h : v.outputDuty = 0) :
    v.derive c = { v with state := undriven v.position, confirmTimer := none } := by
  rw [ValveChannel.derive, if_neg hstate, if_pos h]

theorem derive_of_timer (hstate : v.state ≠ .fault) (h : 0 < v.outputDuty) (hc : c.confirm = .timer) :
    v.derive c =
      { v with state := if v.position = Config.fullTravel then .opened else .opening, confirmTimer := none } := by
  rw [ValveChannel.derive, if_neg hstate, if_neg (by omega), hc]

theorem derive_of_switch (hstate : v.state ≠ .fault) (h : 0 < v.outputDuty) (hc : c.confirm = .switch) :
    v.derive c = if v.endSwitch then v.confirmOpen else v.waitForSwitch := by
  rw [ValveChannel.derive, if_neg hstate, if_neg (by omega), hc]

theorem derive_duty : (v.derive c).duty = v.duty := by
  by_cases hstate : v.state = .fault
  · rw [derive_of_fault v c hstate]
  rcases Nat.eq_zero_or_pos v.outputDuty with h | h
  · rw [derive_of_undriven v c hstate h]
    rfl
  cases hc : c.confirm with
  | timer =>
    rw [derive_of_timer v c hstate h hc]
    rfl
  | switch =>
    rw [derive_of_switch v c hstate h hc]
    split <;> rfl

theorem undriven_ne_fault (h : Nat) : undriven h ≠ .fault := by
  unfold undriven
  split <;> decide

/-- FAULT is neither entered nor left by the derivation (R108). -/
theorem derive_fault_iff : (v.derive c).state = .fault ↔ v.state = .fault := by
  by_cases hstate : v.state = .fault
  · rw [derive_of_fault v c hstate]
  · simp only [hstate, iff_false]
    rcases Nat.eq_zero_or_pos v.outputDuty with h | h
    · rw [derive_of_undriven v c hstate h]
      exact undriven_ne_fault _
    · cases hc : c.confirm with
      | timer =>
        rw [derive_of_timer v c hstate h hc]
        dsimp only
        split <;> decide
      | switch =>
        rw [derive_of_switch v c hstate h hc]
        split <;> simp [ValveChannel.confirmOpen, ValveChannel.waitForSwitch]

/-- What a change of output duty leaves as it is. -/
theorem drivenAt_frame (d : Nat) : (v.drivenAt c d).demandDuty = v.demandDuty ∧ (v.drivenAt c d).hold = v.hold ∧
    (v.drivenAt c d).endSwitch = v.endSwitch ∧ (v.drivenAt c d).state = v.state ∧ (v.drivenAt c d).outputDuty = d := by
  unfold ValveChannel.drivenAt
  split
  · exact ⟨rfl, rfl, rfl, rfl, rfl⟩
  · split
    · next hstop => exact ⟨rfl, rfl, rfl, rfl, hstop.2.symm⟩
    · exact ⟨rfl, rfl, rfl, rfl, rfl⟩

/-- What a change of output duty does to the drive cycle (R103). -/
theorem drivenAt_cycle (d : Nat) :
    (v.outputDuty = 0 → 0 < d → (v.drivenAt c d).running = true ∧ (v.drivenAt c d).drive = true ∧
      (v.drivenAt c d).cycleTime = 0 ∧ (v.drivenAt c d).appliedDuty = d) ∧
    (0 < v.outputDuty → d = 0 → (v.drivenAt c d).running = false ∧ (v.drivenAt c d).drive = false ∧
      (v.drivenAt c d).cycleTime = 0 ∧ (v.drivenAt c d).appliedDuty = 0) ∧
    (0 < v.outputDuty → 0 < d → (v.drivenAt c d).running = v.running ∧ (v.drivenAt c d).drive = v.drive ∧
      (v.drivenAt c d).cycleTime = v.cycleTime ∧ (v.drivenAt c d).appliedDuty = v.appliedDuty) := by
  refine ⟨fun h hd => ?_, fun h hd => ?_, fun h hd => ?_⟩ <;> unfold ValveChannel.drivenAt
  · rw [if_pos ⟨h, hd⟩]
    exact ⟨rfl, rfl, rfl, rfl⟩
  · rw [if_neg (by omega), if_pos ⟨h, hd⟩]
    exact ⟨rfl, rfl, rfl, rfl⟩
  · rw [if_neg (by omega), if_neg (by omega)]
    exact ⟨rfl, rfl, rfl, rfl⟩

/-- A channel u has become w with its duties formed again under a demand update (R101 to R103). -/
structure DutyFormed (c : ValveSettings) (d : Demand) (u w : ValveChannel) : Prop where
  hold : w.hold = u.hold
  endSwitch : w.endSwitch = u.endSwitch
  fault : u.state = .fault ↔ w.state = .fault
  demand : w.demandDuty = c.demandDuty d
  output : w.outputDuty = if u.state = .fault then 0 else max w.demandDuty (if w.hold then c.maxDuty else 0)
  started : u.outputDuty = 0 → 0 < w.outputDuty →
    w.running = true ∧ w.drive = true ∧ w.cycleTime = 0 ∧ w.appliedDuty = w.outputDuty
  stopped : 0 < u.outputDuty → w.outputDuty = 0 →
    w.running = false ∧ w.drive = false ∧ w.cycleTime = 0 ∧ w.appliedDuty = 0
  driven : 0 < u.outputDuty → 0 < w.outputDuty →
    w.running = u.running ∧ w.drive = u.drive ∧ w.cycleTime = u.cycleTime ∧ w.appliedDuty = u.appliedDuty

theorem recompute_formed (d : Demand) : DutyFormed c d v (v.recompute c d) := by
  let u : ValveChannel := { v with demandDuty := c.demandDuty d }
  have hduty : ((u.drivenAt c (u.dutyNow c)).derive c).duty = (u.drivenAt c (u.dutyNow c)).duty := derive_duty _ c
  simp only [ValveChannel.duty, Prod.mk.injEq] at hduty
  obtain ⟨hdemand, hhold, houtput, hrunning, htime, happlied, hdrive, hswitch⟩ := hduty
  obtain ⟨hdemand', hhold', hswitch', hstate', houtput'⟩ := drivenAt_frame u c (u.dutyNow c)
  obtain ⟨hstarted, hstopped, hdriven⟩ := drivenAt_cycle u c (u.dutyNow c)
  rw [houtput'] at houtput
  rw [← hrunning, ← hdrive, ← htime, ← happlied] at hstarted hstopped hdriven
  refine ⟨hhold.trans hhold', hswitch.trans hswitch', ?_, hdemand.trans hdemand', ?_, ?_, ?_, ?_⟩
  · exact (hstate' ▸ derive_fault_iff (u.drivenAt c (u.dutyNow c)) c).symm
  · show ((u.drivenAt c (u.dutyNow c)).derive c).outputDuty = if v.state = .fault then 0 else
      max ((u.drivenAt c (u.dutyNow c)).derive c).demandDuty
        (if ((u.drivenAt c (u.dutyNow c)).derive c).hold then c.maxDuty else 0)
    rw [houtput, hdemand.trans hdemand', hhold.trans hhold']
    rfl
  · intro h
    show 0 < ((u.drivenAt c (u.dutyNow c)).derive c).outputDuty → _ ∧ _ ∧ _ ∧
      _ = ((u.drivenAt c (u.dutyNow c)).derive c).outputDuty
    rw [houtput]
    exact hstarted h
  · intro h hw
    exact hstopped h (houtput.symm.trans hw)
  · intro h hw
    exact hdriven h (houtput ▸ hw)

/-- The demand duty of a channel under a demand update (R101). -/
theorem demandDuty_spec (d : Demand) : (c.zone = none → c.demandDuty d = 0) ∧
    ∀ z k, c.zone = some z → k = (divRound (d.delivered.get z * 63) 4096).toNat →
      c.demandDuty d = if k = 0 then 0 else max c.minDuty (min c.maxDuty k) := by
  refine ⟨fun h => ?_, fun z k h hk => ?_⟩ <;> simp only [ValveSettings.demandDuty, h]
  subst hk
  rfl

/-! ## Written open times, close times and confirmations (R100, R104 to R106) -/

theorem openAtOnce_of_none (h : c.openTime ≠ 0 ∨ v.outputDuty = 0 ∨ v.state = .fault) : v.openAtOnce c = v := by
  refine if_neg ?_
  rintro ⟨htime, hduty, hstate⟩
  rcases h with h | h | h
  · exact h htime
  · omega
  · exact hstate h

theorem openAtOnce_of_driven (htime : c.openTime = 0) (hduty : 0 < v.outputDuty) (hstate : v.state ≠ .fault) :
    v.openAtOnce c = { v with position := Config.fullTravel }.derive c := if_pos ⟨htime, hduty, hstate⟩

theorem closeAtOnce_of_none (h : c.closeTime ≠ 0 ∨ v.outputDuty ≠ 0 ∨ v.state = .fault) : v.closeAtOnce c = v := by
  refine if_neg ?_
  rintro ⟨htime, hduty, hstate⟩
  rcases h with h | h | h
  · exact h htime
  · exact h hduty
  · exact hstate h

theorem closeAtOnce_of_undriven (htime : c.closeTime = 0) (hduty : v.outputDuty = 0) (hstate : v.state ≠ .fault) :
    v.closeAtOnce c = { v with position := 0, state := .closed, confirmTimer := none } :=
  (if_pos ⟨htime, hduty, hstate⟩).trans (derive_of_undriven { v with position := 0 } c hstate hduty)

/-- A driven channel whose open time has been written to 0 stands at 60,000 (R104 to R106). -/
theorem openAtOnce_spec (htime : c.openTime = 0) (hduty : 0 < v.outputDuty) (hstate : v.state ≠ .fault) :
    (v.openAtOnce c).position = 60000 ∧ (v.openAtOnce c).outputDuty = v.outputDuty ∧
      (c.confirm = .timer ∨ v.endSwitch = true → (v.openAtOnce c).state = .opened) ∧
      (c.confirm = .switch → v.endSwitch = false →
        (v.openAtOnce c).state = .opening ∧ (v.openAtOnce c).confirmTimer.isSome = true) := by
  rw [openAtOnce_of_driven v c htime hduty hstate]
  let u : ValveChannel := { v with position := Config.fullTravel }
  cases hc : c.confirm with
  | timer =>
    rw [derive_of_timer u c hstate hduty hc]
    exact ⟨rfl, rfl, fun _ => rfl, nofun⟩
  | switch =>
    rw [derive_of_switch u c hstate hduty hc]
    cases hswitch : v.endSwitch with
    | true =>
      rw [if_pos rfl]
      exact ⟨rfl, rfl, fun _ => rfl, nofun⟩
    | false =>
      rw [if_neg (by decide)]
      refine ⟨rfl, rfl, by simp, fun _ _ => ⟨rfl, ?_⟩⟩
      by_cases hopening : v.state = .opening <;> simp [ValveChannel.waitForSwitch, u, hopening]

/-- What a written confirmation makes of a channel, case by case (R105, R106). -/
theorem derive_spec :
    (v.derive c).outputDuty = v.outputDuty ∧ (v.state = .fault → v.derive c = v) ∧
    (v.state ≠ .fault → v.outputDuty = 0 →
      v.derive c = { v with state := if v.position = 0 then .closed else .closing, confirmTimer := none }) ∧
    (v.state ≠ .fault → 0 < v.outputDuty → c.confirm = .timer →
      v.derive c = { v with state := if v.position = 60000 then .opened else .opening, confirmTimer := none }) ∧
    (v.state ≠ .fault → 0 < v.outputDuty → c.confirm = .switch → v.endSwitch = true →
      v.derive c = { v with state := .opened, position := 60000, confirmTimer := none }) ∧
    (v.state = .opened → 0 < v.outputDuty → c.confirm = .switch → v.endSwitch = false →
      v.derive c = { v with state := .opening, confirmTimer := if v.position = 60000 then some 0 else none }) ∧
    (v.state = .opening → 0 < v.outputDuty → c.confirm = .switch → v.endSwitch = false →
      v.derive c = { v with
        confirmTimer := if v.position = 60000 then some (v.confirmTimer.getD 0) else none }) := by
  have hwaits : v.state ≠ .fault → 0 < v.outputDuty → c.confirm = .switch → v.endSwitch = false →
      v.derive c = v.waitForSwitch := fun hstate hduty hc hswitch => by
    rw [derive_of_switch v c hstate hduty hc, hswitch, if_neg (by decide)]
  refine ⟨?_, derive_of_fault v c, derive_of_undriven v c, derive_of_timer v c, ?_, ?_, ?_⟩
  · have hduty := derive_duty v c
    simp only [ValveChannel.duty, Prod.mk.injEq] at hduty
    exact hduty.2.2.1
  · intro hstate hduty hc hswitch
    exact (derive_of_switch v c hstate hduty hc).trans (if_pos hswitch)
  · intro hstate hduty hc hswitch
    rw [hwaits (by simp [hstate]) hduty hc hswitch]
    simp [ValveChannel.waitForSwitch, hstate, Config.fullTravel]
  · intro hstate hduty hc hswitch
    rw [hwaits (by simp [hstate]) hduty hc hswitch]
    simp [ValveChannel.waitForSwitch, hstate, Config.fullTravel]

end

/-! ## A valve channel rewritten (R100, R111) -/

section
variable (s : State)

theorem setReport_keeps (r : PathReport) : Keeps [.valves] s (setReport r s) := by
  intro part hp
  cases part <;> first | rfl | (simp at hp)

theorem modValve_keeps (v : Fin 16) (f : ValveChannel → ValveChannel) : Keeps [.valves] s (modValve v f s) := by
  intro part hp
  cases part <;> first | rfl | (simp at hp)

theorem handReport_keeps : Keeps passageParts s (handReport s) := by
  unfold handReport
  split
  · exact Keeps.refl _ _
  · exact ((setReport_keeps s _).mono (by decide)).trans (takeReport_reaches _ _).1

/-- After the report has been handed on where it differs, it is the one that the channels give (R111). -/
theorem handReport_report : (handReport s).valves.report = computeReport (handReport s) ∧
    (handReport s).valves.channels = s.valves.channels ∧ (handReport s).valves.demand = s.valves.demand := by
  unfold handReport
  split
  · next h => exact ⟨h.symm, rfl, rfl⟩
  · obtain ⟨hkeeps, hchannels, hdemand, hreport⟩ := takeReport_reaches (computeReport s) (setReport (computeReport s) s)
    have hsettings := hkeeps .settings (by decide)
    exact ⟨hreport.trans (computeReport_congr hsettings hchannels hdemand).symm, hchannels, hdemand⟩

theorem rewriteValve_keeps (v : Fin 16) (f : ValveChannel → ValveSettings → ValveChannel) :
    Keeps passageParts s (rewriteValve v f s) :=
  ((modValve_keeps s v _).mono (by decide)).trans (handReport_keeps _)

theorem rewriteValve_valves (v : Fin 16) (f : ValveChannel → ValveSettings → ValveChannel) :
    (rewriteValve v f s).valves.report = computeReport (rewriteValve v f s) ∧
    (rewriteValve v f s).valves.demand = s.valves.demand ∧
    (rewriteValve v f s).valves.channels.get v = f (s.valves.channels.get v) (s.settings.valves.get v) ∧
    ∀ v', v' ≠ v → (rewriteValve v f s).valves.channels.get v' = s.valves.channels.get v' := by
  obtain ⟨hreport, hchannels, hdemand⟩ :=
    handReport_report (modValve v (fun x => f x (s.settings.valves.get v)) s)
  refine ⟨hreport, hdemand, ?_, fun v' hne => ?_⟩ <;> unfold rewriteValve <;> rw [hchannels]
  · exact Tab.get_modify_self _ _ _
  · exact Tab.get_modify_ne _ _ hne

end
end Sys2Proof.Machine

namespace Sys2Proof.Machine

/-! ## What a write does in the owning block (R180) -/

section
variable (s : State)

theorem modFiring_keeps (f : Firing → Firing) : Keeps [.firing] s (modFiring f s) := by
  intro part hp
  cases part <;> first | rfl | (simp at hp)

theorem setSettings_keeps (c : Settings) : Keeps [.settings] s (setSettings c s) := by
  intro part hp
  cases part <;> first | rfl | (simp at hp)

theorem modChannel_keeps (ch : Fin 18) (f : Channel → Channel) : Keeps [.capture] s (modChannel ch f s) := by
  intro part hp
  cases part <;> first | rfl | (simp at hp)

theorem Keeps.ite {l : List Part} {c : Prop} [Decidable c] {s t u : State} (ht : Keeps l s t) (hu : Keeps l s u) :
    Keeps l s (if c then t else u) := by
  split
  · exact ht
  · exact hu

theorem formFlow_keeps : Keeps [.firing] s (formFlow s) := by
  unfold formFlow
  split
  · split
    · exact Keeps.refl _ _
    · exact modFiring_keeps _ _
  · exact Keeps.refl _ _

theorem formHeating_keeps : Keeps [.firing] s (formHeating s) :=
  Keeps.ite ((modFiring_keeps _ _).trans (formFlow_keeps _)) (Keeps.refl _ _)

theorem endPriority_keeps : Keeps [.firing] s (endPriority s) := (modFiring_keeps s _).trans (formFlow_keeps _)

theorem modeWritten_keeps : Keeps passageParts s (modeWritten s) :=
  (Keeps.ite ((modFiring_keeps _ _).mono (by decide)) (Keeps.refl _ _)).trans (deriveCall_reaches _).1

theorem openTimeWritten_keeps : Keeps passageParts s (openTimeWritten s) :=
  Keeps.ite (((modFiring_keeps _ _).mono (by decide)).trans (settle_reaches _).1) (Keeps.refl _ _)

/-- A write acts in the block that owns the setting: the parts of the table change, and events are raised. -/
theorem act_keeps (q : Param) : Keeps (.raised :: q.parts) s (q.act s) := by
  cases q with
  | enabled | base | frost => exact (resolve_keeps s).mono (by simp [Param.parts])
  | edge | filter => exact (modChannel_keeps s _ _).mono (by simp [Param.parts])
  | valveZone | minDuty | maxDuty | valveOpen | valveClose | confirm =>
    exact (rewriteValve_keeps s _ _).mono (by simp [passageParts, Param.parts])
  | highLimit =>
    exact ((formHeating_keeps s).mono (by decide)).trans ((testHighLimit_reaches _).1.mono (by decide))
  | fmin | fmax => exact (formHeating_keeps s).mono (by decide)
  | dhwTarget => exact (formFlow_keeps s).mono (by decide)
  | dhwMode => exact (modeWritten_keeps s).mono (by decide)
  | dhwPriority | dhwMaxPriority => exact Keeps.ite ((endPriority_keeps s).mono (by decide)) (Keeps.refl _ _)
  | dhwOpenTime => exact (openTimeWritten_keeps s).mono (by decide)
  | _ => exact Keeps.refl _ _

/-- A write that leaves the matrix raises nothing. -/
theorem act_raised {q : Param} (h : Part.links ∉ q.parts) : (q.act s).raised = s.raised := by
  cases q with
  | enabled | base | frost | edge | filter => rfl
  | valveZone | minDuty | maxDuty | valveOpen | valveClose | confirm | highLimit | dhwMode | dhwOpenTime =>
    simp [Param.parts] at h
  | fmin | fmax => exact formHeating_keeps s .raised (by decide)
  | dhwTarget => exact formFlow_keeps s .raised (by decide)
  | dhwPriority | dhwMaxPriority =>
    exact Keeps.ite (endPriority_keeps s) (Keeps.refl _ s) .raised (by decide)
  | _ => rfl

theorem not_mem_parts (q : Param) : Part.raised ∉ Part.settings :: q.parts ∧ Part.settings ∉ Part.raised :: q.parts := by
  cases q <;> simp [Param.parts]

end

/-! ## The row of PARAM SET (R180) -/

section
variable {group idx field : Int} {q : Param} (p : Port) (value : Int) {s : State}

/-- The state that PARAM SET makes of its block's. -/
def settingWritten (q : Param) (value : Int) (s : State) : State :=
  q.act (setSettings (q.write s.settings value) (nothingRaised s))

theorem settingWritten_keeps : Keeps (.raised :: .settings :: q.parts) (nothingRaised s) (settingWritten q value s) :=
  ((setSettings_keeps _ _).mono (by simp)).trans ((act_keeps _ q).mono fun part hpart => by
    rcases List.mem_cons.1 hpart with rfl | hpart
    · exact List.mem_cons_self
    · exact List.mem_cons_of_mem _ (List.mem_cons_of_mem _ hpart))

theorem settingWritten_settings : (settingWritten q value s).settings = q.write s.settings value :=
  act_keeps _ q .settings (not_mem_parts q).2

/-- PARAM SET of a setting of the table: the block's changes, the matrix's and the delivery's are all there is. -/
theorem paramSet_written (hp : s.powered = true) (hq : paramOf group idx field = some q) :
    ∃ t, exec (.paramSet p group idx field value) s = .next t ∧
      Keeps (responseParts ++ .settings :: q.parts) s t ∧
      t.answered = some (p, writtenResponse s.settings (q.write s.settings value) q) ∧
      Keeps (.links :: .raised :: responseParts) (settingWritten q value s) t := by
  have hblock : paramSetBlock group idx field value (nothingRaised s) =
      (settingWritten q value s, writtenResponse s.settings (q.write s.settings value) q) := by
    simp only [paramSetBlock, hq]
    rfl
  have hkeeps := settingWritten_keeps value (q := q) (s := s)
  by_cases hlinks : Part.links ∈ q.parts
  · obtain ⟨t, ht, hrow, hanswered, hafter⟩ :=
      command_of_block (.paramSet p group idx field value) p hp hblock hkeeps
    refine ⟨t, ht, hrow.mono fun part hpart => ?_, hanswered, hafter⟩
    simp only [List.mem_append, List.mem_cons] at hpart ⊢
    rcases hpart with h | rfl | h
    · exact .inl h
    · exact .inr (.inr hlinks)
    · exact .inr h
  · obtain ⟨t, ht, hrow, hanswered, hafter⟩ :=
      command_of_keeps (.paramSet p group idx field value) p hp hblock (hkeeps.of_raised (act_raised _ hlinks))
        (not_mem_parts q).1
    exact ⟨t, ht, hrow, hanswered, hafter.mono fun part => List.mem_cons_of_mem _⟩

theorem writtenResponse_eq (before after : Settings) (q : Param) : ∃ rest,
    writtenResponse before after q = .ok (.word (q.read after) :: rest) ∧ (movable q = [] → rest = [.word 0]) := by
  refine ⟨count (movedParams before after q).length :: (movedParams before after q).flatMap (movedFields after), rfl,
    fun h => ?_⟩
  rw [movedParams, h]
  rfl

theorem paramSetBlock_of_none (hq : paramOf group idx field = none) (s : State) :
    paramSetBlock group idx field value s = (s, refuse .range) := by
  simp only [paramSetBlock, hq]

end

/-! ### The valve channels' settings (R100 to R106) -/

/-- What a write of a valve channel's setting makes of the channel, under the driver's demand update. -/
def Param.rewrite (d : Demand) : Param → ValveChannel → ValveSettings → ValveChannel
  | .valveOpen _ => ValveChannel.openAtOnce
  | .valveClose _ => ValveChannel.closeAtOnce
  | .confirm _ => ValveChannel.derive
  | _ => fun x c => x.recompute c d

/-- The settings of a valve channel. -/
def Param.OfValve (v : Fin 16) (q : Param) : Prop :=
  q = .valveZone v ∨ q = .minDuty v ∨ q = .maxDuty v ∨ q = .valveOpen v ∨ q = .valveClose v ∨ q = .confirm v

section
variable {v : Fin 16} {q : Param} (h : q.OfValve v)
include h

theorem act_eq_rewriteValve (s : State) : q.act s = rewriteValve v (q.rewrite s.valves.demand) s := by
  rcases h with rfl | rfl | rfl | rfl | rfl | rfl <;> rfl

/-- A written setting leaves the hold flag and the end switch of its channel, and FAULT (R100, R108). -/
theorem rewrite_frame (d : Demand) (u : ValveChannel) (c : ValveSettings) :
    (q.rewrite d u c).hold = u.hold ∧ (q.rewrite d u c).endSwitch = u.endSwitch ∧
      (u.state = .fault ↔ (q.rewrite d u c).state = .fault) := by
  have hderive : ∀ x : ValveChannel, x.hold = u.hold → x.endSwitch = u.endSwitch → x.state = u.state →
      (x.derive c).hold = u.hold ∧ (x.derive c).endSwitch = u.endSwitch ∧
        (u.state = .fault ↔ (x.derive c).state = .fault) := by
    intro x hhold hswitch hstate
    have hduty := derive_duty x c
    simp only [ValveChannel.duty, Prod.mk.injEq] at hduty
    obtain ⟨-, hhold', -, -, -, -, -, hswitch'⟩ := hduty
    exact ⟨hhold'.trans hhold, hswitch'.trans hswitch, hstate ▸ (derive_fault_iff x c).symm⟩
  have hformed : (u.recompute c d).hold = u.hold ∧ (u.recompute c d).endSwitch = u.endSwitch ∧
      (u.state = .fault ↔ (u.recompute c d).state = .fault) :=
    ⟨(recompute_formed u c d).hold, (recompute_formed u c d).endSwitch, (recompute_formed u c d).fault⟩
  rcases h with rfl | rfl | rfl | rfl | rfl | rfl
  · exact hformed
  · exact hformed
  · exact hformed
  · show (u.openAtOnce c).hold = _ ∧ (u.openAtOnce c).endSwitch = _ ∧ (_ ↔ (u.openAtOnce c).state = _)
    unfold ValveChannel.openAtOnce
    split
    · exact hderive _ rfl rfl rfl
    · exact ⟨rfl, rfl, Iff.rfl⟩
  · show (u.closeAtOnce c).hold = _ ∧ (u.closeAtOnce c).endSwitch = _ ∧ (_ ↔ (u.closeAtOnce c).state = _)
    unfold ValveChannel.closeAtOnce
    split
    · exact hderive _ rfl rfl rfl
    · exact ⟨rfl, rfl, Iff.rfl⟩
  · exact hderive u rfl rfl rfl

/-- The valve driver after a written setting of one of its channels (R100, R111). -/
theorem settingWritten_valves {value : Int} {s t : State}
    (ht : Keeps (.links :: .raised :: responseParts) (settingWritten q value s) t) :
    t.valves.report = computeReport t ∧ t.valves.demand = s.valves.demand ∧
      t.valves.channels.get v =
        q.rewrite s.valves.demand (s.valves.channels.get v) (t.settings.valves.get v) ∧
      ∀ v', v' ≠ v → t.valves.channels.get v' = s.valves.channels.get v' := by
  have hsettings : t.settings = q.write s.settings value :=
    (ht .settings (by decide)).trans (settingWritten_settings value)
  have hvalves : t.valves = (settingWritten q value s).valves := ht .valves (by decide)
  have hreport := computeReport_congr (ht .settings (by decide)) (congrArg Valves.channels hvalves)
    (congrArg Valves.demand hvalves)
  rw [hreport, hvalves, hsettings]
  unfold settingWritten
  rw [act_eq_rewriteValve h]
  exact rewriteValve_valves _ v _

end

/-- Settles O50: PARAM GET is a view; PARAM SET writes the record and acts in the block that owns the setting, and what
it makes of a zone, a capture channel or a valve channel is what that block's operations make of it. -/
theorem settingsAreStoredInRange : Obligations.SettingsAreStoredInRange := by
  intro p group idx field value s hp
  refine ⟨fun q hq => ⟨?_, ?_⟩, fun hq => ⟨?_, ?_⟩⟩
  · refine command_reads (.paramGet p group idx field) p hp ?_
    simp only [paramGetView, hq]
    rfl
  · obtain ⟨t, ht, hkeeps, hanswered, hafter⟩ := paramSet_written p value hp hq
    obtain ⟨rest, hresponse, hrest⟩ := writtenResponse_eq s.settings (q.write s.settings value) q
    have hsettings : t.settings = q.write s.settings value :=
      (hafter .settings (by decide)).trans (settingWritten_settings value)
    refine ⟨t, rest, ht, hkeeps, ?_, ?_, hrest, fun r hne hr => ?_, fun z hz => ?_, fun ch v hch hv => ?_,
      fun v hv => ?_⟩
    · rw [hsettings]
      exact read_write_self value s.settings q
    · rw [hanswered, hresponse, read_write_self]
    · rw [hsettings]
      exact read_write_other value s.settings hne hr
    · have hresolved : settingWritten q value s = resolve (setSettings (q.write s.settings value) (nothingRaised s)) :=
        by rcases hz with rfl | rfl | rfl <;> rfl
      rw [hresolved] at hafter
      have hslots : t.overrides = _ := hafter .overrides (by decide)
      exact ⟨(resolve_resolved _).of_keeps hafter (by decide), (congrArg Overrides.slots hslots).trans rfl⟩
    · have hrestarted : settingWritten q value s =
          modChannel ch Channel.restart (setSettings (q.write s.settings value) (nothingRaised s)) := by
        rcases hch with rfl | rfl <;> rfl
      rw [hrestarted] at hafter
      subst hv
      exact hafter .capture (by decide)
    · have hof : q.OfValve v := hv
      obtain ⟨hreport, hdemand, hchannel, hothers⟩ := settingWritten_valves hof hafter
      refine ⟨hreport, hdemand, hothers, ?_⟩
      rintro c u w rfl rfl rfl
      rw [hchannel]
      obtain ⟨hhold, hswitch, hfault⟩ := rewrite_frame hof s.valves.demand (s.valves.channels.get v)
        (t.settings.valves.get v)
      refine ⟨hhold, hswitch, hfault, fun hduty => ?_, ?_, ?_, ?_⟩
      · have hformed : DutyFormed (t.settings.valves.get v) s.valves.demand (s.valves.channels.get v)
            (q.rewrite s.valves.demand (s.valves.channels.get v) (t.settings.valves.get v)) := by
          rcases hduty with rfl | rfl | rfl <;> exact recompute_formed _ _ _
        obtain ⟨hnone, hsome⟩ := demandDuty_spec (t.settings.valves.get v) s.valves.demand
        exact ⟨fun h => hformed.demand.trans (hnone h), fun z d hz hd => hformed.demand.trans (hsome z d hz hd),
          hformed.output, hformed.started, hformed.stopped, hformed.driven⟩
      · rintro rfl
        exact ⟨openAtOnce_of_none _ _, openAtOnce_spec _ _⟩
      · rintro rfl
        exact ⟨closeAtOnce_of_none _ _, closeAtOnce_of_undriven _ _⟩
      · rintro rfl
        exact derive_spec _ _
  · exact refused_powered (.paramSet p group idx field value) p _ .range s hp (paramSetBlock_of_none value hq _)
  · refine command_reads (.paramGet p group idx field) p hp ?_
    simp only [paramGetView, hq]
    rfl

end Sys2Proof.Machine

namespace Sys2Proof.Machine

/-! ## Microseconds on a capture channel (R59 to R62) -/

section
variable (v : Channel) (cfg : ChannelSettings)

theorem advance_of_idle (n : Nat) (h : v.timing = false) : v.advance n = v := by simp [Channel.advance, h]

theorem advance_of_le {n : Nat} (ht : v.timing = true) (h : v.timer + n ≤ 65535) :
    v.advance n = { v with timer := v.timer + n } := by
  rw [Channel.advance, if_pos ht, if_neg (by simp only [Config.timerLimit]; omega)]

theorem advance_of_gt {n : Nat} (ht : v.timing = true) (h : 65535 < v.timer + n) :
    v.advance n = { v with timing := false, timer := 0 } := by
  rw [Channel.advance, if_pos ht, if_pos (by simpa only [Config.timerLimit] using h)]
  obtain ⟨⟩ := v
  rfl

/-- The timer after microseconds without an accepted edge: it advances, and past 65,535 it has stopped (R60, R61). -/
theorem advance_eq (n : Nat) : v.advance n = { v with
    timing := v.timing && decide (v.timer + n ≤ 65535)
    timer := if v.timing = false then v.timer else if v.timer + n ≤ 65535 then v.timer + n else 0 } := by
  obtain ht | ht := Bool.eq_false_or_eq_true v.timing
  · by_cases h : v.timer + n ≤ 65535
    · rw [advance_of_le v ht h]
      simp [ht, h]
    · rw [advance_of_gt v ht (by omega)]
      simp [ht, h]
  · rw [advance_of_idle v n ht]
    obtain ⟨⟩ := v
    cases ht
    simp

/-- Microseconds that pass in two parts. -/
theorem advance_advance (m n : Nat) : (v.advance m).advance n = v.advance (m + n) := by
  obtain ht | ht := Bool.eq_false_or_eq_true v.timing
  · by_cases hm : v.timer + m ≤ 65535
    · rw [advance_of_le v ht hm]
      by_cases hn : v.timer + (m + n) ≤ 65535
      · rw [advance_of_le v ht hn, advance_of_le { v with timer := v.timer + m } ht (by show v.timer + m + n ≤ _; omega)]
        exact congrArg (fun k => { v with timer := k }) (Nat.add_assoc _ _ _)
      · rw [advance_of_gt v ht (by omega),
          advance_of_gt { v with timer := v.timer + m } ht (by show _ < v.timer + m + n; omega)]
    · rw [advance_of_gt v ht (by omega), advance_of_gt v ht (by omega)]
      rfl
  · rw [advance_of_idle v m ht, advance_of_idle v n ht, advance_of_idle v _ ht]

theorem waits_iff : v.waits = true ↔ v.raw ≠ v.filtered := by simp [Channel.waits]

theorem hold_of_settled (n : Nat) (h : v.raw = v.filtered) : v.hold n = v.advance n := by
  have : v.waits = false := by simp [Channel.waits, h]
  rw [Channel.hold, this, if_neg (by decide)]
  simp only [advance_eq]

theorem hold_of_waiting (n : Nat) (h : v.raw ≠ v.filtered) : v.hold n = { v with held := v.held + n }.advance n := by
  rw [Channel.hold, if_pos ((waits_iff v).2 h)]
  simp only [advance_eq]

/-- Microseconds that end before the wait of the glitch filter does (R59). -/
theorem elapse_of_settled (n : Nat) (h : v.raw = v.filtered) : v.elapse cfg n = v.advance n := by
  rw [Channel.elapse, if_neg (fun hw => (waits_iff v).1 hw.1 h), hold_of_settled v n h]

theorem elapse_of_waiting {n : Nat} (h : v.raw ≠ v.filtered) (hn : v.held + n < cfg.filter) :
    v.elapse cfg n = { v with held := v.held + n }.advance n := by
  rw [Channel.elapse, if_neg (fun hw => ?_), hold_of_waiting v n h]
  have := hw.2
  simp only [Channel.wait] at this
  omega

/-- Microseconds in which the wait ends: the filtered level follows at its end, and the rest passes after it (R59). -/
theorem elapse_of_held {m : Nat} (rest : Nat) (h : v.raw ≠ v.filtered) (hm : m = cfg.filter - v.held) :
    v.elapse cfg (m + rest) = ((v.advance m).follow cfg.falling).advance rest := by
  subst hm
  rw [Channel.elapse, if_pos ⟨(waits_iff v).2 h, by simp only [Channel.wait]; omega⟩]
  simp only [Channel.wait, Nat.add_sub_cancel_left]

theorem setRaw_of_eq {level : Bool} (h : v.raw = level) : v.setRaw level = v := if_pos h

theorem setRaw_of_ne {level : Bool} (h : v.raw ≠ level) : v.setRaw level = { v with raw := level, held := 0 } := if_neg h

/-- The filtered level follows an edge of the kind that is passed over (R60). -/
theorem follow_of_other {falling : Bool} (h : v.raw ≠ v.filtered) (hraw : v.raw = falling) :
    v.follow falling = { v with filtered := v.raw, held := 0 } := by
  rw [Channel.follow, if_neg (Ne.symm h)]
  exact if_pos hraw

/-- The filtered level follows an edge of the set kind, which is accepted (R60). -/
theorem follow_of_set {falling : Bool} (h : v.raw ≠ v.filtered) (hraw : v.raw ≠ falling) :
    v.follow falling = { v with filtered := v.raw, held := 0 }.accept := by
  rw [Channel.follow, if_neg (Ne.symm h)]
  exact if_neg hraw

/-- What an accepted edge leaves of a channel: a judged period changes the window alone (R60, R62). -/
theorem accept_frame : v.accept.raw = v.raw ∧ v.accept.filtered = v.filtered ∧ v.accept.held = v.held ∧
    v.accept.status = v.status ∧ v.accept.last = v.last ∧ v.accept.run = v.run ∧ v.accept.lastCount = v.lastCount ∧
    v.accept.lastRejects = v.lastRejects ∧ v.accept.timing = true ∧ v.accept.timer = 0 := by
  unfold Channel.accept
  split
  · next ht =>
    unfold Channel.judge
    split
    · split <;> exact ⟨rfl, rfl, rfl, rfl, rfl, rfl, rfl, rfl, ht, rfl⟩
    · split <;> exact ⟨rfl, rfl, rfl, rfl, rfl, rfl, rfl, rfl, ht, rfl⟩
  · exact ⟨rfl, rfl, rfl, rfl, rfl, rfl, rfl, rfl, rfl, rfl⟩

/-- The first edge yields no period (R60). -/
theorem accept_of_idle (ht : v.timing = false) :
    v.accept.sum = v.sum ∧ v.accept.count = v.count ∧ v.accept.rejects = v.rejects := by
  rw [Channel.accept, if_neg (by simp [ht])]
  exact ⟨rfl, rfl, rfl⟩

/-- A period within the acceptance window is counted while the count is below 4095 (R62). -/
theorem accept_of_period (ht : v.timing = true) (hlo : 8400 ≤ v.timer) (hhi : v.timer ≤ 15000) :
    v.accept.rejects = v.rejects ∧
      (v.count < 4095 → v.accept.sum = v.sum + v.timer ∧ v.accept.count = v.count + 1) ∧
      (4095 ≤ v.count → v.accept.sum = v.sum ∧ v.accept.count = v.count) := by
  rw [Channel.accept, if_pos ht, Channel.judge, if_pos ⟨hlo, hhi⟩]
  split
  · next h =>
    refine ⟨rfl, fun _ => ⟨rfl, rfl⟩, fun hfull => ?_⟩
    simp only [Config.windowLimit] at h
    omega
  · next h =>
    refine ⟨rfl, fun hroom => ?_, fun _ => ⟨rfl, rfl⟩⟩
    simp only [Config.windowLimit] at h
    omega

/-- A period outside the acceptance window is rejected (R62). -/
theorem accept_of_reject (ht : v.timing = true) (h : v.timer < 8400 ∨ 15000 < v.timer) :
    v.accept.sum = v.sum ∧ v.accept.count = v.count ∧
      v.accept.rejects = if v.rejects < 4095 then v.rejects + 1 else v.rejects := by
  rw [Channel.accept, if_pos ht, Channel.judge,
    if_neg (by simp only [Config.periodMin, Config.periodMax]; omega)]
  by_cases h : v.rejects < 4095 <;> simp [Config.windowLimit, h]

/-! ### The filtered edge (R59, R60) -/

/-- The channel after the raw level has come to have held m microseconds from now, and the rest after it. -/
def Channel.edge (v : Channel) (level falling : Bool) (m rest : Nat) : Channel :=
  (({ v with raw := level }.advance m).follow falling).advance rest

variable {level falling : Bool} (m rest : Nat)

/-- An edge of the kind that is passed over changes the filtered level, and the timer goes on (R60). -/
theorem edge_of_other (h : level ≠ v.filtered) (hlevel : level = falling) :
    v.edge level falling m rest = { v with raw := level, filtered := level, held := 0 }.advance (m + rest) := by
  have hfollow := follow_of_other ({ v with raw := level }.advance m) (falling := falling)
    (by rw [advance_eq]; exact h) (by rw [advance_eq]; exact hlevel)
  rw [Channel.edge, hfollow, ← advance_advance]
  simp only [advance_eq]

/-- An edge of the set kind is accepted when the wait ends, and the rest passes on the timer that it starts (R60). -/
theorem edge_of_set (h : level ≠ v.filtered) (hlevel : level ≠ falling) :
    v.edge level falling m rest =
      (({ v with raw := level, filtered := level, held := 0 }.advance m).accept).advance rest := by
  have hfollow := follow_of_set ({ v with raw := level }.advance m) (falling := falling)
    (by rw [advance_eq]; exact h) (by rw [advance_eq]; exact hlevel)
  rw [Channel.edge, hfollow]
  simp only [advance_eq]

/-- The timeout of a TIMING channel (R61) whose wait, if it has one, does not end before it. -/
theorem timeOut_of_late (ht : v.timing = true)
    (h : v.raw = v.filtered ∨ 65535 - v.timer ≤ cfg.filter - v.held) :
    v.timeOut cfg = { v with
      timing := false, timer := 0, held := if v.raw = v.filtered then v.held else v.held + (65535 - v.timer) } := by
  have hhold : v.timeOut cfg = (v.hold (65535 - v.timer)).expire := by
    rw [Channel.timeOut, if_pos ht]
    show Channel.expire (if v.wait cfg < 65535 - v.timer then _ else _) = _
    rcases h with h | h
    · rw [elapse_of_settled v cfg _ h, ← hold_of_settled v _ h, ite_self]
      rfl
    · rw [if_neg (by simp only [Channel.wait]; omega)]
      rfl
  rw [hhold, Channel.hold, Channel.expire]
  by_cases hlimit : v.timer ≤ 65535
  · rw [advance_of_le v ht (by omega), if_pos ⟨ht, by show 65535 ≤ v.timer + _; omega⟩]
    by_cases hraw : v.raw = v.filtered <;> simp [Channel.toIdle, Channel.waits, hraw]
  · rw [advance_of_gt v ht (by omega), if_neg (by simp)]
    by_cases hraw : v.raw = v.filtered <;> simp [Channel.waits, hraw]

/-- The timeout of a TIMING channel whose wait ends before it: the edge is taken on the way (R61). -/
theorem timeOut_of_early (ht : v.timing = true) (h : v.raw ≠ v.filtered)
    (hwait : cfg.filter - v.held < 65535 - v.timer) :
    v.timeOut cfg = (v.edge v.raw cfg.falling (cfg.filter - v.held)
      (65535 - v.timer - (cfg.filter - v.held))).expire := by
  rw [Channel.timeOut, if_pos ht]
  show Channel.expire (if v.wait cfg < 65535 - v.timer then v.elapse cfg (65535 - v.timer) else _) = _
  rw [if_pos (by simpa only [Channel.wait] using hwait)]
  have := elapse_of_held v cfg (65535 - v.timer - (cfg.filter - v.held)) h rfl
  rw [show cfg.filter - v.held + (65535 - v.timer - (cfg.filter - v.held)) = 65535 - v.timer by omega] at this
  rw [this]
  rfl

theorem expire_of_lt (h : v.timer < 65535) : v.expire = v := by
  refine if_neg fun hw => ?_
  have := hw.2
  simp only [Config.timerLimit] at this
  omega

theorem expire_of_limit (ht : v.timing = true) (h : v.timer = 65535) :
    v.expire = { v with timing := false, timer := 0 } :=
  if_pos ⟨ht, h.ge⟩

end

/-! ## The rows of the capture lines (R59 to R61) -/

section
variable {ch : Fin 18} {s : State} {v : Channel} {cfg : ChannelSettings} (hp : s.powered = true)
  (hv : v = s.capture.channels.get ch) (hcfg : cfg = s.settings.capture.get ch)

theorem Tab.modify_modify {n : Nat} {α : Type} (t : Tab n α) (i : Fin n) (f g : α → α) :
    (t.modify i f).modify i g = t.modify i fun x => g (f x) := by
  refine Tab.ext_get fun j => ?_
  simp only [Tab.get_modify]
  split <;> simp

theorem modChannel_modChannel (ch : Fin 18) (f g : Channel → Channel) (s : State) :
    modChannel ch g (modChannel ch f s) = modChannel ch (fun x => g (f x)) s := by
  simp only [modChannel, Tab.modify_modify]

include hp hv

/-- A row that changes one capture channel. -/
theorem event_modChannel {block : State → State} {f : Channel → Channel} {w : Channel}
    (hblock : block (nothingRaised s) = modChannel ch f (nothingRaised s)) (hw : f v = w) :
    ∃ t, event block s = .next t ∧ Keeps [.capture] s t ∧ ChannelAlone ch w s t := by
  obtain ⟨t, ht, hkeeps, hafter⟩ := event_of_keeps (l := [.capture]) hp (hblock ▸ modChannel_keeps _ ch f) (by decide)
  rw [hblock] at hafter
  subst hw hv
  exact ⟨t, ht, hkeeps, hafter .capture (by decide)⟩

include hcfg

theorem exec_acceptedEdge {n : Nat} {w : Channel} (hw : v.elapse cfg n = w) :
    ∃ t, exec (.acceptedEdge ch n) s = .next t ∧ Keeps [.capture] s t ∧ ChannelAlone ch w s t :=
  event_modChannel hp hv (block := acceptedEdgeBlock ch n) (f := fun c => c.elapse cfg n) (by subst hcfg; rfl) hw

theorem exec_rawInputChange {level : Bool} {n : Nat} {w : Channel}
    (hw : ((v.elapse cfg n).setRaw level).elapse cfg 0 = w) :
    ∃ t, exec (.rawInputChange ch level n) s = .next t ∧ Keeps [.capture] s t ∧ ChannelAlone ch w s t := by
  have hrow : exec (.rawInputChange ch level n) s = event (rawInputBlock ch level n) s := if_pos hp
  rw [hrow]
  refine event_modChannel hp hv (f := fun c => ((c.elapse cfg n).setRaw level).elapse cfg 0) ?_ hw
  subst hcfg
  simp only [rawInputBlock, channelElapses, setRaw, modChannel_modChannel]
  rfl

theorem exec_timeout {w : Channel} (hw : v.timeOut cfg = w) :
    ∃ t, exec (.timeout ch) s = .next t ∧ Keeps [.capture] s t ∧ ChannelAlone ch w s t :=
  event_modChannel hp hv (block := timeoutBlock ch) (f := fun c => c.timeOut cfg) (by subst hcfg; rfl) hw

end
end Sys2Proof.Machine

namespace Sys2Proof.Machine

/-! ## What an idle second leaves of the capture lines (log entry 5) -/

/-- The raw and filtered levels of every capture channel, and whether it is TIMING. -/
def State.captureLines (s : State) (ch : Fin 18) : Bool × Bool × Bool :=
  ((s.capture.channels.get ch).raw, (s.capture.channels.get ch).filtered, (s.capture.channels.get ch).timing)

/-- A row that always answers next and leaves the capture lines. -/
def LinesStand (i : Instr) : Prop := ∀ s, ∃ t, exec i s = .next t ∧ t.captureLines = s.captureLines

theorem captureLines_of_capture {s t : State} (h : t.capture = s.capture) : t.captureLines = s.captureLines := by
  unfold State.captureLines
  rw [h]

theorem event_linesStand {block : State → State} (h : ∀ s, (block s).captureLines = s.captureLines) (s : State) :
    ∃ t, event block s = .next t ∧ t.captureLines = s.captureLines := by
  cases hp : s.powered with
  | false => exact ⟨s, (event_eq_next_iff block s s).2 (.inr ⟨hp, rfl⟩), rfl⟩
  | true =>
    refine ⟨_, event_powered block s hp, ?_⟩
    have hmatrix := eventsTaken_of_block s (block (nothingRaised s)) .capture (by decide)
    exact (captureLines_of_capture hmatrix).trans (h (nothingRaised s))

theorem event_captureStands {block : State → State} (h : ∀ s, (block s).capture = s.capture) (s : State) :
    ∃ t, event block s = .next t ∧ t.captureLines = s.captureLines :=
  event_linesStand (fun s => captureLines_of_capture (h s)) s

section
variable (s : State)

theorem Reaches.capture {s t : State} (h : Reaches s t) : t.capture = s.capture := h.1 .capture (by decide)

theorem ReachesPosting.capture {s t : State} (h : ReachesPosting s t) : t.capture = s.capture :=
  h.1 .capture (by decide)

theorem ite_capture {c : Prop} [Decidable c] {t : State} (h : t.capture = s.capture) :
    (if c then t else s).capture = s.capture := by
  split
  · exact h
  · rfl

theorem foldl_capture {α : Type} {f : State → α → State} (h : ∀ s a, (f s a).capture = s.capture) (l : List α) :
    (l.foldl f s).capture = s.capture := by
  induction l generalizing s with
  | nil => rfl
  | cons a l ih => exact (ih _).trans (h s a)

theorem takeInTurns_capture (turns : List Nat) : (takeInTurns turns s).capture = s.capture :=
  takeInTurns_keeps turns s .capture (by decide)

theorem raiseEach_capture (k : SourceKind) (indices : List (Fin 16)) : (raiseEach k indices s).capture = s.capture :=
  foldl_capture (f := fun s i => raiseFor k i s) s (fun _ _ => rfl) indices

theorem handReport_capture : (handReport s).capture = s.capture := handReport_keeps s .capture (by decide)

theorem handDemand_capture (order : PassOrder) (d : Demand) : (handDemand order d s).capture = s.capture := by
  have htaken : ∀ stood s, (takeDemand stood d s).capture = s.capture := fun stood s =>
    (takeDemand_reaches stood d s).capture
  have happlied : ∀ s, (applyDemand d s).capture = s.capture := fun _ => rfl
  cases order <;> simp [handDemand, htaken, happlied, handReport_capture]

theorem frostEvent_capture (before after : Tab 16 ZoneRecord) (z : Fin 16) :
    (frostEvent before after s z).capture = s.capture := by
  unfold frostEvent
  split <;> rfl

theorem callEvent_capture (before after : Tab 16 ZoneRecord) (z : Fin 16) :
    (callEvent before after s z).capture = s.capture := by
  unfold callEvent
  split <;> rfl

theorem passBlock_capture (order : Order) : (passBlock order s).capture = s.capture := by
  have hcalls : ∀ before after s, (bringUpCalling before after s).capture = s.capture := fun before after =>
    fun s => foldl_capture s (fun s z => callEvent_capture s before after z) _
  have hfrost : ∀ before after s, ((List.finRange 16).foldl (frostEvent before after) s).capture = s.capture :=
    fun before after s => foldl_capture s (fun s z => frostEvent_capture s before after z) _
  exact (takeInTurns_capture _ _).trans ((hcalls _ _ _).trans ((handDemand_capture _ _ _).trans
    ((takeInTurns_capture _ _).trans (hfrost _ _ _))))

theorem valveUpdateBlock_capture (order : Order) : (valveUpdateBlock order s).capture = s.capture := by
  have hreported : ∀ first faulted s, (reportFaults first faulted s).capture = s.capture := by
    intro first faulted s
    unfold reportFaults
    split
    · rfl
    · exact raiseEach_capture _ _ _
  exact (takeInTurns_capture _ _).trans ((handReport_capture _).trans (hreported _ _ _))

theorem textSendBlock_capture : (textSendBlock s).capture = s.capture := by
  unfold textSendBlock
  split <;> rfl

theorem textSentBlock_capture : (textSentBlock s).capture = s.capture := by
  unfold textSentBlock
  split <;> rfl

theorem saveCompletionBlock_capture (good : Bool) : (saveCompletionBlock good s).capture = s.capture := by
  unfold saveCompletionBlock
  split
  · rfl
  · exact completeSave_keeps _ good s .capture (by decide)

end

/-! ### The window expiry (R64) -/

section
variable (order : Order) (s : State)

/-- The capture unit after a window expiry (R64, R70, R72, R73). -/
def expiredCapture (s : State) : Capture :=
  { s.capture with
    channels := closeWindows s
    lost := setOf fun z => lostNow s (selectAll s (closeWindows s)) z
    publication := publish s (closeWindows s) (selectAll s (closeWindows s)) }

/-- The part with its windows judged and its temperatures selected, before anything is reported (R64, steps 1 and 2). -/
def windowsJudged (s : State) : State := { s with capture := expiredCapture s }

/-- The part with its losses reported and their events taken (R64, step 3). -/
def lossesTaken (order : Order) (s : State) : State :=
  takeRaised (reportLost order.indices (newlyLost s (selectAll s (closeWindows s))) (windowsJudged s))

theorem expireWindow_eq : expireWindow order s = takePublication (lossesTaken order s) := rfl

theorem raiseEach_keeps (k : SourceKind) (indices : List (Fin 16)) : Keeps [.raised] s (raiseEach k indices s) := by
  induction indices generalizing s with
  | nil => exact Keeps.refl _ _
  | cons z indices ih => exact (raiseFor_keeps k z s).trans (ih _)

theorem reportLost_keeps (first : List (Fin 16)) (zones : ZoneSet) :
    Keeps [.raised, .notices] s (reportLost first zones s) :=
  Keeps.ite (Keeps.refl _ _) (((raiseEach_keeps s .sensorLost (arranged first zones)).mono (by simp)).trans
    (((post_keeps _ _ _).mono (by simp)).trans ((post_keeps _ _ _).mono (by simp))))

theorem lossesTaken_keeps : Keeps [.raised, .notices, .links] (windowsJudged s) (lossesTaken order s) :=
  ((reportLost_keeps _ _ _).mono (by decide)).trans ((takeInTurns_keeps [] _).mono (by decide))

theorem expireWindow_capture : (expireWindow order s).capture = expiredCapture s := by
  rw [expireWindow_eq]
  exact (takePublication_reaches _).capture.trans (lossesTaken_keeps order s .capture (by decide))

theorem closeWindow_lines (c : Channel) (offset : Int) : (c.closeWindow offset).raw = c.raw ∧
    (c.closeWindow offset).filtered = c.filtered ∧ (c.closeWindow offset).timing = c.timing := by
  have hjudged : (c.judgeWindow offset).raw = c.raw ∧ (c.judgeWindow offset).filtered = c.filtered ∧
      (c.judgeWindow offset).timing = c.timing := by
    unfold Channel.judgeWindow
    split <;> exact ⟨rfl, rfl, rfl⟩
  exact hjudged

theorem expireWindow_lines : (expireWindow order s).captureLines = s.captureLines := by
  funext ch
  obtain ⟨hraw, hfiltered, htiming⟩ := closeWindow_lines (s.capture.channels.get ch) (s.settings.capture.get ch).offset
  simp only [State.captureLines, expireWindow_capture, expiredCapture, closeWindows, Tab.get_ofFn, hraw, hfiltered,
    htiming]

end

/-! ### The rows of a second -/

theorem secondBoundary_linesStand : LinesStand .secondBoundary := by
  intro s
  cases hp : s.powered with
  | false => exact ⟨s, (event_eq_next_iff secondBoundaryBlock s s).2 (.inr ⟨hp, rfl⟩), rfl⟩
  | true =>
    cases hvalid : s.clock.valid with
    | false =>
      have hblock : secondBoundaryBlock (nothingRaised s) = nothingRaised s := secondBoundaryBlock_of_invalid hvalid
      have hrow := event_powered secondBoundaryBlock s hp
      rw [withMatrix_of_quiet (by rw [hblock]; rfl), hblock] at hrow
      exact ⟨s, hrow, rfl⟩
    | true =>
      by_cases hsecond : s.clock.second = 59
      · obtain ⟨hrow, hkeeps⟩ := exec_secondBoundary_of_minute hp hvalid hsecond
        exact ⟨_, hrow, captureLines_of_capture (hkeeps .capture (by decide))⟩
      · exact ⟨_, exec_secondBoundary_of_second hp hvalid hsecond, rfl⟩

/-- The timers' rows act on the firing controller. -/
theorem firingRows_linesStand : ∀ i ∈ [Instr.minOnExpiry, .minOffExpiry, .overrunExpiry, .pathWaitExpiry,
    .flameWaitExpiry, .faultPersistenceExpiry, .timedCallExpiry, .priorityExpiry, .diverterOpen], LinesStand i := by
  simp only [List.forall_mem_cons, List.not_mem_nil, false_implies, implies_true, and_true]
  exact ⟨event_captureStands (block := minOnBlock) fun s => ite_capture s (settle_reaches _).capture,
    event_captureStands (block := minOffBlock) fun s => ite_capture s (settle_reaches _).capture,
    event_captureStands (block := overrunBlock) fun s => ite_capture s (endOverrun_reaches _).capture,
    event_captureStands (block := pathWaitBlock) fun s => ite_capture s (postBoth_reaches _ _).capture,
    event_captureStands (block := flameWaitBlock) fun s => ite_capture s (postBoth_reaches _ _).capture,
    event_captureStands (block := faultPersistenceBlock) fun s => ite_capture s (lockOut_reaches _ _).capture,
    event_captureStands (block := timedCallBlock) fun s => ite_capture s (deriveCall_reaches _).capture,
    event_captureStands (block := priorityBlock) fun s => ite_capture s (endPriority_reaches _).capture,
    event_captureStands (block := diverterOpenBlock) fun s => ite_capture s (settle_reaches _).capture⟩

/-- A row that may be due leaves the capture lines whenever it is. -/
def DueStands (due : State → Option Instr) : Prop := ∀ s i, due s = some i → LinesStand i

theorem dueWhen_stands {p : State → Bool} {i : Instr} (h : LinesStand i) : DueStands (dueWhen p i) := by
  intro s j hj
  unfold dueWhen at hj
  split at hj
  · cases hj
    exact h
  · cases hj

theorem saveDue_stands : DueStands saveDue := by
  intro s i hi
  obtain ⟨o, -, rfl⟩ := Option.map_eq_some_iff.1 hi
  exact event_captureStands fun s => saveCompletionBlock_capture s _

theorem secondRows_stand : ∀ due ∈ secondRows, DueStands due := by
  have hsend : DueStands (dueWhen responseReady .textResponseSend) :=
    dueWhen_stands (event_captureStands textSendBlock_capture)
  have hsent : DueStands (dueWhen lineBusy .textResponseSent) :=
    dueWhen_stands (event_captureStands textSentBlock_capture)
  have hdrain : ∀ due ∈ drainRows, DueStands due := by
    intro due hdue
    simp only [drainRows, List.mem_cons, List.mem_flatten, List.mem_replicate] at hdue
    obtain rfl | ⟨_, ⟨-, rfl⟩, hdue⟩ := hdue
    · exact hsent
    · simp only [List.mem_cons, List.not_mem_nil, or_false] at hdue
      obtain rfl | rfl := hdue
      · exact hsend
      · exact hsent
  have htimer : ∀ p i, i ∈ [Instr.minOnExpiry, .minOffExpiry, .overrunExpiry, .pathWaitExpiry, .flameWaitExpiry,
      .faultPersistenceExpiry, .timedCallExpiry, .priorityExpiry, .diverterOpen] → DueStands (dueWhen p i) :=
    fun p i hi => dueWhen_stands (firingRows_linesStand i hi)
  intro due hdue
  simp only [secondRows, List.mem_append, List.mem_cons, List.mem_map, List.not_mem_nil, or_false] at hdue
  obtain ((((rfl | hdue) | rfl | rfl | rfl | rfl | rfl | rfl | rfl | rfl | rfl | rfl | rfl | rfl | rfl | rfl) |
    ⟨ch, -, rfl⟩) | ⟨ch, -, rfl⟩) := hdue
  · exact saveDue_stands
  · exact hdrain due hdue
  · exact dueWhen_stands secondBoundary_linesStand
  · exact dueWhen_stands (event_linesStand (block := captureSecondBlock) fun _ => rfl)
  · exact dueWhen_stands (event_linesStand fun s => expireWindow_lines _ _)
  iterate 9 exact htimer _ _ (by decide)
  · exact dueWhen_stands (event_captureStands fun s => passBlock_capture _ _)
  · exact dueWhen_stands (event_captureStands fun s => valveUpdateBlock_capture _ _)
  · exact dueWhen_stands (event_captureStands (block := driveLineOffBlock ch) fun _ => rfl)
  · exact dueWhen_stands (event_captureStands (block := cycleStartBlock ch) fun _ => rfl)

/-- Rows that leave the capture lines, taken one after the other where they are due. -/
theorem takeDues_linesStand {rows : List (State → Option Instr)} (h : ∀ due ∈ rows, DueStands due) (s : State) :
    ∃ t, rows.foldl takeDue (.next s) = .next t ∧ t.captureLines = s.captureLines := by
  induction rows generalizing s with
  | nil => exact ⟨s, rfl, rfl⟩
  | cons due rows ih =>
    have hrest := ih fun d hd => h d (List.mem_cons_of_mem _ hd)
    cases hdue : due s with
    | none =>
      have hstep : takeDue (.next s) due = .next s := by simp only [takeDue, hdue]
      rw [List.foldl_cons, hstep]
      exact hrest s
    | some i =>
      obtain ⟨u, hu, hlines⟩ := h due List.mem_cons_self s i hdue s
      have hstep : takeDue (.next s) due = .next u := by simp only [takeDue, hdue, hu]
      obtain ⟨t, ht, hlines'⟩ := hrest u
      rw [List.foldl_cons, hstep]
      exact ⟨t, ht, hlines'.trans hlines⟩

/-- A second in which the input stands still (R59, R61): the wait ends, and the timer times out. -/
theorem elapse_second (v : Channel) {cfg : ChannelSettings} (h : cfg.filter ≤ 32) :
    (v.elapse cfg secondMicros).timing = false ∧ (v.elapse cfg secondMicros).raw = v.raw ∧
      (v.elapse cfg secondMicros).filtered = v.raw := by
  by_cases hraw : v.raw = v.filtered
  · rw [elapse_of_settled v cfg _ hraw, advance_eq]
    exact ⟨by simp [secondMicros], rfl, hraw.symm⟩
  · have hsplit := elapse_of_held v cfg (secondMicros - (cfg.filter - v.held)) hraw rfl
    rw [show cfg.filter - v.held + (secondMicros - (cfg.filter - v.held)) = secondMicros by
      simp only [secondMicros]; omega] at hsplit
    have hrest : 65535 < secondMicros - (cfg.filter - v.held) := by
      simp only [secondMicros]
      omega
    have hedge : v.elapse cfg secondMicros =
        v.edge v.raw cfg.falling (cfg.filter - v.held) (secondMicros - (cfg.filter - v.held)) := hsplit
    have htimer : ∀ n, decide (n + (secondMicros - (cfg.filter - v.held)) ≤ 65535) = false :=
      fun n => decide_eq_false (by omega)
    rw [hedge]
    by_cases hset : v.raw = cfg.falling
    · rw [edge_of_other v _ _ hraw hset, advance_eq]
      exact ⟨by simp [← Nat.add_assoc, htimer], rfl, rfl⟩
    · rw [edge_of_set v _ _ hraw hset, advance_eq]
      obtain ⟨haccepted, hfiltered, -⟩ :=
        accept_frame ({ v with raw := v.raw, filtered := v.raw, held := 0 }.advance (cfg.filter - v.held))
      exact ⟨by simp [htimer], haccepted.trans (by rw [advance_eq]), hfiltered.trans (by rw [advance_eq])⟩

/-- What the filtered edge leaves and what it counts (R59, R60, R62). -/
theorem edge_frame (v : Channel) {level falling : Bool} (m rest : Nat) (h : level ≠ v.filtered) {w : Channel}
    (hw : v.edge level falling m rest = w) :
    w.raw = level ∧ w.filtered = level ∧ w.held = 0 ∧ w.status = v.status ∧ w.last = v.last ∧ w.run = v.run ∧
      w.lastCount = v.lastCount ∧ w.lastRejects = v.lastRejects := by
  subst hw
  by_cases hlevel : level = falling
  · rw [edge_of_other v m rest h hlevel, advance_eq]
    exact ⟨rfl, rfl, rfl, rfl, rfl, rfl, rfl, rfl⟩
  · rw [edge_of_set v m rest h hlevel, advance_eq]
    obtain ⟨hraw, hfiltered, hheld, hstatus, hlast, hrun, hcount, hrejects, -⟩ :=
      accept_frame ({ v with raw := level, filtered := level, held := 0 }.advance m)
    rw [advance_eq] at *
    exact ⟨hraw, hfiltered, hheld, hstatus, hlast, hrun, hcount, hrejects⟩

/-- An edge that is passed over yields no period, and the timer goes on (R60). -/
theorem edge_passed (v : Channel) {level falling : Bool} (m rest : Nat) (h : level ≠ v.filtered)
    (hlevel : level = falling) {w : Channel} (hw : v.edge level falling m rest = w) :
    w.sum = v.sum ∧ w.count = v.count ∧ w.rejects = v.rejects ∧
      w.timing = (v.timing && decide (v.timer + (m + rest) ≤ 65535)) ∧
      w.timer = (if v.timing = false then v.timer
        else if v.timer + (m + rest) ≤ 65535 then v.timer + (m + rest) else 0) := by
  rw [← hw, edge_of_other v m rest h hlevel, advance_eq]
  exact ⟨rfl, rfl, rfl, rfl, rfl⟩

/-- An edge accepted after m microseconds yields what the timer has come to as a period that is judged (R60, R62). -/
theorem advance_accept (u : Channel) (m : Nat) :
    (u.timing = false ∨ 65535 < u.timer + m → (u.advance m).accept.sum = u.sum ∧
      (u.advance m).accept.count = u.count ∧ (u.advance m).accept.rejects = u.rejects) ∧
    (u.timing = true → 8400 ≤ u.timer + m → u.timer + m ≤ 15000 → (u.advance m).accept.rejects = u.rejects ∧
      (u.count < 4095 → (u.advance m).accept.sum = u.sum + (u.timer + m) ∧
        (u.advance m).accept.count = u.count + 1) ∧
      (4095 ≤ u.count → (u.advance m).accept.sum = u.sum ∧ (u.advance m).accept.count = u.count)) ∧
    (u.timing = true → u.timer + m < 8400 ∨ 15000 < u.timer + m → u.timer + m ≤ 65535 →
      (u.advance m).accept.sum = u.sum ∧ (u.advance m).accept.count = u.count ∧
        (u.advance m).accept.rejects = if u.rejects < 4095 then u.rejects + 1 else u.rejects) := by
  refine ⟨fun hidle => ?_, fun ht hlo hhi => ?_, fun ht hperiod hlimit => ?_⟩
  · have hstopped : (u.advance m).timing = false := by
      rw [advance_eq]
      rcases hidle with hidle | hidle
      · simp [hidle]
      · simp [Nat.not_le.2 hidle]
    obtain ⟨hsum, hcount, hrejects⟩ := accept_of_idle (u.advance m) hstopped
    refine ⟨hsum.trans ?_, hcount.trans ?_, hrejects.trans ?_⟩ <;> rw [advance_eq]
  · rw [advance_of_le u ht (by omega)]
    exact accept_of_period { u with timer := u.timer + m } ht hlo hhi
  · rw [advance_of_le u ht hlimit]
    exact accept_of_reject { u with timer := u.timer + m } ht hperiod

/-- An accepted edge starts the timer afresh, and yields the microseconds counted as a period that is judged (R60,
R62). -/
theorem edge_accepted (v : Channel) {level falling : Bool} (m rest : Nat) (h : level ≠ v.filtered)
    (hlevel : level ≠ falling) {w : Channel} (hw : v.edge level falling m rest = w) :
    w.timing = decide (rest ≤ 65535) ∧ w.timer = (if rest ≤ 65535 then rest else 0) ∧
      (v.timing = false ∨ 65535 < v.timer + m → w.sum = v.sum ∧ w.count = v.count ∧ w.rejects = v.rejects) ∧
      (v.timing = true → 8400 ≤ v.timer + m → v.timer + m ≤ 15000 → w.rejects = v.rejects ∧
        (v.count < 4095 → w.sum = v.sum + (v.timer + m) ∧ w.count = v.count + 1) ∧
        (4095 ≤ v.count → w.sum = v.sum ∧ w.count = v.count)) ∧
      (v.timing = true → v.timer + m < 8400 ∨ 15000 < v.timer + m → v.timer + m ≤ 65535 →
        w.sum = v.sum ∧ w.count = v.count ∧
          w.rejects = (if v.rejects < 4095 then v.rejects + 1 else v.rejects)) := by
  rw [edge_of_set v m rest h hlevel, advance_eq] at hw
  obtain ⟨-, -, -, -, -, -, -, -, htiming, htimer⟩ :=
    accept_frame ({ v with raw := level, filtered := level, held := 0 }.advance m)
  subst hw
  exact ⟨by simp [htiming, htimer], by simp [htiming, htimer],
    advance_accept { v with raw := level, filtered := level, held := 0 } m⟩

/-- A level that waits, and microseconds in which it does not come to have held (R59 to R61). -/
theorem elapse_of_short (v : Channel) (cfg : ChannelSettings) {n : Nat} {w : Channel}
    (h : v.raw = v.filtered ∧ w = v ∨
      v.raw ≠ v.filtered ∧ v.held + n < cfg.filter ∧ w = { v with held := v.held + n }) :
    v.elapse cfg n = w.advance n := by
  rcases h with ⟨h, rfl⟩ | ⟨h, hn, rfl⟩
  · exact elapse_of_settled w cfg n h
  · exact elapse_of_waiting v cfg h hn

/-- A row that brings no time leaves a wait that is not over (R59). -/
theorem elapse_zero (v : Channel) (cfg : ChannelSettings) (h : v.raw = v.filtered ∨ v.held < cfg.filter) :
    v.elapse cfg 0 = v.advance 0 := by
  by_cases hraw : v.raw = v.filtered
  · exact elapse_of_settled v cfg 0 hraw
  · exact elapse_of_waiting v cfg hraw (h.resolve_left hraw)

/-- Where a filter waits, a new level leaves the filtered level, however long the old one had stood (R59). -/
theorem setRaw_of_short (v : Channel) (cfg : ChannelSettings) {level : Bool} {n : Nat} (hlevel : level ≠ v.raw)
    (hfilter : 0 < cfg.filter) (h : v.raw = v.filtered ∨ v.held + n < cfg.filter) :
    ((v.elapse cfg n).setRaw level).elapse cfg 0 = { v with raw := level, held := 0 }.advance n := by
  obtain ⟨k, hk⟩ : ∃ k, v.elapse cfg n = { v with held := k }.advance n := by
    by_cases hraw : v.raw = v.filtered
    · exact ⟨v.held, elapse_of_settled v cfg n hraw⟩
    · exact ⟨v.held + n, elapse_of_waiting v cfg hraw (h.resolve_left hraw)⟩
  have hset : (v.elapse cfg n).setRaw level = { v with raw := level, held := 0 }.advance n := by
    rw [hk, setRaw_of_ne _ (by rw [advance_eq]; exact Ne.symm hlevel)]
    simp only [advance_eq]
  rw [hset, elapse_zero _ cfg (.inr (by rw [advance_eq]; exact hfilter)), advance_advance]
  rfl

/-- A level that the line already has is no change (R59). -/
theorem setRaw_of_same (v : Channel) (cfg : ChannelSettings) {n : Nat} {w : Channel}
    (h : v.raw = v.filtered ∧ w = v ∨
      v.raw ≠ v.filtered ∧ v.held + n < cfg.filter ∧ w = { v with held := v.held + n }) :
    ((v.elapse cfg n).setRaw v.raw).elapse cfg 0 = w.advance n := by
  have hraw : w.raw = v.raw ∧ (w.raw = w.filtered ∨ w.held < cfg.filter) := by
    rcases h with ⟨h, rfl⟩ | ⟨-, hn, rfl⟩
    · exact ⟨rfl, .inl h⟩
    · exact ⟨rfl, .inr hn⟩
  rw [elapse_of_short v cfg h, setRaw_of_eq _ (by rw [advance_eq]; exact hraw.1),
    elapse_zero _ cfg (by rw [advance_eq]; exact hraw.2), advance_advance]
  rfl

/-- With a filter of 0 µs a new level is at once a filtered edge (R59). -/
theorem setRaw_of_unfiltered (v : Channel) (cfg : ChannelSettings) {level : Bool} (m : Nat) (hraw : v.raw = v.filtered)
    (hlevel : level ≠ v.raw) (hfilter : cfg.filter = 0) :
    ((v.elapse cfg m).setRaw level).elapse cfg 0 = v.edge level cfg.falling m 0 := by
  let u : Channel := { v with raw := level, held := 0 }
  have hset : (v.elapse cfg m).setRaw level = u.advance m := by
    rw [elapse_of_settled v cfg m hraw, setRaw_of_ne _ (by rw [advance_eq]; exact Ne.symm hlevel)]
    simp only [advance_eq, u]
  have hheld : (u.advance m).elapse cfg 0 = (((u.advance m).advance 0).follow cfg.falling).advance 0 :=
    elapse_of_held (u.advance m) cfg (m := 0) 0 (by rw [advance_eq]; exact hraw ▸ hlevel) (by omega)
  have hedge : (((u.advance m).advance 0).follow cfg.falling).advance 0 = u.edge level cfg.falling m 0 := by
    rw [advance_advance]
    rfl
  have hfiltered : level ≠ v.filtered := hraw ▸ hlevel
  rw [hset, hheld, hedge]
  by_cases hset : level = cfg.falling
  · rw [edge_of_other u m 0 hfiltered hset, edge_of_other v m 0 hfiltered hset]
  · rw [edge_of_set u m 0 hfiltered hset, edge_of_set v m 0 hfiltered hset]

/-- An accepted edge on the way leaves no timeout to take (R61). -/
theorem timeOut_of_accepted (v : Channel) (cfg : ChannelSettings) {m rest : Nat} (ht : v.timing = true)
    (hraw : v.raw ≠ v.filtered) (hset : v.raw ≠ cfg.falling) (hm : m = cfg.filter - v.held) (hpos : 0 < m)
    (hrest : 0 < rest) (hlimit : v.timer + (m + rest) = 65535) :
    v.timeOut cfg = v.edge v.raw cfg.falling m rest := by
  rw [timeOut_of_early v cfg ht hraw (by omega), ← hm, show 65535 - v.timer - m = rest by omega]
  obtain ⟨-, htimer, -⟩ := edge_accepted v m rest hraw hset rfl
  exact expire_of_lt _ (by rw [htimer, if_pos (by omega)]; omega)

/-- A timeout counts nothing: the wait goes on, or its edge is passed over on the way (R61). -/
theorem timeOut_uncounted (v : Channel) (cfg : ChannelSettings) {w : Channel} (ht : v.timing = true)
    (h : v.raw = v.filtered ∧ w = { v with timing := false, timer := 0 } ∨
      v.raw ≠ v.filtered ∧ 65535 - v.timer ≤ cfg.filter - v.held ∧
        w = { v with timing := false, timer := 0, held := v.held + (65535 - v.timer) } ∨
      v.raw ≠ v.filtered ∧ cfg.filter - v.held < 65535 - v.timer ∧ v.raw = cfg.falling ∧
        w = { v with timing := false, timer := 0, filtered := v.raw, held := 0 }) :
    v.timeOut cfg = w := by
  rcases h with ⟨hraw, rfl⟩ | ⟨hraw, hlate, rfl⟩ | ⟨hraw, hearly, hother, rfl⟩
  · rw [timeOut_of_late v cfg ht (.inl hraw), if_pos hraw]
  · rw [timeOut_of_late v cfg ht (.inr hlate), if_neg hraw]
  · rw [timeOut_of_early v cfg ht hraw hearly, edge_of_other v _ _ hraw hother]
    let u : Channel := { v with raw := v.raw, filtered := v.raw, held := 0 }
    have hsum : v.timer + (cfg.filter - v.held + (65535 - v.timer - (cfg.filter - v.held))) = 65535 := by omega
    have hadvanced := advance_of_le u ht hsum.le
    exact (congrArg Channel.expire hadvanced).trans (expire_of_limit _ ht hsum)

theorem timeOut_of_idle (v : Channel) (cfg : ChannelSettings) (ht : v.timing = false) : v.timeOut cfg = v :=
  if_neg (by simp [ht])

theorem Tab.modify_of_eq {n : Nat} {α : Type} (t : Tab n α) {i : Fin n} {f : α → α} (h : f (t.get i) = t.get i) :
    t.modify i f = t := by
  refine Tab.ext_get fun j => ?_
  rw [Tab.get_modify]
  split
  · next hj => exact hj ▸ h
  · rfl

theorem exec_timeout_of_idle {ch : Fin 18} {s : State} (hp : s.powered = true)
    (ht : (s.capture.channels.get ch).timing = false) : exec (.timeout ch) s = .next s := by
  have hblock : timeoutBlock ch (nothingRaised s) = nothingRaised s := by
    have hidle := Tab.modify_of_eq s.capture.channels (timeOut_of_idle _ (s.settings.capture.get ch) ht)
    exact congrArg (fun x => { nothingRaised s with capture := { s.capture with channels := x } }) hidle
  have hrow := event_powered (timeoutBlock ch) s hp
  rw [withMatrix_of_quiet (by rw [hblock]; rfl), hblock] at hrow
  exact hrow

/-- Settles O30: each row is the time that it carries, spent on one channel; a wait that ends in it is an edge, and in an
idle second every wait ends. -/
theorem edgesYieldJudgedPeriods : Obligations.EdgesYieldJudgedPeriods := by
  intro ch s v cfg hp hv hcfg
  refine ⟨fun i n w hrow => ?_, fun i level m rest hrow => ?_, fun w ht hrow => ?_, fun ht => ?_,
    fun hpending hhanded hfilter => ?_⟩
  · have hshort : (∃ t, exec i s = .next t ∧ Keeps [.capture] s t ∧ ChannelAlone ch (w.advance n) s t) ∧
        w.timing = v.timing ∧ w.timer = v.timer := by
      rcases hrow with ⟨level, rfl, hlevel, hfilter, hshort, rfl⟩ | ⟨hrow, hshort⟩
      · exact ⟨exec_rawInputChange hp hv hcfg (setRaw_of_short v cfg hlevel hfilter hshort), rfl, rfl⟩
      · refine ⟨?_, by rcases hshort with ⟨-, rfl⟩ | ⟨-, -, rfl⟩ <;> exact ⟨rfl, rfl⟩⟩
        rcases hrow with rfl | rfl
        · exact exec_acceptedEdge hp hv hcfg (elapse_of_short v cfg hshort)
        · exact exec_rawInputChange hp hv hcfg (setRaw_of_same v cfg hshort)
    obtain ⟨⟨t, ht, hkeeps, hchannel⟩, htiming, htimer⟩ := hshort
    refine ⟨t, ht, hkeeps, fun timer htimer' => ?_⟩
    rw [advance_eq, htiming, htimer] at hchannel
    exact htimer' ▸ hchannel
  · have hedge : level ≠ v.filtered ∧ ∃ t, exec i s = .next t ∧ Keeps [.capture] s t ∧
        ChannelAlone ch (v.edge level cfg.falling m rest) s t := by
      rcases hrow with ⟨rfl, hraw, rfl, hm⟩ | ⟨rfl, hraw, hlevel, hfilter, rfl⟩ |
        ⟨rfl, ht, hraw, rfl, hset, hm, hpos, hrest, hlimit⟩
      · exact ⟨hraw, exec_acceptedEdge hp hv hcfg (elapse_of_held v cfg rest hraw hm)⟩
      · exact ⟨hraw ▸ hlevel, exec_rawInputChange hp hv hcfg (setRaw_of_unfiltered v cfg m hraw hlevel hfilter)⟩
      · exact ⟨hraw, exec_timeout hp hv hcfg (timeOut_of_accepted v cfg ht hraw hset hm hpos hrest hlimit)⟩
    obtain ⟨hlevel, t, ht, hkeeps, hchannel⟩ := hedge
    obtain ⟨hraw, hfiltered, hheld, hstatus, hlast, hrun, hcount, hrejects⟩ := edge_frame v m rest hlevel rfl
    exact ⟨t, ht, hkeeps, _, hchannel, hraw, hfiltered, hheld, hstatus, hlast, hrun, hcount, hrejects,
      fun hother => edge_passed v m rest hlevel hother rfl, fun hset => edge_accepted v m rest hlevel hset rfl⟩
  · exact exec_timeout hp hv hcfg (timeOut_uncounted v cfg ht hrow)
  · exact exec_timeout_of_idle hp (hv ▸ ht)
  · obtain ⟨t, ht, hlines⟩ := takeDues_linesStand secondRows_stand (secondPasses s)
    have hstep : step s = .next t := by
      simp only [step, hpending, idle, hp, if_true, hhanded]
      exact ht
    obtain ⟨htiming, hraw, hfiltered⟩ := elapse_second v hfilter
    have hch := congrFun hlines ch
    simp only [State.captureLines, secondPasses, Tab.get_ofFn, ← hv, ← hcfg, Prod.mk.injEq] at hch
    obtain ⟨hraw', hfiltered', htiming'⟩ := hch
    exact ⟨t, _, hstep, rfl, htiming'.trans htiming, hraw'.trans hraw, hfiltered'.trans hfiltered⟩

end Sys2Proof.Machine

namespace Sys2Proof.Machine

/-! ## The events of a line (R121) -/

/-- The event of a line that goes from one level to another, or none where it stays (R121). -/
def lineEvents (on off : SourceKind) (before after : Bool) : List SourceEvent :=
  if before = after then [] else [⟨if after then on else off, 0⟩]

@[simp] theorem lineEvents_self (on off : SourceKind) (level : Bool) : lineEvents on off level level = [] := if_pos rfl

/-- What the publication and the matrix look at in the controller's record: its lines, its hot-water call, its state with
the lockout record, the flow temperature and the min-off timer. -/
def Firing.outputs (f : Firing) :
    Bool × Bool × Bool × FiringState × Option Lockout × Option Int × TempStatus × Option Nat :=
  (f.burner, f.pump, f.call, f.state, f.lockout, f.flow, f.flowStatus, f.minOff)

/-- An operation that raises nothing and leaves what `outputs` names. -/
structure Silent (s t : State) : Prop where
  raised : t.raised = s.raised
  outputs : t.firing.outputs = s.firing.outputs

theorem Silent.refl (s : State) : Silent s s := ⟨rfl, rfl⟩

theorem Silent.trans {s t u : State} (h : Silent s t) (k : Silent t u) : Silent s u :=
  ⟨k.raised.trans h.raised, k.outputs.trans h.outputs⟩

section
variable (s : State)

theorem modFiring_silent {f : Firing → Firing} {s : State} (h : (f s.firing).outputs = s.firing.outputs) :
    Silent s (modFiring f s) := ⟨rfl, h⟩

theorem setDiverter_silent : Silent s (setDiverter s) := by
  unfold setDiverter
  dsimp only
  split <;> exact ⟨rfl, rfl⟩

theorem fixHold_silent : Silent s (fixHold s) := ⟨rfl, rfl⟩

theorem releaseHold_silent : Silent s (releaseHold s) :=
  Silent.trans (t := writeHold 0 (modFiring (fun f => { f with hold := none }) s)) ⟨rfl, rfl⟩ (setDiverter_silent _)

theorem releaseAnyHold_silent : Silent s (releaseAnyHold s) := by
  unfold releaseAnyHold
  split
  · exact releaseHold_silent s
  · exact .refl s

theorem formFlow_silent : Silent s (formFlow s) := by
  unfold formFlow
  split
  · split <;> exact ⟨rfl, rfl⟩
  · exact .refl s

theorem formHeating_silent : Silent s (formHeating s) := by
  unfold formHeating
  split
  · exact (modFiring_silent rfl).trans (formFlow_silent _)
  · exact .refl s

theorem holdForLockout_silent : Silent s (holdForLockout s) := by
  unfold holdForLockout
  split
  · exact fixHold_silent s
  · exact releaseAnyHold_silent s

/-- Driving the burner line writes the line and tells of its change (R121). -/
theorem setBurner_spec (on : Bool) : (setBurner on s).firing = { s.firing with burner := on } ∧
    (setBurner on s).raised = s.raised ++ lineEvents .burnerOn .burnerOff s.firing.burner on := by
  unfold setBurner lineEvents
  split
  · next h =>
    subst h
    exact ⟨rfl, (List.append_nil _).symm⟩
  · exact ⟨rfl, rfl⟩

/-- Driving the pump line writes the line and tells of its change (R121). -/
theorem setPump_spec (on : Bool) : (setPump on s).firing = { s.firing with pump := on } ∧
    (setPump on s).raised = s.raised ++ lineEvents .pumpOn .pumpOff s.firing.pump on := by
  unfold setPump lineEvents
  split
  · next h =>
    subst h
    exact ⟨rfl, (List.append_nil _).symm⟩
  · exact ⟨rfl, rfl⟩

/-! ## What entries and exits show (R121, R124, R126) -/

theorem enterFiring_shows : (enterFiring s).raised = s.raised ++
      lineEvents .pumpOn .pumpOff s.firing.pump true ++ lineEvents .burnerOn .burnerOff s.firing.burner true ∧
    (enterFiring s).firing.outputs = (true, true, s.firing.call, .firing, s.firing.lockout, s.firing.flow,
      s.firing.flowStatus, s.firing.minOff) := by
  obtain ⟨hpump, hpumped⟩ := setPump_spec s true
  obtain ⟨hburner, hburned⟩ := setBurner_spec (setPump true s) true
  have hsilent : ∀ u, Silent u (releaseAnyHold (formHeating u)) := fun u =>
    (formHeating_silent u).trans (releaseAnyHold_silent _)
  refine ⟨(hsilent _).raised.trans (hburned.trans ?_), (hsilent _).outputs.trans ?_⟩
  · rw [hpumped, hpump]
  · simp only [modFiring_fields, Firing.outputs, hburner, hpump]

/-- The burner goes OFF and the min-off timer starts on every passage out of FIRING (R126, R127). -/
theorem leaveFiring_shows : (leaveFiring s).raised = s.raised ++
      lineEvents .burnerOn .burnerOff s.firing.burner false ∧
    (leaveFiring s).firing.outputs = (false, s.firing.pump, s.firing.call, s.firing.state, s.firing.lockout,
      s.firing.flow, s.firing.flowStatus, startTimer s.settings.firing.minOff) := by
  obtain ⟨hburner, hburned⟩ := setBurner_spec s false
  refine ⟨hburned, ?_⟩
  simp only [leaveFiring, modFiring_fields, Firing.outputs, hburner]

theorem enterQuiet_shows (state : FiringState) : (enterQuiet state s).raised = s.raised ∧
    (enterQuiet state s).firing.outputs = (s.firing.burner, s.firing.pump, s.firing.call, state, s.firing.lockout,
      s.firing.flow, s.firing.flowStatus, s.firing.minOff) := ⟨rfl, rfl⟩

theorem startOverrun_shows : (startOverrun s).raised = s.raised ∧
    (startOverrun s).firing.outputs = (s.firing.burner, s.firing.pump, s.firing.call, .overrun, s.firing.lockout,
      s.firing.flow, s.firing.flowStatus, s.firing.minOff) ∧
    (startOverrun s).firing.overrun = startTimer s.settings.firing.overrun := by
  unfold startOverrun
  dsimp only
  split <;> exact ⟨rfl, rfl, rfl⟩

/-! ## The state selection (R122) -/

theorem selection_eq_firing_iff : selection s = .firing ↔
    s.firing.anyCall = true ∧ s.firing.pathExists = true ∧ permitted s = true := by
  unfold selection
  split_ifs <;> simp_all

/-- The selection names IDLE, WAIT_PATH, BLOCKED or FIRING. -/
theorem selection_cases : selection s = .firing ∨ selection s = .idle ∨ selection s = .waitPath ∨
    selection s = .blocked := by
  unfold selection
  split_ifs <;> simp

theorem selection_ne_lockout : selection s ≠ .lockout := by
  rcases selection_cases s with h | h | h | h <;> simp [h]

end

/-- What bars FIRING while the min-off timer is left aside: no call, no path, or no permission (R119, R122). -/
def Barred (s : State) : Prop :=
  s.firing.anyCall = false ∨ s.firing.pathExists = false ∨ unobstructed s = false

theorem Barred.selection_ne {s : State} (h : Barred s) : selection s ≠ .firing := by
  intro hfiring
  obtain ⟨hcall, hpath, hpermitted⟩ := (selection_eq_firing_iff s).1 hfiring
  have hfree : unobstructed s = true := (Bool.and_eq_true _ _ ▸ hpermitted).1
  simp [Barred, hcall, hpath, hfree] at h

/-- What calls for FIRING to be left keeps it from being selected (R122, R126). -/
theorem barred_of_mustStop {s : State} (h : mustStop s = true) : Barred s := by
  simp only [mustStop, Bool.or_eq_true, Bool.not_eq_true', Bool.and_eq_true] at h
  rcases h with (h | h) | h
  · exact .inr (.inl h)
  · exact .inr (.inr h)
  · exact .inl h.1

/-- The fields of the controller's record that its call, path and permission are decided from, the hot-water path apart
(R118, R119). -/
def Firing.reasons (f : Firing) : Demand × PathReport × Bool × Bool × Bool × TempStatus :=
  (f.demand, f.report, f.call, f.inhibitText, f.inhibitWire, f.flowStatus)

theorem unobstructed_congr {s t : State} (hinputs : t.inputs = s.inputs)
    (hreasons : t.firing.reasons = s.firing.reasons) : unobstructed t = unobstructed s := by
  simp only [Firing.reasons, Prod.mk.injEq] at hreasons
  obtain ⟨-, -, -, htext, hwire, hstatus⟩ := hreasons
  simp only [unobstructed, Firing.flowKnown, hinputs, htext, hwire, hstatus]

/-- FIRING stays barred where the hot-water path can only go. -/
theorem Barred.mono {s t : State} (h : Barred s) (hinputs : t.inputs = s.inputs)
    (hreasons : t.firing.reasons = s.firing.reasons) (hpath : t.firing.dhwPath = true → s.firing.dhwPath = true) :
    Barred t := by
  have hfree := unobstructed_congr hinputs hreasons
  simp only [Firing.reasons, Prod.mk.injEq] at hreasons
  obtain ⟨hdemand, hreport, hcall, -⟩ := hreasons
  rcases h with h | h | h
  · left
    simpa only [Firing.anyCall, Firing.heatingCall, Firing.heatingZones, hdemand, hreport, hcall] using h
  · right; left
    simp only [Firing.pathExists, hreport, Bool.or_eq_false_iff] at h ⊢
    exact ⟨h.1, Bool.eq_false_iff.2 fun hp => Bool.eq_false_iff.1 h.2 (hpath hp)⟩
  · exact .inr (.inr (hfree.trans h))

section
variable (s : State)

theorem leaveFiring_reasons : (leaveFiring s).firing.reasons = s.firing.reasons ∧
    (leaveFiring s).firing.dhwPath = s.firing.dhwPath := by
  simp only [leaveFiring, modFiring_fields, Firing.reasons, (setBurner_spec s false).1, and_self]

theorem startOverrun_reasons : (startOverrun s).firing.reasons = s.firing.reasons ∧
    (startOverrun s).firing.dhwPath = s.firing.dhwPath := by
  unfold startOverrun
  dsimp only
  split <;> exact ⟨rfl, rfl⟩

theorem setDiverter_reasons : (setDiverter s).firing.reasons = s.firing.reasons := by
  unfold setDiverter
  dsimp only
  split <;> rfl

/-- The pump stopped and the hold set released, with the state that was selected before (R128). -/
def runOnEnded (s : State) : State := enterQuiet (selection s) (releaseHold (setPump false s))

theorem runOnEnded_shows : (runOnEnded s).raised = s.raised ++ lineEvents .pumpOn .pumpOff s.firing.pump false ∧
    (runOnEnded s).firing.outputs = (s.firing.burner, false, s.firing.call, selection s, s.firing.lockout,
      s.firing.flow, s.firing.flowStatus, s.firing.minOff) := by
  obtain ⟨hpump, hpumped⟩ := setPump_spec s false
  obtain ⟨hraised, houtputs⟩ := releaseHold_silent (setPump false s)
  refine ⟨hraised.trans hpumped, ?_⟩
  rw [hpump] at houtputs
  simp only [Firing.outputs, Prod.mk.injEq] at houtputs
  obtain ⟨hburner, hoff, hcall, -, hlockout, hflow, hstatus, hminOff⟩ := houtputs
  simp only [runOnEnded, enterQuiet, modFiring_fields, Firing.outputs, hburner, hoff, hcall, hlockout, hflow, hstatus,
    hminOff]

theorem runOnEnded_inputs : (runOnEnded s).inputs = s.inputs :=
  (((setPump_reaches false s).andThen releaseHold_reaches).andThen (enterQuiet_reaches _)).1 .inputs (by decide)

theorem runOnEnded_reasons : (runOnEnded s).firing.reasons = s.firing.reasons := by
  have hpump : (setPump false s).firing.reasons = s.firing.reasons := by rw [(setPump_spec s false).1]; rfl
  exact (setDiverter_reasons _).trans hpump

/-- Where the diverter line follows the call and the hold set, releasing the set gives no hot-water path (R129, R139). -/
theorem runOnEnded_path {s : State} (h : s.firing.DiverterFollows) (hpath : (runOnEnded s).firing.dhwPath = true) :
    s.firing.dhwPath = true := by
  have hfollows : s.firing.diverter = (s.firing.call || s.firing.diverterHeld) := h
  let u : State := writeHold 0 (modFiring (fun f => { f with hold := none }) (setPump false s))
  have hu : u.firing = { s.firing with pump := false, hold := none } := by
    simp only [u, writeHold_fields, modFiring_fields, (setPump_spec s false).1]
  have hreleased : (setDiverter u).firing.dhwPath = true := hpath
  unfold setDiverter at hreleased
  dsimp only at hreleased
  split at hreleased
  · rwa [hu] at hreleased
  · next hne =>
    simp only [modFiring_fields, hu, Firing.diverterHeld, Option.map_none, Option.getD_none, Bool.or_false,
      Bool.and_eq_true] at hne hreleased
    rw [hfollows, hreleased.1, Bool.true_or] at hne
    exact absurd rfl hne

theorem endOverrun_eq : endOverrun s =
    if selection s = .firing then enterFiring s else selectQuiet (runOnEnded s) := rfl

/-- The run-on ends in IDLE, WAIT_PATH or BLOCKED where FIRING is selected neither before nor after (R128). -/
theorem endOverrun_shows {s : State} (hbefore : selection s ≠ .firing) (hafter : selection (runOnEnded s) ≠ .firing) :
    (endOverrun s).raised = s.raised ++ lineEvents .pumpOn .pumpOff s.firing.pump false ∧
      (endOverrun s).firing.outputs = (s.firing.burner, false, s.firing.call, selection (runOnEnded s),
        s.firing.lockout, s.firing.flow, s.firing.flowStatus, s.firing.minOff) := by
  obtain ⟨hraised, houtputs⟩ := runOnEnded_shows s
  simp only [Firing.outputs, Prod.mk.injEq] at houtputs
  obtain ⟨hburner, hpump, hcall, hstate, hlockout, hflow, hstatus, hminOff⟩ := houtputs
  have hselected : selectQuiet (runOnEnded s) = enterQuiet (selection (runOnEnded s)) (runOnEnded s) := by
    unfold selectQuiet select
    rw [hstate, if_neg hafter]
    rcases selection_cases s with h | h | h | h
    · exact absurd h hbefore
    all_goals rw [h]
  rw [endOverrun_eq, if_neg hbefore, hselected]
  refine ⟨hraised, ?_⟩
  rw [(enterQuiet_shows _ _).2, hburner, hpump, hcall, hlockout, hflow, hstatus, hminOff]

/-! ## What the settling of a state leaves of the publication (R122, R126) -/

/-- The lockout record and the flow temperature, which a passage between the other states leaves. -/
def Firing.published (f : Firing) : Option Lockout × Option Int × TempStatus := (f.lockout, f.flow, f.flowStatus)

/-- A passage that ends outside LOCKOUT and leaves the lockout record and the flow temperature. -/
structure StaysOut (s t : State) : Prop where
  state : t.firing.state ≠ .lockout
  published : t.firing.published = s.firing.published

theorem StaysOut.of_outputs {s t : State} {b p c : Bool} {k : FiringState} {m : Option Nat}
    (h : t.firing.outputs = (b, p, c, k, s.firing.lockout, s.firing.flow, s.firing.flowStatus, m)) (hk : k ≠ .lockout) :
    StaysOut s t := by
  simp only [Firing.outputs, Prod.mk.injEq] at h
  obtain ⟨-, -, -, hstate, hlockout, hflow, hstatus, -⟩ := h
  exact ⟨hstate ▸ hk, by simp only [Firing.published, hlockout, hflow, hstatus]⟩

theorem StaysOut.trans {s t u : State} (h : StaysOut s t) (k : StaysOut t u) : StaysOut s u :=
  ⟨k.state, k.published.trans h.published⟩

theorem enterFiring_staysOut : StaysOut s (enterFiring s) := .of_outputs (enterFiring_shows s).2 (by decide)

theorem select_staysOut : StaysOut s (select s) := by
  unfold select
  split
  · exact enterFiring_staysOut s
  · exact .of_outputs (enterQuiet_shows s _).2 (selection_ne_lockout s)

theorem selectQuiet_staysOut (h : s.firing.state ≠ .lockout) : StaysOut s (selectQuiet s) := by
  unfold selectQuiet
  split
  · exact select_staysOut s
  · exact select_staysOut s
  · exact select_staysOut s
  all_goals exact ⟨h, rfl⟩

theorem endOverrun_staysOut : StaysOut s (endOverrun s) := by
  rw [endOverrun_eq]
  split
  · exact enterFiring_staysOut s
  · have hended : StaysOut s (runOnEnded s) := .of_outputs (runOnEnded_shows s).2 (selection_ne_lockout s)
    exact hended.trans (selectQuiet_staysOut _ hended.state)

theorem enterOverrun_staysOut : StaysOut s (enterOverrun s) := by
  have hstarted : StaysOut s (startOverrun s) := .of_outputs (startOverrun_shows s).2.1 (by decide)
  unfold enterOverrun
  split
  · exact hstarted.trans (endOverrun_staysOut _)
  · exact hstarted

theorem settle_staysOut (h : s.firing.state ≠ .lockout) : StaysOut s (settle s) := by
  unfold settle
  split
  · exact select_staysOut s
  · exact select_staysOut s
  · exact select_staysOut s
  · split
    · exact enterFiring_staysOut s
    · exact ⟨h, rfl⟩
  · split
    · have hleft : StaysOut s (leaveFiring s) := .of_outputs (leaveFiring_shows s).2 h
      exact hleft.trans (enterOverrun_staysOut _)
    · exact ⟨h, rfl⟩
  · exact ⟨h, rfl⟩

end
end Sys2Proof.Machine

namespace Sys2Proof.Machine

/-! ## One event for each change (R121, R134, R137) -/

/-- The events that tell of the changes of the burner line, the pump line, the hot-water call and LOCKOUT. -/
def changeEvents (s t : State) : List SourceEvent :=
  lineEvents .burnerOn .burnerOff s.firing.burner t.firing.burner ++
    lineEvents .pumpOn .pumpOff s.firing.pump t.firing.pump ++
    lineEvents .dhwOn .dhwOff s.firing.call t.firing.call ++
    lineEvents .lockoutOn .lockoutOff (decide (s.firing.state = .lockout)) (decide (t.firing.state = .lockout))

/-- Between two states one event has been raised for each change that the matrix is told of. -/
def Told (s t : State) : Prop := t.raised.Perm (s.raised ++ changeEvents s t)

theorem parametersOf_lineEvents {on off : SourceKind} (h : on ≠ off) (kind : SourceKind) (a b : Bool) :
    parametersOf kind (lineEvents on off a b) =
      if (decide (kind = on) && (!a && b)) || (decide (kind = off) && (a && !b)) then [0] else [] := by
  by_cases hon : kind = on
  · subst hon
    cases a <;> cases b <;> simp [lineEvents, parametersOf, h, Ne.symm h]
  · by_cases hoff : kind = off
    · subst hoff
      cases a <;> cases b <;> simp [lineEvents, parametersOf, h, hon]
    · cases a <;> cases b <;> simp [lineEvents, parametersOf, hon, hoff, Ne.symm hon, Ne.symm hoff]

/-- The change events of a kind are the one that the kind shows, or none. -/
theorem parametersOf_changeEvents (s t : State) (kind : SourceKind) :
    parametersOf kind (changeEvents s t) = (List.finRange 16).filter fun z => decide (z = 0) && kind.shown s t := by
  have hshown : ((List.finRange 16).filter fun z => decide (z = 0) && kind.shown s t) =
      if kind.shown s t then [0] else [] := by
    cases kind.shown s t <;> decide
  rw [hshown]
  simp only [changeEvents, parametersOf_append]
  repeat rw [parametersOf_lineEvents (by decide)]
  cases kind <;> simp [SourceKind.shown]

theorem Told.parameters {s t : State} (h : Told s t) (hs : s.raised = []) (kind : SourceKind) :
    (parametersOf kind t.raised).Perm ((List.finRange 16).filter fun z => decide (z = 0) && kind.shown s t) := by
  have hevents : t.raised.Perm (changeEvents s t) := by
    unfold Told at h
    rwa [hs, List.nil_append] at h
  rw [← parametersOf_changeEvents]
  exact (hevents.filter _).map _

/-- What has been told depends on the lines, the call and the state alone. -/
theorem told_iff {s t : State} {b p c : Bool} {k : FiringState} {l : Option Lockout} {x : Option Int} {q : TempStatus}
    {m : Option Nat} (h : t.firing.outputs = (b, p, c, k, l, x, q, m)) : Told s t ↔
      t.raised.Perm (s.raised ++ (lineEvents .burnerOn .burnerOff s.firing.burner b ++
        lineEvents .pumpOn .pumpOff s.firing.pump p ++ lineEvents .dhwOn .dhwOff s.firing.call c ++
        lineEvents .lockoutOn .lockoutOff (decide (s.firing.state = .lockout)) (decide (k = .lockout)))) := by
  simp only [Firing.outputs, Prod.mk.injEq] at h
  obtain ⟨rfl, rfl, rfl, rfl, -⟩ := h
  rfl

/-! ## FIRING left (R126 to R129) -/

section
variable {s : State}

/-- The run-on that begins as FIRING is left. -/
def runOn (s : State) : State := startOverrun (leaveFiring s)

theorem runOn_keeps : Keeps passageParts s (runOn s) := (leaveFiring_reaches s).1.trans (startOverrun_reaches _).1

theorem runOn_reasons : (runOn s).firing.reasons = s.firing.reasons ∧ (runOn s).firing.dhwPath = s.firing.dhwPath := by
  obtain ⟨hleft, hpath⟩ := leaveFiring_reasons s
  obtain ⟨hstarted, hpath'⟩ := startOverrun_reasons (leaveFiring s)
  exact ⟨hstarted.trans hleft, hpath'.trans hpath⟩

theorem runOn_shows : (runOn s).raised = s.raised ++ lineEvents .burnerOn .burnerOff s.firing.burner false ∧
    (runOn s).firing.outputs = (false, s.firing.pump, s.firing.call, .overrun, s.firing.lockout, s.firing.flow,
      s.firing.flowStatus, startTimer s.settings.firing.minOff) ∧
    (runOn s).firing.overrun = startTimer s.settings.firing.overrun := by
  obtain ⟨hraised, houtputs⟩ := leaveFiring_shows s
  obtain ⟨hraised', houtputs', hoverrun⟩ := startOverrun_shows (leaveFiring s)
  have hsettings : (leaveFiring s).settings = s.settings := (leaveFiring_reaches s).1 .settings (by decide)
  simp only [Firing.outputs, Prod.mk.injEq] at houtputs
  obtain ⟨hburner, hpump, hcall, -, hlockout, hflow, hstatus, hminOff⟩ := houtputs
  rw [hburner, hpump, hcall, hlockout, hflow, hstatus, hminOff] at houtputs'
  exact ⟨hraised'.trans hraised, houtputs', hoverrun.trans (by rw [hsettings])⟩

/-- The diverter line still follows the call and the hold set, which takes the line as it stands (R129, R139). -/
theorem runOn_follows (h : s.firing.DiverterFollows) : (runOn s).firing.DiverterFollows := by
  have hleft : (leaveFiring s).firing.DiverterFollows := h.congr (setBurner_grounds false s)
  have hfollows : (leaveFiring s).firing.diverter =
    ((leaveFiring s).firing.call || (leaveFiring s).firing.diverterHeld) := hleft
  unfold runOn startOverrun
  dsimp only
  split
  · exact hleft
  · show (leaveFiring s).firing.diverter = ((leaveFiring s).firing.call || (leaveFiring s).firing.diverter)
    rw [hfollows]
    cases (leaveFiring s).firing.call <;> simp

theorem runOnEnded_barred (hstop : mustStop s = true) (hkept : s.firing.DiverterFollows ∨ unobstructed s = false) :
    Barred (runOnEnded (runOn s)) := by
  obtain ⟨hreasons, hpath⟩ := runOn_reasons (s := s)
  have hinputs : (runOnEnded (runOn s)).inputs = s.inputs :=
    (runOnEnded_inputs _).trans (runOn_keeps .inputs (by decide))
  have hreasons' : (runOnEnded (runOn s)).firing.reasons = s.firing.reasons := (runOnEnded_reasons _).trans hreasons
  rcases hkept with hfollows | hfree
  · exact (barred_of_mustStop hstop).mono hinputs hreasons' fun h =>
      hpath ▸ runOnEnded_path (runOn_follows hfollows) h
  · exact .inr (.inr ((unobstructed_congr hinputs hreasons').trans hfree))

/-- FIRING left for OVERRUN, which a setting of 0 ends at once: the burner is OFF and the min-off timer runs, and nothing
selects FIRING again in the same event (R126 to R128). -/
theorem stop_shows (hstop : mustStop s = true) (hkept : s.firing.DiverterFollows ∨ unobstructed s = false) :
    ∃ p k, (enterOverrun (leaveFiring s)).raised = s.raised ++
        lineEvents .burnerOn .burnerOff s.firing.burner false ++ lineEvents .pumpOn .pumpOff s.firing.pump p ∧
      (enterOverrun (leaveFiring s)).firing.outputs = (false, p, s.firing.call, k, s.firing.lockout, s.firing.flow,
        s.firing.flowStatus, startTimer s.settings.firing.minOff) ∧ k ≠ .firing ∧ k ≠ .lockout ∧
      (0 < s.settings.firing.overrun →
        k = .overrun ∧ (enterOverrun (leaveFiring s)).firing.overrun = some s.settings.firing.overrun) := by
  obtain ⟨hraised, houtputs, hoverrun⟩ := runOn_shows (s := s)
  have hsettings : (leaveFiring s).settings = s.settings := (leaveFiring_reaches s).1 .settings (by decide)
  have hentered : enterOverrun (leaveFiring s) =
      if s.settings.firing.overrun = 0 then endOverrun (runOn s) else runOn s := by
    rw [← hsettings]
    rfl
  rw [hentered]
  split
  · next hzero =>
    have hbarred : Barred (runOn s) := (barred_of_mustStop hstop).mono (runOn_keeps .inputs (by decide))
      runOn_reasons.1 fun h => runOn_reasons.2 ▸ h
    have hended := runOnEnded_barred hstop hkept
    obtain ⟨hraised', houtputs'⟩ := endOverrun_shows hbarred.selection_ne hended.selection_ne
    simp only [Firing.outputs, Prod.mk.injEq] at houtputs
    obtain ⟨hburner, hpump, hcall, -, hlockout, hflow, hstatus, hminOff⟩ := houtputs
    rw [hburner, hcall, hlockout, hflow, hstatus, hminOff] at houtputs'
    rw [hpump, hraised] at hraised'
    exact ⟨_, _, hraised', houtputs', hended.selection_ne, selection_ne_lockout _, fun h => absurd hzero (by omega)⟩
  · next hpositive =>
    refine ⟨s.firing.pump, .overrun, by rw [lineEvents_self, List.append_nil, hraised], houtputs, by decide, by decide,
      fun _ => ⟨rfl, ?_⟩⟩
    rw [hoverrun, startTimer, if_neg hpositive]

theorem mustStop_of_obstructed (h : unobstructed s = false) : mustStop s = true := by
  simp [mustStop, h]

theorem settle_of_firing (hstate : s.firing.state = .firing) (hstop : mustStop s = true) :
    settle s = enterOverrun (leaveFiring s) := by
  simp only [settle, hstate, hstop, if_true]

/-! ## What a settling state tells the matrix (R121, R122) -/

theorem Told.of_silent {t : State} (hraised : t.raised = s.raised) {k : FiringState} {m : Option Nat}
    (houtputs : t.firing.outputs = (s.firing.burner, s.firing.pump, s.firing.call, k, s.firing.lockout, s.firing.flow,
      s.firing.flowStatus, m)) (hk : k = .lockout ↔ s.firing.state = .lockout) : Told s t := by
  rw [told_iff houtputs, hraised]
  simp [hk]

theorem Told.refl (s : State) : Told s s := .of_silent rfl rfl Iff.rfl

theorem enterFiring_told (h : s.firing.state ≠ .lockout) : Told s (enterFiring s) := by
  obtain ⟨hraised, houtputs⟩ := enterFiring_shows s
  rw [told_iff houtputs, hraised, List.append_assoc]
  simp only [h, lineEvents_self, decide_false, reduceCtorEq, List.append_nil]
  exact List.Perm.append_left _ List.perm_append_comm

theorem select_told (h : s.firing.state ≠ .lockout) : Told s (select s) := by
  unfold select
  split
  · exact enterFiring_told h
  · exact .of_silent (enterQuiet_shows s _).1 (enterQuiet_shows s _).2
      (iff_of_false (selection_ne_lockout s) h)

theorem stop_told (h : s.firing.state ≠ .lockout) (hstop : mustStop s = true)
    (hkept : s.firing.DiverterFollows ∨ unobstructed s = false) : Told s (enterOverrun (leaveFiring s)) := by
  obtain ⟨p, k, hraised, houtputs, -, hk, -⟩ := stop_shows hstop hkept
  rw [told_iff houtputs, hraised, List.append_assoc]
  simp [h, hk]

/-- Settling tells of each change once, where the diverter line follows the call and the hold set. -/
theorem settle_told (h : s.firing.DiverterFollows) : Told s (settle s) := by
  unfold settle
  split
  · next hs => exact select_told (by simp [hs])
  · next hs => exact select_told (by simp [hs])
  · next hs => exact select_told (by simp [hs])
  · next hs =>
    split
    · exact enterFiring_told (by simp [hs])
    · exact .refl s
  · next hs =>
    split
    · next hstop => exact stop_told (by simp [hs]) hstop (.inl h)
    · exact .refl s
  · exact .refl s

end
end Sys2Proof.Machine

namespace Sys2Proof.Machine

/-! ## The high limit and LOCKOUT (R132, R134, R135) -/

section
variable (s : State)

theorem trips_iff : trips s = true ↔
    s.firing.flowStatus ≠ .invalid ∧ ∃ x ∈ s.firing.flow, s.settings.firing.highLimit < x := by
  cases hflow : s.firing.flow <;> simp [trips, Firing.flowKnown, hflow]

theorem flowHot_iff : flowHot s = true ↔
    s.firing.flowStatus ≠ .invalid ∧ ∃ x ∈ s.firing.flow, s.settings.firing.highLimit - 1000 ≤ x := by
  cases hflow : s.firing.flow <;> simp [flowHot, Firing.flowKnown, hflow]

/-- A flow above the high limit keeps the pump ON in LOCKOUT (R134). -/
theorem flowHot_of_trips {s : State} (h : trips s = true) : flowHot s = true := by
  obtain ⟨hknown, x, hx, hlimit⟩ := (trips_iff s).1 h
  exact (flowHot_iff s).2 ⟨hknown, x, hx, by omega⟩

theorem flowHot_congr {s t : State} (hsettings : t.settings = s.settings) (hflow : t.firing.flow = s.firing.flow)
    (hstatus : t.firing.flowStatus = s.firing.flowStatus) : flowHot t = flowHot s := by
  simp only [flowHot, Firing.flowKnown, hsettings, hflow, hstatus]

/-- FIRING left, where it stands, as LOCKOUT is entered (R134). -/
def firingLeft (s : State) : State := if s.firing.state = .firing then leaveFiring s else s

/-- The burner as LOCKOUT is entered (R134). -/
def burnerLeft (s : State) : Bool := if s.firing.state = .firing then false else s.firing.burner

theorem firingLeft_reaches : Reaches s (firingLeft s) := by
  unfold firingLeft
  split
  · exact leaveFiring_reaches s
  · exact .refl s

theorem firingLeft_shows : (firingLeft s).raised = s.raised ++
      lineEvents .burnerOn .burnerOff s.firing.burner (burnerLeft s) ∧
    ∃ m, (firingLeft s).firing.outputs = (burnerLeft s, s.firing.pump, s.firing.call, s.firing.state, s.firing.lockout,
      s.firing.flow, s.firing.flowStatus, m) := by
  unfold firingLeft burnerLeft
  split
  · exact ⟨(leaveFiring_shows s).1, _, (leaveFiring_shows s).2⟩
  · exact ⟨by rw [lineEvents_self, List.append_nil], _, rfl⟩

/-- The controller's record as LOCKOUT is entered, its lines apart (R134). -/
def lockoutEntered (reason : LockoutReason) (s : State) : State :=
  modFiring (fun f => { f with
    state := .lockout
    lockout := some (lockoutRecord reason s)
    minOn := none
    overrun := none
    pathWait := none
    flameWait := none
    flowTarget := none
    heating := none
    ceiling := none
    code := 0 }) s

theorem enterLockout_eq (reason : LockoutReason) : enterLockout reason s =
    postBoth .lockout (raise .lockoutOn (holdForLockout
      (setPump (flowHot (lockoutEntered reason (firingLeft s))) (lockoutEntered reason (firingLeft s))))) := rfl

/-- Entry to LOCKOUT for a flow above the high limit (R134). -/
theorem enterLockout_shows {s : State} (h : trips s = true) :
    (enterLockout .highLimit s).raised = s.raised ++ lineEvents .burnerOn .burnerOff s.firing.burner (burnerLeft s) ++
        lineEvents .pumpOn .pumpOff s.firing.pump true ++ [⟨.lockoutOn, 0⟩] ∧
      (∃ m, (enterLockout .highLimit s).firing.outputs = (burnerLeft s, true, s.firing.call, .lockout,
        some ⟨true, false, s.clock.now, s.firing.flow⟩, s.firing.flow, s.firing.flowStatus, m)) ∧
      ∀ p, (enterLockout .highLimit s).notices.of p = (s.notices.of p).take .lockout := by
  obtain ⟨hleft, m, houtputs⟩ := firingLeft_shows s
  simp only [Firing.outputs, Prod.mk.injEq] at houtputs
  obtain ⟨hburner, hpump, hcall, -, -, hflow, hstatus, hminOff⟩ := houtputs
  have hkeeps := (firingLeft_reaches s).1
  have hclock : (firingLeft s).clock = s.clock := hkeeps .clock (by decide)
  have hsettings : (firingLeft s).settings = s.settings := hkeeps .settings (by decide)
  have hhot : flowHot (lockoutEntered .highLimit (firingLeft s)) = true := by
    have hsame : flowHot (lockoutEntered .highLimit (firingLeft s)) = flowHot s := flowHot_congr hsettings hflow hstatus
    exact hsame.trans (flowHot_of_trips h)
  have hknown : s.firing.flowKnown = true := by
    have := ((trips_iff s).1 h).1
    simpa [Firing.flowKnown] using this
  have hrecord : lockoutRecord .highLimit (firingLeft s) = ⟨true, false, s.clock.now, s.firing.flow⟩ := by
    have hknown' : (firingLeft s).firing.flowKnown = true := by rwa [Firing.flowKnown, hstatus]
    simp only [lockoutRecord, Lockout.add, hclock, hflow, hknown', if_true]
  obtain ⟨hlines, hpumped⟩ := setPump_spec (lockoutEntered .highLimit (firingLeft s)) true
  obtain ⟨hsilent, hsilent'⟩ := holdForLockout_silent (setPump true (lockoutEntered .highLimit (firingLeft s)))
  rw [enterLockout_eq, hhot]
  refine ⟨?_, ⟨m, ?_⟩, fun p => ?_⟩
  · have hbefore : (lockoutEntered .highLimit (firingLeft s)).firing.pump = s.firing.pump := hpump
    have hraised : (lockoutEntered .highLimit (firingLeft s)).raised = (firingLeft s).raised := rfl
    rw [hraised, hleft, hbefore] at hpumped
    show (holdForLockout _).raised ++ [⟨.lockoutOn, 0⟩] = _
    rw [hsilent, hpumped]
  · refine hsilent'.trans ?_
    rw [hlines]
    simp only [lockoutEntered, modFiring_fields, Firing.outputs, hburner, hcall, hrecord, hflow, hstatus, hminOff]
  · rw [postBoth_notices_of]
    have hheld : Reaches s (raise .lockoutOn (holdForLockout
        (setPump true (lockoutEntered .highLimit (firingLeft s))))) :=
      ((((firingLeft_reaches s).andThen fun u => modFiring_reaches _ u).andThen (setPump_reaches true)).andThen
        holdForLockout_reaches).andThen (raise_reaches _)
    rw [show (raise _ _).notices = s.notices from hheld.1 .notices (by decide)]

theorem enterLockout_told {s : State} (hs : s.firing.state ≠ .lockout) (h : trips s = true) :
    Told s (enterLockout .highLimit s) := by
  obtain ⟨hraised, ⟨m, houtputs⟩, -⟩ := enterLockout_shows h
  rw [told_iff houtputs, hraised]
  simp [hs, lineEvents]

/-- The lockout record with the high limit added to its reasons, posted as LOCKOUT (R134). -/
def limitAdded (l : Lockout) (s : State) : State :=
  postBoth .lockout (modFiring (fun f => { f with lockout := some { l with highLimit := true } }) s)

/-- In LOCKOUT the trip adds its reason where the set lacks it (R134). -/
theorem testHighLimit_of_lockout {s : State} (hs : s.firing.state = .lockout) {l : Lockout}
    (hl : s.firing.lockout = some l) :
    testHighLimit s = if trips s && !l.highLimit then limitAdded l s else s := by
  have hlockOut : lockOut .highLimit s = if l.highLimit then s else limitAdded l s := by
    unfold lockOut
    rw [if_pos hs, hl]
    rfl
  unfold testHighLimit
  rw [hlockOut]
  cases trips s <;> cases l.highLimit <;> rfl

theorem testHighLimit_of_none {s : State} (hs : s.firing.state = .lockout) (hl : s.firing.lockout = none) :
    testHighLimit s = s := by
  have hlockOut : lockOut .highLimit s = s := by
    unfold lockOut
    rw [if_pos hs, hl]
  unfold testHighLimit
  rw [hlockOut, ite_self]

/-- What the trip shows in LOCKOUT: the reason in the record, and nothing told. -/
theorem testHighLimit_shows {s : State} (hs : s.firing.state = .lockout) :
    (testHighLimit s).firing = { s.firing with
        lockout := s.firing.lockout.map fun l => { l with highLimit := l.highLimit || trips s } } ∧
      (testHighLimit s).raised = s.raised ∧ (testHighLimit s).valves = s.valves ∧
      (testHighLimit s).settings = s.settings := by
  cases hl : s.firing.lockout with
  | none =>
    rw [testHighLimit_of_none hs hl, Option.map_none, ← hl]
    exact ⟨rfl, rfl, rfl, rfl⟩
  | some l =>
    rw [testHighLimit_of_lockout hs hl, Option.map_some]
    split
    · next hadds =>
      obtain ⟨htrips, -⟩ := Bool.and_eq_true _ _ ▸ hadds
      rw [htrips, Bool.or_true]
      exact ⟨rfl, rfl, rfl, rfl⟩
    · next hstays =>
      have hsame : (l.highLimit || trips s) = l.highLimit := by
        cases hreason : l.highLimit <;> simp_all
      rw [hsame, ← hl]
      exact ⟨rfl, rfl, rfl, rfl⟩

theorem testHighLimit_notices {s : State} (hs : s.firing.state = .lockout) {l : Lockout}
    (hl : s.firing.lockout = some l) (p : Port) :
    (testHighLimit s).notices.of p =
      if trips s && !l.highLimit then (s.notices.of p).take .lockout else s.notices.of p := by
  rw [testHighLimit_of_lockout hs hl]
  split
  · exact postBoth_notices_of _ _ p
  · rfl

theorem setDiverter_hold : (setDiverter s).firing.hold = s.firing.hold ∧ (setDiverter s).valves = s.valves := by
  unfold setDiverter
  dsimp only
  split <;> exact ⟨rfl, rfl⟩

/-- The lockout record after its peak has followed the flow (R135). -/
def peakFollowed (s : State) : State :=
  modFiring (fun f => { f with lockout := f.lockout.map fun l => l.follow f.flowKnown f.flow }) s

theorem lockoutPublication_eq : lockoutPublication s =
    if s.firing.pump && !flowHot s then releaseHold (setPump false (peakFollowed s)) else peakFollowed s := rfl

theorem releaseHold_hold : (releaseHold s).firing.hold = none ∧ (releaseHold s).valves.latestHold = 0 := by
  obtain ⟨hhold, hvalves⟩ := setDiverter_hold (writeHold 0 (modFiring (fun f => { f with hold := none }) s))
  exact ⟨hhold, congrArg Valves.latestHold hvalves⟩

/-- What a publication does in LOCKOUT beside the trip (R135): the peak follows the flow, and the pump stops with its hold
set where the flow has cooled. -/
theorem lockoutPublication_shows {s : State} (hs : s.firing.state = .lockout) :
    (lockoutPublication s).raised = s.raised ++
        lineEvents .pumpOn .pumpOff s.firing.pump (s.firing.pump && flowHot s) ∧
      (lockoutPublication s).firing.outputs = (s.firing.burner, s.firing.pump && flowHot s, s.firing.call, .lockout,
        s.firing.lockout.map fun l => l.follow s.firing.flowKnown s.firing.flow, s.firing.flow, s.firing.flowStatus,
        s.firing.minOff) ∧
      (s.firing.pump = true → flowHot s = false →
        (lockoutPublication s).firing.hold = none ∧ (lockoutPublication s).valves.latestHold = 0) ∧
      (s.firing.pump = false ∨ flowHot s = true → (lockoutPublication s).firing.hold = s.firing.hold ∧
        (lockoutPublication s).valves.latestHold = s.valves.latestHold) := by
  rw [lockoutPublication_eq]
  cases hcools : s.firing.pump && !flowHot s with
  | true =>
    obtain ⟨hpump, hcool⟩ := Bool.and_eq_true _ _ ▸ hcools
    rw [Bool.not_eq_true'] at hcool
    obtain ⟨hlines, hpumped⟩ := setPump_spec (peakFollowed s) false
    obtain ⟨hraised, houtputs⟩ := releaseHold_silent (setPump false (peakFollowed s))
    rw [if_pos rfl, hcool, Bool.and_false]
    refine ⟨hraised.trans hpumped, ?_, fun _ _ => releaseHold_hold _, fun h => ?_⟩
    · rw [houtputs, hlines, ← hs]
      rfl
    · simp [hpump] at h
  | false =>
    have hstays : (s.firing.pump && flowHot s) = s.firing.pump := by
      cases hpump : s.firing.pump <;> simp_all
    rw [hstays, lineEvents_self, List.append_nil, ← hs]
    refine ⟨rfl, rfl, fun hpump hcool => ?_, fun _ => ⟨rfl, rfl⟩⟩
    simp [hpump, hcool] at hcools

end
end Sys2Proof.Machine

namespace Sys2Proof.Machine

/-! ## Events taken in two goes of one step (R149) -/

theorem EventSettings.passed_none (c : EventSettings) : (c.passed fun _ => false) = 0 := by
  simp [EventSettings.passed]

theorem EventsTaken.after_none {s u t : State} {kind : SourceKind} {p : Fin 16 → Bool}
    (h : EventsTaken s u kind fun _ => false) (hsettings : u.settings = s.settings) (k : EventsTaken u t kind p) :
    EventsTaken s t kind p := by
  intro e henabled hkind
  have hcount := (h e henabled hkind).1 (EventSettings.passed_none _)
  have htaken := k e (by rwa [hsettings]) (by rwa [hsettings])
  rwa [hcount, hsettings] at htaken

theorem EventsTaken.then_none {s u t : State} {kind : SourceKind} {p : Fin 16 → Bool}
    (h : EventsTaken s u kind p) (hsettings : u.settings = s.settings) (k : EventsTaken u t kind fun _ => false) :
    EventsTaken s t kind p := by
  intro e henabled hkind
  have hcount := (k e (by rwa [hsettings]) (by rwa [hsettings])).1 (EventSettings.passed_none _)
  rw [hcount]
  exact h e henabled hkind

/-! ## The losses of a window expiry (R72) -/

section
variable (first : List (Fin 16)) (p : Fin 16 → Bool) (s : State)

theorem raiseEach_raised (k : SourceKind) (indices : List (Fin 16)) :
    (raiseEach k indices s).raised = s.raised ++ indices.map fun i => ⟨k, i⟩ := by
  induction indices generalizing s with
  | nil => exact (List.append_nil _).symm
  | cons i indices ih =>
    refine (ih (raiseFor k i s)).trans ?_
    rw [List.map_cons, List.append_cons]
    rfl

theorem setOf_eq_zero_iff : setOf p = 0 ↔ ∀ z, p z = false := by
  rw [← not_iff_not, ← ne_eq, set_ne_zero_iff]
  simp

theorem reportLost_raised : (reportLost first (setOf p) s).raised =
    s.raised ++ (arranged first (setOf p)).map fun z => ⟨.sensorLost, z⟩ := by
  unfold reportLost
  split
  · next hzero =>
    have hnone : arranged first (setOf p) = [] := by
      refine List.Perm.eq_nil ((arranged_perm first p).trans (.of_eq ?_))
      simp [(setOf_eq_zero_iff p).1 hzero]
    rw [hnone, List.map_nil, List.append_nil]
  · exact raiseEach_raised s _ _

theorem reportLost_notices (port : Port) : (reportLost first (setOf p) s).notices.of port =
    if setOf p = 0 then s.notices.of port else (s.notices.of port).take (.zoneSensor (setOf p)) := by
  unfold reportLost
  split
  · rfl
  · rw [postBoth_notices_of, raiseEach_keeps _ _ _ .notices (by decide)]

theorem PortNotices.take_zoneSensor (r : PortNotices) (zones : ZoneSet) :
    (r.take (.zoneSensor zones)).zoneSensor = mergeScope (r.kinds.getLsbD 5) r.zoneSensor zones := rfl

theorem reportLost_posts : ScopePosted s (reportLost first (setOf p) s) 5 PortNotices.zoneSensor p := by
  intro port
  rw [reportLost_notices]
  refine ⟨fun hnone => ?_, fun hsome => ?_⟩
  · rw [if_pos ((setOf_eq_zero_iff p).2 hnone)]
    exact ⟨rfl, rfl⟩
  · have hne : setOf p ≠ 0 := fun hzero => by
      obtain ⟨z, hz⟩ := hsome
      exact Bool.false_ne_true (((setOf_eq_zero_iff p).1 hzero z).symm.trans hz)
    rw [if_neg hne]
    refine ⟨PortNotices.take_kinds_getLsbD _ _ _, fun z => ?_⟩
    rw [PortNotices.take_zoneSensor, mergeScope_getLsbD, getLsbD_setOf]

theorem reportLost_lockout (port : Port) : ((reportLost first (setOf p) s).notices.of port).kinds.getLsbD 8 =
    (s.notices.of port).kinds.getLsbD 8 := by
  rw [reportLost_notices]
  split
  · rfl
  · exact PortNotices.take_kinds_getLsbD _ _ _

end

/-! ## A publication taken by the controller (R73, R119, R132, R135) -/

section
variable (s : State)

/-- The controller with its copy of the flow temperature (R73). -/
def flowCopied (s : State) : State :=
  modFiring (fun f => { f with flow := s.capture.publication.flow, flowStatus := s.capture.publication.flowStatus }) s

theorem takePublication_of_lockout {s : State} (hs : s.firing.state = .lockout) :
    takePublication s = lockoutPublication (testHighLimit (flowCopied s)) := if_pos hs

theorem takePublication_of_trips {s : State} (hs : s.firing.state ≠ .lockout) (h : trips (flowCopied s) = true) :
    takePublication s = enterLockout .highLimit (flowCopied s) := by
  have hlockOut : lockOut .highLimit (flowCopied s) = enterLockout .highLimit (flowCopied s) := if_neg hs
  exact (if_neg hs).trans ((if_pos h).trans hlockOut)

theorem takePublication_of_calm {s : State} (hs : s.firing.state ≠ .lockout) (h : trips (flowCopied s) = false) :
    takePublication s = settle (flowCopied s) :=
  (if_neg hs).trans (if_neg (Bool.eq_false_iff.1 h))

/-- What a publication shows in LOCKOUT: the reason of a trip, the peak, and the pump's stop. -/
theorem takePublication_lockout_shows {s : State} (hs : s.firing.state = .lockout) :
    (takePublication s).raised = s.raised ++
        lineEvents .pumpOn .pumpOff s.firing.pump (s.firing.pump && flowHot (flowCopied s)) ∧
      (takePublication s).firing.outputs = (s.firing.burner, s.firing.pump && flowHot (flowCopied s), s.firing.call,
        .lockout, (s.firing.lockout.map fun l => { l with highLimit := l.highLimit || trips (flowCopied s) }).map
          fun l => l.follow (flowCopied s).firing.flowKnown (flowCopied s).firing.flow,
        (flowCopied s).firing.flow, (flowCopied s).firing.flowStatus, s.firing.minOff) ∧
      (s.firing.pump = true → flowHot (flowCopied s) = false →
        (takePublication s).firing.hold = none ∧ (takePublication s).valves.latestHold = 0) ∧
      (s.firing.pump = false ∨ flowHot (flowCopied s) = true → (takePublication s).firing.hold = s.firing.hold ∧
        (takePublication s).valves.latestHold = s.valves.latestHold) := by
  have hcopied : (flowCopied s).firing.state = .lockout := hs
  obtain ⟨htested, hraised, hvalves, hsettings⟩ := testHighLimit_shows hcopied
  have hstate : (testHighLimit (flowCopied s)).firing.state = .lockout := by rw [htested]; exact hs
  have hhot : flowHot (testHighLimit (flowCopied s)) = flowHot (flowCopied s) :=
    flowHot_congr hsettings (by rw [htested]) (by rw [htested])
  have hshows := lockoutPublication_shows hstate
  rw [hhot, hraised, htested, hvalves] at hshows
  rw [takePublication_of_lockout hs]
  exact hshows

/-- One event is raised for each change that a publication makes. -/
theorem takePublication_told (h : s.firing.DiverterFollows) : Told (flowCopied s) (takePublication s) := by
  by_cases hs : s.firing.state = .lockout
  · obtain ⟨hraised, houtputs, -⟩ := takePublication_lockout_shows hs
    have hcopied : (flowCopied s).firing.state = .lockout := hs
    rw [told_iff houtputs, hraised, hcopied]
    simp only [flowCopied, modFiring_fields, lineEvents_self, List.nil_append, List.append_nil]
    exact .refl _
  · cases htrips : trips (flowCopied s) with
    | true =>
      rw [takePublication_of_trips hs htrips]
      exact enterLockout_told hs htrips
    | false =>
      rw [takePublication_of_calm hs htrips]
      exact settle_told h

theorem lineEvents_block {on off : SourceKind} {block : SourceBlock} (hon : on.block = block) (hoff : off.block = block)
    (a b : Bool) : ∀ e ∈ lineEvents on off a b, e.kind.block = block := by
  unfold lineEvents
  split
  · nofun
  · cases b <;> simpa

/-- A publication makes the controller raise events, and no other block. -/
theorem takePublication_events : ∃ own, (takePublication s).raised = s.raised ++ own ∧
    ∀ e ∈ own, e.kind.block = .controller := by
  have hburner : ∀ before after, ∀ e ∈ lineEvents .burnerOn .burnerOff before after, e.kind.block = .controller :=
    lineEvents_block rfl rfl
  have hpump : ∀ before after, ∀ e ∈ lineEvents .pumpOn .pumpOff before after, e.kind.block = .controller :=
    lineEvents_block rfl rfl
  by_cases hs : s.firing.state = .lockout
  · exact ⟨_, (takePublication_lockout_shows hs).1, hpump _ _⟩
  · cases htrips : trips (flowCopied s) with
    | true =>
      rw [takePublication_of_trips hs htrips, (enterLockout_shows htrips).1, List.append_assoc, List.append_assoc]
      exact ⟨_, rfl, List.forall_mem_append.2 ⟨hburner _ _,
        List.forall_mem_append.2 ⟨hpump _ _, by simp [SourceKind.block]⟩⟩⟩
    | false =>
      rw [takePublication_of_calm hs htrips]
      exact (settle_passage _).events

end
end Sys2Proof.Machine

namespace Sys2Proof.Machine

/-! ## The row of the window expiry (R64) -/

section
variable (s : State)

/-- Whether a zone is lost at this expiry and was not before (R72). -/
def freshlyLost (z : Fin 16) : Bool :=
  lostNow s (selectAll s (closeWindows s)) z && !s.capture.lost.getLsbD z.val

/-- The row's state as its blocks begin, with the order of the step taken. -/
def orderTaken : State := { nothingRaised s with orders := s.orders.rest }

/-- The part with the newly lost zones reported (R64, step 3). -/
def lossesRaised : State := reportLost s.orders.next.indices (setOf (freshlyLost s)) (windowsJudged (orderTaken s))

/-- The part as the publication reaches the controller (R64, step 4). -/
def lossesReported : State := takeRaised (lossesRaised s)

/-- The part after a window expiry. -/
def windowExpired : State := eventsTaken s (takePublication (lossesReported s))

theorem exec_windowExpiry {s : State} (hp : s.powered = true) : exec .windowExpiry s = .next (windowExpired s) :=
  event_powered (withOrder expireWindow) s hp

theorem orderTaken_keeps : Keeps [.raised, .orders] s (orderTaken s) := by
  intro part hpart
  cases part <;> first | rfl | (simp at hpart)

theorem windowsJudged_keeps : Keeps [.capture] s (windowsJudged s) := by
  intro part hpart
  cases part <;> first | rfl | (simp at hpart)

theorem lossesRaised_keeps : Keeps [.raised, .orders, .capture, .notices] s (lossesRaised s) :=
  (((orderTaken_keeps s).mono (by simp)).trans ((windowsJudged_keeps _).mono (by simp))).trans
    ((reportLost_keeps _ _ _).mono (by simp))

theorem lossesReported_keeps : Keeps [.raised, .orders, .capture, .notices, .links] s (lossesReported s) :=
  ((lossesRaised_keeps s).mono (by simp)).trans ((takeInTurns_keeps [] _).mono (by simp))

theorem windowExpired_of_publication :
    Keeps [.links, .raised] (takePublication (lossesReported s)) (windowExpired s) := eventsTaken_of_block s _

theorem lossesReported_capture : (lossesReported s).capture = expiredCapture s :=
  lossesTaken_keeps s.orders.next (orderTaken s) .capture (by decide)

theorem windowExpired_keeps :
    Keeps [.capture, .valves, .firing, .links, .notices, .orders] s (windowExpired s) := by
  have hreported : Keeps [.raised, .capture, .notices, .links, .orders] (nothingRaised s) (lossesReported s) :=
    (lossesReported_keeps (nothingRaised s)).mono (by simp)
  refine (eventsTaken_keeps (l := [.capture, .valves, .firing, .links, .notices, .orders])
    ((hreported.mono (by simp)).trans ((takePublication_reaches _).1.mono (by decide)))).mono (by simp)

theorem windowExpired_valves : OnlyHoldWritten s.valves (windowExpired s).valves := by
  have hpublished := (takePublication_reaches (lossesReported s)).2
  rwa [lossesReported_keeps s .valves (by decide),
    ← windowExpired_of_publication s .valves (by decide)] at hpublished

theorem windowExpired_capture : (windowExpired s).capture = expiredCapture s :=
  (windowExpired_of_publication s .capture (by decide)).trans
    ((takePublication_reaches _).capture.trans (lossesReported_capture s))

/-! ### Its events (R72, R121, R134, R144) -/

theorem lossesRaised_raised : (lossesRaised s).raised =
    (arranged s.orders.next.indices (setOf (freshlyLost s))).map fun z => ⟨.sensorLost, z⟩ :=
  reportLost_raised _ _ _

theorem lossesReported_taken (kind : SourceKind) :
    EventsTaken s (lossesReported s) kind fun z => decide (kind = .sensorLost) && freshlyLost s z := by
  have hevents : (parametersOf kind (lossesRaised s).raised).Perm
      ((List.finRange 16).filter fun z => decide (kind = .sensorLost) && freshlyLost s z) := by
    rw [lossesRaised_raised]
    by_cases hkind : kind = .sensorLost
    · subst hkind
      rw [parametersOf_map_self]
      simpa using arranged_perm s.orders.next.indices (freshlyLost s)
    · rw [parametersOf_map_of_ne (Ne.symm hkind)]
      simp [hkind]
  exact (takeInTurns_eventsTaken [] hevents).congr (lossesRaised_keeps s .links (by decide)).symm
    (lossesRaised_keeps s .settings (by decide)).symm rfl

theorem publication_taken {kind : SourceKind} {p : Fin 16 → Bool}
    (h : (parametersOf kind (takePublication (lossesReported s)).raised).Perm ((List.finRange 16).filter p)) :
    EventsTaken (lossesReported s) (windowExpired s) kind p :=
  (takeInTurns_eventsTaken [] h).congr ((takePublication_reaches _).1 .links (by decide)).symm
    ((takePublication_reaches _).1 .settings (by decide)).symm rfl

/-- Each newly lost zone is one SENSOR_LOST (R72). -/
theorem windowExpired_sensorLost : EventsTaken s (windowExpired s) .sensorLost (freshlyLost s) := by
  obtain ⟨own, hraised, hblock⟩ := takePublication_events (lossesReported s)
  have hnone : parametersOf .sensorLost (takePublication (lossesReported s)).raised = [] := by
    rw [hraised]
    exact parametersOf_of_block hblock (by decide)
  exact ((lossesReported_taken s .sensorLost).then_none (lossesReported_keeps s .settings (by decide))
    (publication_taken s (by simp [hnone]))).congr_indices fun z => by simp

/-- What the controller raises as it takes the publication is all that the matrix takes of another kind. -/
theorem windowExpired_taken {kind : SourceKind} {p : Fin 16 → Bool} (hkind : kind ≠ .sensorLost)
    (h : (parametersOf kind (takePublication (lossesReported s)).raised).Perm ((List.finRange 16).filter p)) :
    EventsTaken s (windowExpired s) kind p :=
  ((lossesReported_taken s kind).congr_indices fun z => by simp [hkind]).after_none
    (lossesReported_keeps s .settings (by decide)) (publication_taken s h)

/-- The controller as the publication reaches it: its own record with the flow temperature published. -/
def published : State := flowCopied (lossesReported s)

theorem published_firing : (published s).firing = { s.firing with
    flow := (expiredCapture s).publication.flow, flowStatus := (expiredCapture s).publication.flowStatus } := by
  have hfiring : (lossesReported s).firing = s.firing := lossesReported_keeps s .firing (by decide)
  have hcapture := lossesReported_capture s
  simp only [published, flowCopied, modFiring_fields, hfiring, hcapture]

theorem windowExpired_firing : (windowExpired s).firing = (takePublication (lossesReported s)).firing :=
  windowExpired_of_publication s .firing (by decide)

theorem shown_windowExpired (kind : SourceKind) :
    kind.shown s (windowExpired s) = kind.shown (published s) (takePublication (lossesReported s)) := by
  cases kind <;> simp only [SourceKind.shown, windowExpired_firing, published_firing]

/-- Each change that the publication makes in the controller is one event, where the diverter follows the call and the hold
set (R121, R134). -/
theorem windowExpired_told (h : s.firing.DiverterFollows) {kind : SourceKind} (hkind : kind ≠ .sensorLost) :
    EventsTaken s (windowExpired s) kind fun z => decide (z = 0) && kind.shown s (windowExpired s) := by
  have hfollows : (lossesReported s).firing.DiverterFollows := by
    rwa [show (lossesReported s).firing = s.firing from lossesReported_keeps s .firing (by decide)]
  rw [shown_windowExpired]
  exact windowExpired_taken s hkind ((takePublication_told _ hfollows).parameters rfl kind)

/-! ### Its notices (R72, R134, R173) -/

theorem lossesReported_notices : (lossesReported s).notices = (lossesRaised s).notices :=
  takeInTurns_keeps [] _ .notices (by decide)

theorem windowExpired_notices : (windowExpired s).notices = (takePublication (lossesReported s)).notices :=
  windowExpired_of_publication s .notices (by decide)

end
end Sys2Proof.Machine

namespace Sys2Proof.Machine

/-! ## What a window expiry posts (R72, R134, R173) -/

section
variable (s : State)

/-- Whether a publication posts LOCKOUT: the trip enters LOCKOUT, or its reason is new there (R134). -/
def postsLockout (s : State) : Bool :=
  trips (flowCopied s) &&
    (decide (s.firing.state ≠ .lockout) || (s.firing.lockout.map fun l => !l.highLimit).getD false)

theorem takePublication_notices (port : Port) : (takePublication s).notices.of port =
    if postsLockout s then (s.notices.of port).take .lockout else s.notices.of port := by
  have hcopied : (flowCopied s).notices = s.notices := rfl
  by_cases hs : s.firing.state = .lockout
  · rw [takePublication_of_lockout hs, (lockoutPublication_reaches _).1 .notices (by decide)]
    cases hl : s.firing.lockout with
    | none =>
      have hposts : postsLockout s = false := by simp [postsLockout, hs, hl]
      have hstays : testHighLimit (flowCopied s) = flowCopied s := testHighLimit_of_none hs hl
      rw [hposts, hstays, hcopied]
      rfl
    | some l =>
      have hposts : postsLockout s = (trips (flowCopied s) && !l.highLimit) := by simp [postsLockout, hs, hl]
      rw [hposts]
      exact testHighLimit_notices (s := flowCopied s) hs hl port
  · have hposts : postsLockout s = trips (flowCopied s) := by simp [postsLockout, hs]
    rw [hposts]
    cases htrips : trips (flowCopied s) with
    | true =>
      rw [takePublication_of_trips hs htrips, (enterLockout_shows htrips).2.2, hcopied]
      rfl
    | false =>
      rw [takePublication_of_calm hs htrips, (settle_reaches _).1 .notices (by decide), hcopied]
      rfl

theorem takePublication_lockoutBit (port : Port) : ((takePublication s).notices.of port).kinds.getLsbD 8 =
    (postsLockout s || (s.notices.of port).kinds.getLsbD 8) := by
  rw [takePublication_notices]
  split
  · next hposts =>
    rw [hposts, PortNotices.take_kinds_getLsbD]
    rfl
  · next hposts => rw [Bool.eq_false_iff.2 hposts, Bool.false_or]

theorem takePublication_zoneSensor (port : Port) :
    ((takePublication s).notices.of port).kinds.getLsbD 5 = (s.notices.of port).kinds.getLsbD 5 ∧
      ((takePublication s).notices.of port).zoneSensor = (s.notices.of port).zoneSensor := by
  rw [takePublication_notices]
  split
  · exact ⟨PortNotices.take_kinds_getLsbD _ _ _, rfl⟩
  · exact ⟨rfl, rfl⟩

theorem windowExpired_lockoutBit (port : Port) : ((windowExpired s).notices.of port).kinds.getLsbD 8 =
    (postsLockout (lossesReported s) || (s.notices.of port).kinds.getLsbD 8) := by
  rw [windowExpired_notices, takePublication_lockoutBit, lossesReported_notices, lossesRaised, reportLost_lockout]
  rfl

/-- The newly lost zones are one ZONE_SENSOR to both ports (R72). -/
theorem windowExpired_posts :
    ScopePosted s (windowExpired s) 5 PortNotices.zoneSensor (freshlyLost s) := by
  intro port
  obtain ⟨hbit, hscope⟩ := takePublication_zoneSensor (lossesReported s) port
  rw [windowExpired_notices, hbit, hscope, lossesReported_notices]
  exact reportLost_posts _ _ _ port

/-! ## What a window expiry makes of the controller (R119, R126, R132, R134, R135) -/

theorem published_keeps : Keeps [.raised, .orders, .capture, .notices, .links, .firing] s (published s) :=
  ((lossesReported_keeps s).mono (by simp)).trans ((modFiring_keeps _ _).mono (by simp))

theorem lossesReported_state : (lossesReported s).firing = s.firing := lossesReported_keeps s .firing (by decide)

section
variable {s}

theorem windowExpired_of_trips (hs : s.firing.state ≠ .lockout) (h : trips (published s) = true) :
    (windowExpired s).firing = (enterLockout .highLimit (published s)).firing ∧
      (takePublication (lossesReported s)).raised = (enterLockout .highLimit (published s)).raised := by
  rw [windowExpired_firing, takePublication_of_trips (by rwa [lossesReported_state]) h]
  exact ⟨rfl, rfl⟩

theorem windowExpired_of_calm (hs : s.firing.state ≠ .lockout) (h : trips (published s) = false) :
    (windowExpired s).firing = (settle (published s)).firing := by
  rw [windowExpired_firing, takePublication_of_calm (by rwa [lossesReported_state]) h]
  rfl

end

/-- The controller holds the published flow temperature, whatever it did as it took it (R73). -/
theorem windowExpired_flow : (windowExpired s).firing.flow = (published s).firing.flow ∧
    (windowExpired s).firing.flowStatus = (published s).firing.flowStatus := by
  by_cases hs : s.firing.state = .lockout
  · have houtputs := (takePublication_lockout_shows (s := lossesReported s) (by rwa [lossesReported_state])).2.1
    simp only [Firing.outputs, Prod.mk.injEq] at houtputs
    obtain ⟨-, -, -, -, -, hflow, hstatus, -⟩ := houtputs
    rw [windowExpired_firing]
    exact ⟨hflow, hstatus⟩
  · cases htrips : trips (published s) with
    | true =>
      obtain ⟨-, ⟨m, houtputs⟩, -⟩ := enterLockout_shows htrips
      simp only [Firing.outputs, Prod.mk.injEq] at houtputs
      obtain ⟨-, -, -, -, -, hflow, hstatus, -⟩ := houtputs
      rw [(windowExpired_of_trips hs htrips).1]
      exact ⟨hflow, hstatus⟩
    | false =>
      have hstate : (published s).firing.state ≠ .lockout := by rwa [published_firing]
      have hkept := (settle_staysOut (published s) hstate).published
      simp only [Firing.published, Prod.mk.injEq] at hkept
      obtain ⟨-, hflow, hstatus⟩ := hkept
      rw [windowExpired_of_calm hs htrips]
      exact ⟨hflow, hstatus⟩

end

/-! ### The peak of the lockout record (R135) -/

section
variable (l : Lockout) (known : Bool) (flow : Option Int)

theorem Lockout.follow_frame : (l.follow known flow).highLimit = l.highLimit ∧
    (l.follow known flow).boilerFault = l.boilerFault ∧ (l.follow known flow).entry = l.entry := by
  unfold Lockout.follow
  split
  · split
    · split <;> exact ⟨rfl, rfl, rfl⟩
    · exact ⟨rfl, rfl, rfl⟩
    · exact ⟨rfl, rfl, rfl⟩
  · exact ⟨rfl, rfl, rfl⟩

theorem Lockout.follow_unknown : l.follow false flow = l := rfl

theorem Lockout.follow_peak (x : Int) : (l.follow true (some x)).peak =
    match l.peak with | none => some x | some peak => some (max peak x) := by
  cases hpeak : l.peak with
  | none => simp [Lockout.follow, hpeak]
  | some peak =>
    simp only [Lockout.follow, hpeak, if_true]
    split
    · next hlt => rw [max_eq_right hlt.le]
    · next hle => rw [hpeak, max_eq_left (not_lt.1 hle)]

end
end Sys2Proof.Machine

namespace Sys2Proof.Machine

/-! ## Windows judged and zone temperatures selected (R64 to R66, R70, R73) -/

section
variable (v : Channel) (offset : Int)

theorem usable_iff : v.usable = true ↔ 4 ≤ v.count ∧ v.rejects ≤ v.count := by
  simp [Channel.usable]

/-- A window is cleared as it is closed, and the line and its timer go on (R64). -/
theorem closeWindow_frame {w : Channel} (hw : w = v.closeWindow offset) :
    w.sum = 0 ∧ w.count = 0 ∧ w.rejects = 0 ∧ w.lastCount = v.count ∧ w.lastRejects = v.rejects ∧
      w.timing = v.timing ∧ w.timer = v.timer ∧ w.raw = v.raw ∧ w.filtered = v.filtered ∧ w.held = v.held := by
  subst hw
  have hjudged : (v.judgeWindow offset).timing = v.timing ∧ (v.judgeWindow offset).timer = v.timer ∧
      (v.judgeWindow offset).raw = v.raw ∧ (v.judgeWindow offset).filtered = v.filtered ∧
      (v.judgeWindow offset).held = v.held := by
    unfold Channel.judgeWindow
    split <;> exact ⟨rfl, rfl, rfl, rfl, rfl⟩
  exact ⟨rfl, rfl, rfl, rfl, rfl, hjudged⟩

theorem closeWindow_of_usable (h : 4 ≤ v.count ∧ v.rejects ≤ v.count) {w : Channel} (hw : w = v.closeWindow offset) :
    w.status = .valid ∧ w.run = 0 ∧
      w.last = some (clamp (-4000) 12500 (divRound ((divRound v.sum v.count - 10000) * 5) 2 + offset)) := by
  have hjudged : v.judgeWindow offset = { v with last := some (v.temperature offset), status := .valid, run := 0 } :=
    if_pos ((usable_iff v).2 h)
  subst hw
  simp only [Channel.closeWindow, hjudged, true_and]
  rfl

/-- An unusable window leads a status on, and takes the temperature from one that has none (R66). -/
theorem closeWindow_of_unusable (h : ¬(4 ≤ v.count ∧ v.rejects ≤ v.count)) {w : Channel}
    (hw : w = v.closeWindow offset) :
    w.run = min 3 (v.run + 1) ∧ w.status = v.status.afterUnusable (min 3 (v.run + 1)) ∧
      w.last = if (v.status.afterUnusable (min 3 (v.run + 1))).hasTemperature then v.last else none := by
  have hjudged : v.judgeWindow offset = { v with
      run := min 3 (v.run + 1)
      status := v.status.afterUnusable (min 3 (v.run + 1))
      last := if (v.status.afterUnusable (min 3 (v.run + 1))).hasTemperature then v.last else none } :=
    if_neg (fun hu => h ((usable_iff v).1 hu))
  subst hw
  simp only [Channel.closeWindow, hjudged]
  trivial

end

theorem ChannelStatus.afterUnusable_held (run : Nat) :
    ChannelStatus.held.afterUnusable (min 3 (run + 1)) = if run < 2 then .held else .noSignal := by
  by_cases hrun : run < 2
  · rw [if_pos hrun]
    exact if_neg (by omega)
  · rw [if_neg hrun]
    exact if_pos (by omega)

/-- The flow temperature that a channel gives (R73). -/
theorem flowFrom_cases (w : Channel) : (w.status = .valid → flowFrom w = (w.last, .valid)) ∧
    (w.status = .held → flowFrom w = (w.last, .held)) ∧
    (w.status = .never ∨ w.status = .noSignal → flowFrom w = (none, .invalid)) := by
  cases hstatus : w.status <;> simp [flowFrom, hstatus]

/-- The zone temperature that a channel gives (R70). -/
theorem fromChannel_cases (w : Channel) : (w.status = .valid → fromChannel (some w) = ⟨w.last, .valid, .channel⟩) ∧
    (w.status = .held → fromChannel (some w) = ⟨w.last, .held, .channel⟩) ∧
    (w.status = .never ∨ w.status = .noSignal → fromChannel (some w) = ⟨none, .invalid, .absent⟩) := by
  cases hstatus : w.status <;> simp [fromChannel, hstatus, blankZoneTemp]

section
variable {c : ZoneSettings} {channel : Option Channel} {report : Option Report}

/-- A fresh report is the zone temperature in a mode that looks at reports (R70). -/
theorem selectTemperature_of_fresh {r : Report} (h : freshReport c report = some r) (hmode : c.mode ≠ .localOnly) :
    selectTemperature c channel report = ⟨some r.value, .valid, .remote⟩ := by
  unfold selectTemperature
  rw [h]
  cases hm : c.mode with
  | localOnly => exact absurd hm hmode
  | remote => rfl
  | remotePreferred => rfl

theorem selectTemperature_of_stale (h : freshReport c report = none) (hmode : c.mode = .remote) :
    selectTemperature c channel report = ⟨none, .invalid, .absent⟩ := by
  simp only [selectTemperature, hmode, h]
  rfl

/-- The channel gives the zone temperature where no report does (R70). -/
theorem selectTemperature_of_local
    (h : c.mode = .localOnly ∨ c.mode = .remotePreferred ∧ freshReport c report = none) :
    selectTemperature c channel report = fromChannel channel := by
  rcases h with hmode | ⟨hmode, hstale⟩
  · simp only [selectTemperature, hmode]
  · simp only [selectTemperature, hmode, hstale]
    rfl

end

section
variable (s : State)

theorem windowExpired_channel (c : Fin 18) : (windowExpired s).capture.channels.get c =
    (s.capture.channels.get c).closeWindow (s.settings.capture.get c).offset := by
  rw [windowExpired_capture]
  exact Tab.get_ofFn _ _

theorem windowExpired_zone (z : Fin 16) : (windowExpired s).capture.publication.zones.get z =
    selectTemperature (s.settings.zones.get z)
      ((s.settings.zones.get z).sensor.map (windowExpired s).capture.channels.get) (s.capture.reports.get z) := by
  rw [windowExpired_capture]
  exact Tab.get_ofFn _ _

theorem windowExpired_lost (z : Fin 16) : (windowExpired s).capture.lost.getLsbD z.val =
    ((s.settings.zones.get z).enabled &&
      decide (((windowExpired s).capture.publication.zones.get z).status = .invalid)) := by
  rw [windowExpired_capture]
  exact getLsbD_setOf _ z

theorem windowExpired_publication_flow : ((windowExpired s).capture.publication.flow,
    (windowExpired s).capture.publication.flowStatus) =
      flowFrom ((windowExpired s).capture.channels.get s.settings.firing.flowChannel) := by
  rw [windowExpired_capture]
  rfl

theorem freshlyLost_eq (z : Fin 16) : freshlyLost s z =
    ((windowExpired s).capture.lost.getLsbD z.val && !s.capture.lost.getLsbD z.val) := by
  rw [windowExpired_capture]
  exact congrArg (· && _) (getLsbD_setOf (lostNow s (selectAll s (closeWindows s))) z).symm

end
end Sys2Proof.Machine

namespace Sys2Proof.Machine

/-! ## The controller's answer to a window expiry -/

section
variable {s : State}

/-- A window expiry whose flow trips the high limit outside LOCKOUT (R132, R134). -/
theorem windowExpired_enters (hs : s.firing.state ≠ .lockout) (h : trips (published s) = true) :
    (windowExpired s).firing.state = .lockout ∧
      (windowExpired s).firing.lockout = some ⟨true, false, s.clock.now, (windowExpired s).firing.flow⟩ ∧
      (windowExpired s).firing.pump = true ∧
      (s.firing.state = .firing → (windowExpired s).firing.burner = false) ∧
      EventsTaken s (windowExpired s) .lockoutOn (fun z => decide (z = 0)) ∧
      ∀ p, ((windowExpired s).notices.of p).kinds.getLsbD 8 = true := by
  obtain ⟨hfiring, hraised⟩ := windowExpired_of_trips hs h
  have hstate : (published s).firing.state = s.firing.state := by rw [published_firing]
  have hclock : (published s).clock = s.clock := published_keeps s .clock (by decide)
  have htold := enterLockout_told (by rwa [hstate]) h
  obtain ⟨-, ⟨m, houtputs⟩, -⟩ := enterLockout_shows h
  simp only [Firing.outputs, Prod.mk.injEq] at houtputs
  obtain ⟨hburner, hpump, -, hlocked, hlockout, hflow, -⟩ := houtputs
  rw [hfiring, hflow, hlockout, hclock]
  refine ⟨hlocked, rfl, hpump, fun hfires => ?_, ?_, fun p => ?_⟩
  · rw [hburner, burnerLeft, if_pos (hstate.trans hfires)]
  · have hevents := htold.parameters rfl .lockoutOn
    rw [← hraised] at hevents
    refine (windowExpired_taken s (by decide) hevents).congr_indices fun z => ?_
    simp [SourceKind.shown, hstate, hs, hlocked]
  · have hposts : postsLockout (lossesReported s) = true := by
      have htrips : trips (flowCopied (lossesReported s)) = true := h
      simp [postsLockout, htrips, lossesReported_state, hs]
    rw [windowExpired_lockoutBit, hposts, Bool.true_or]

/-- A window expiry whose flow trips nothing leaves the controller out of LOCKOUT (R132). -/
theorem windowExpired_stays (hs : s.firing.state ≠ .lockout) (h : trips (published s) = false) :
    (windowExpired s).firing.state ≠ .lockout ∧ (windowExpired s).firing.lockout = s.firing.lockout ∧
      ∀ p, ((windowExpired s).notices.of p).kinds.getLsbD 8 = (s.notices.of p).kinds.getLsbD 8 := by
  have hstays := settle_staysOut (published s) (by rwa [published_firing])
  have hkept := hstays.published
  simp only [Firing.published, Prod.mk.injEq] at hkept
  rw [windowExpired_of_calm hs h]
  refine ⟨hstays.state, hkept.1.trans (by rw [published_firing]), fun p => ?_⟩
  have hposts : postsLockout (lossesReported s) = false := by
    have htrips : trips (flowCopied (lossesReported s)) = false := h
    simp only [postsLockout, htrips, Bool.false_and]
  rw [windowExpired_lockoutBit, hposts, Bool.false_or]

/-- An INVALID flow temperature ends FIRING (R119, R126). -/
theorem windowExpired_stops (hs : s.firing.state = .firing) (h : trips (published s) = false)
    (hinvalid : (windowExpired s).firing.flowStatus = .invalid) :
    (windowExpired s).firing.state ≠ .firing ∧ (windowExpired s).firing.burner = false ∧
      (0 < s.settings.firing.minOff → (windowExpired s).firing.minOff = some s.settings.firing.minOff) ∧
      (0 < s.settings.firing.overrun → (windowExpired s).firing.state = .overrun ∧
        (windowExpired s).firing.overrun = some s.settings.firing.overrun) := by
  have hsettings : (published s).settings = s.settings := published_keeps s .settings (by decide)
  have hobstructed : unobstructed (published s) = false := by
    have hstatus : (published s).firing.flowStatus = .invalid := (windowExpired_flow s).2 ▸ hinvalid
    simp [unobstructed, Firing.flowKnown, hstatus]
  have hstop := mustStop_of_obstructed hobstructed
  rw [windowExpired_of_calm (by rw [hs]; decide) h, settle_of_firing (by rw [published_firing]; exact hs) hstop]
  obtain ⟨p, k, -, houtputs, hk, -, hoverrun⟩ := stop_shows hstop (.inr hobstructed)
  rw [hsettings] at houtputs hoverrun
  simp only [Firing.outputs, Prod.mk.injEq] at houtputs
  obtain ⟨hburner, -, -, hstate, -, -, -, hminOff⟩ := houtputs
  rw [hburner, hstate, hminOff]
  exact ⟨hk, rfl, fun hpos => if_neg (by omega), hoverrun⟩

/-- A window expiry in LOCKOUT: the reason of a trip, the peak, and the pump's stop with its hold set (R134, R135). -/
theorem windowExpired_lockout (hs : s.firing.state = .lockout) {l : Lockout} (hl : s.firing.lockout = some l) :
    (windowExpired s).firing.state = .lockout ∧ (windowExpired s).firing.burner = s.firing.burner ∧
      (windowExpired s).firing.lockout = some (
        ({ l with highLimit := l.highLimit || trips (published s) } : Lockout).follow
          (windowExpired s).firing.flowKnown (windowExpired s).firing.flow) ∧
      (∀ p, ((windowExpired s).notices.of p).kinds.getLsbD 8 =
        ((trips (published s) && !l.highLimit) || (s.notices.of p).kinds.getLsbD 8)) ∧
      (windowExpired s).firing.pump = (s.firing.pump && flowHot (published s)) ∧
      (s.firing.pump = true → flowHot (published s) = false →
        (windowExpired s).firing.hold = none ∧ (windowExpired s).valves.latestHold = 0) ∧
      (s.firing.pump = false ∨ flowHot (published s) = true → (windowExpired s).firing.hold = s.firing.hold ∧
        (windowExpired s).valves.latestHold = s.valves.latestHold) := by
  have hreported := lossesReported_state s
  have hvalves : (lossesReported s).valves = s.valves := lossesReported_keeps s .valves (by decide)
  have hvalves' : (windowExpired s).valves = (takePublication (lossesReported s)).valves :=
    windowExpired_of_publication s .valves (by decide)
  obtain ⟨-, houtputs, hcools, hholds⟩ :=
    takePublication_lockout_shows (s := lossesReported s) (by rwa [hreported])
  rw [hreported, hvalves] at hholds
  rw [hreported] at hcools
  simp only [Firing.outputs, Prod.mk.injEq, hreported, hl, Option.map_some] at houtputs
  obtain ⟨hburner, hpump, -, hstate, hlockout, hflow, hstatus, -⟩ := houtputs
  have hposts : postsLockout (lossesReported s) = (trips (published s) && !l.highLimit) := by
    simp only [postsLockout, hreported, hs, hl, published]
    simp
  rw [windowExpired_firing, hvalves']
  refine ⟨hstate, hburner, ?_, fun p => ?_, hpump, hcools, hholds⟩
  · have hknown : (takePublication (lossesReported s)).firing.flowKnown =
        (flowCopied (lossesReported s)).firing.flowKnown := by
      simp only [Firing.flowKnown, hstatus]
    rw [hlockout, hflow, hknown]
    rfl
  · rw [windowExpired_lockoutBit, hposts]

/-- The lockout record of an expiry, in the words of R134 and R135. -/
theorem follow_shows (l : Lockout) (trip : Bool) (f : Firing) {l' : Lockout}
    (h : l' = ({ l with highLimit := l.highLimit || trip } : Lockout).follow f.flowKnown f.flow) :
    l'.highLimit = (l.highLimit || trip) ∧ l'.boilerFault = l.boilerFault ∧ l'.entry = l.entry ∧
      (f.flowStatus = .invalid → l'.peak = l.peak) ∧
      ∀ x, f.flowStatus ≠ .invalid → f.flow = some x →
        l'.peak = match l.peak with | none => some x | some peak => some (max peak x) := by
  obtain ⟨hreason, hfault, hentry⟩ :=
    Lockout.follow_frame { l with highLimit := l.highLimit || trip } f.flowKnown f.flow
  subst h
  refine ⟨hreason, hfault, hentry, fun hinvalid => ?_, fun x hvalid hx => ?_⟩
  · have hunknown : f.flowKnown = false := by simp [Firing.flowKnown, hinvalid]
    rw [hunknown, Lockout.follow_unknown]
  · have hknown : f.flowKnown = true := by simpa [Firing.flowKnown] using hvalid
    rw [hknown, hx]
    exact Lockout.follow_peak _ x

end

/-- The high limit as the controller tests it at a window expiry, on its published flow (R132). -/
theorem trips_published_iff (s : State) : trips (published s) = true ↔
    (windowExpired s).firing.flowStatus ≠ .invalid ∧
      ∃ x ∈ (windowExpired s).firing.flow, s.settings.firing.highLimit < x := by
  obtain ⟨hflow, hstatus⟩ := windowExpired_flow s
  rw [trips_iff, hflow, hstatus, published_keeps s .settings (by decide)]

theorem flowHot_published_iff (s : State) : flowHot (published s) = true ↔
    (windowExpired s).firing.flowStatus ≠ .invalid ∧
      ∃ x ∈ (windowExpired s).firing.flow, s.settings.firing.highLimit - 1000 ≤ x := by
  obtain ⟨hflow, hstatus⟩ := windowExpired_flow s
  rw [flowHot_iff, hflow, hstatus, published_keeps s .settings (by decide)]

/-- Settles O31: the losses' events are taken before the controller raises its own, and each branch of the publication shows
what it raises and leaves; the windows and the selection follow the branches of their definitions. -/
theorem windowExpiryJudgesWindows : Obligations.WindowExpiryJudgesWindows := by
  intro s hp
  refine ⟨windowExpired s, exec_windowExpiry hp, windowExpired_keeps s, windowExpired_valves s, ?_, ?_,
    windowExpired_lost s, fun fresh hfresh => ?_, fun hkept kind hkind => windowExpired_told s hkept.diverter hkind,
    fun w hw => ?_, ?_, ?_, fun trip htrip => ?_, fun c v w hv hw => ?_, fun z zone fresh hzone hfresh => ?_⟩
  · rw [windowExpired_capture]
    rfl
  · rw [windowExpired_capture]
    rfl
  · have hsame : fresh = freshlyLost s := funext fun z => (hfresh z).trans (freshlyLost_eq s z).symm
    rw [hsame]
    exact ⟨windowExpired_sensorLost s, windowExpired_posts s⟩
  · have hflow := windowExpired_publication_flow s
    rw [← hw] at hflow
    obtain ⟨hvalid, hheld, hnone⟩ := flowFrom_cases w
    exact ⟨fun h => Prod.mk.inj (hflow.trans (hvalid h)), fun h => Prod.mk.inj (hflow.trans (hheld h)),
      fun h => Prod.mk.inj (hflow.trans (hnone h))⟩
  · rw [(windowExpired_flow s).1, published_firing, windowExpired_capture]
  · rw [(windowExpired_flow s).2, published_firing, windowExpired_capture]
  · have htrips : trip = trips (published s) := Bool.eq_iff_iff.2 (htrip.trans (trips_published_iff s).symm)
    subst htrips
    refine ⟨windowExpired_enters, fun hs h => ?_, fun l hs hl => ?_⟩
    · obtain ⟨hstate, hlockout, hposts⟩ := windowExpired_stays hs h
      exact ⟨hstate, hlockout, fun hfires hinvalid => windowExpired_stops hfires h hinvalid, hposts⟩
    · obtain ⟨hstate, hburner, hlockout, hposts, hpump, hcools, hholds⟩ := windowExpired_lockout hs hl
      refine ⟨hstate, hburner, ⟨_, hlockout, follow_shows l _ _ rfl⟩, hposts, fun hot hhot => ?_⟩
      have hsame : hot = flowHot (published s) := Bool.eq_iff_iff.2 (hhot.trans (flowHot_published_iff s).symm)
      rw [hsame]
      exact ⟨hpump, hcools, hholds⟩
  · rw [windowExpired_channel, ← hv] at hw
    obtain ⟨hsum, hcount, hrejects, hlastCount, hlastRejects, hline⟩ := closeWindow_frame v _ hw
    obtain ⟨htiming, htimer, hraw, hfiltered, hheld⟩ := hline
    refine ⟨hsum, hcount, hrejects, hlastCount, hlastRejects, htiming, htimer, hraw, hfiltered, hheld,
      fun husable => closeWindow_of_usable v _ husable hw, fun hunusable => ?_⟩
    obtain ⟨hrun, hstatus, hlast⟩ := closeWindow_of_unusable v _ hunusable hw
    refine ⟨hrun, fun h => ?_, fun h => ?_, fun h => ?_, fun h hfew => ?_, fun h hmany => ?_⟩
    · rw [hstatus, hlast, h]
      exact ⟨rfl, rfl⟩
    · rw [hstatus, hlast, h]
      exact ⟨rfl, rfl⟩
    · rw [hstatus, hlast, h]
      exact ⟨rfl, rfl⟩
    · rw [hstatus, hlast, h, ChannelStatus.afterUnusable_held, if_pos hfew]
      exact ⟨rfl, rfl⟩
    · rw [hstatus, hlast, h, ChannelStatus.afterUnusable_held, if_neg (by omega)]
      exact ⟨rfl, rfl⟩
  · rw [windowExpired_zone] at hzone
    have hreport : freshReport (s.settings.zones.get z) (s.capture.reports.get z) = fresh := hfresh.symm
    subst hzone
    refine ⟨fun r hr hmode => selectTemperature_of_fresh (hreport.trans hr) hmode,
      fun hnone hmode => selectTemperature_of_stale (hreport.trans hnone) hmode, fun hlocal => ?_⟩
    rw [selectTemperature_of_local (by rwa [hreport])]
    refine ⟨fun hnone => by rw [hnone]; rfl, fun c hc w hw => ?_⟩
    rw [hc, Option.map_some, ← hw]
    exact fromChannel_cases w

end Sys2Proof.Machine

namespace Sys2Proof.Machine

/-! ## What leaves the regulator as it is -/

/-- The rows that write the regulator's records: the pass, and those that start or stop the part (R78, R97, R98). -/
def writesRegulator : Instr → Bool
  | .pass | .powerUp | .externalReset | .powerLoss | .softReset _ => true
  | _ => false

theorem Keeps.regulator {l : List Part} {s t : State} (h : Keeps l s t) (hl : Part.regulator ∉ l) :
    t.regulator = s.regulator := h .regulator hl

theorem Reaches.regulator {s t : State} (h : Reaches s t) : t.regulator = s.regulator := h.1.regulator (by decide)

theorem ReachesPosting.regulator {s t : State} (h : ReachesPosting s t) : t.regulator = s.regulator :=
  h.1.regulator (by decide)

/-! ### Rows over their blocks -/

theorem command_regulator {c : Instr} {p : Port} {block : State → State × Response} {s t : State}
    (h : command c p block s = .next t) (hb : (block (nothingRaised s)).1.regulator = s.regulator) :
    t.regulator = s.regulator := by
  rcases (command_eq_next_iff c p block s t).1 h with ⟨-, rfl⟩ | ⟨-, rfl⟩
  · exact ((deliver_keeps _ _ _ _).regulator (by decide)).trans
      (((eventsTaken_of_block s _).regulator (by decide)).trans hb)
  · rfl

theorem withMatrix_regulator (block : State → State) (s : State) :
    (withMatrix block s).regulator = (block (nothingRaised s)).regulator :=
  (eventsTaken_of_block s _).regulator (by decide)

theorem event_regulator {block : State → State} {s t : State} (h : event block s = .next t)
    (hb : ∀ s, (block s).regulator = s.regulator) : t.regulator = s.regulator := by
  rcases (event_eq_next_iff block s t).1 h with ⟨-, rfl⟩ | ⟨-, rfl⟩
  · exact (withMatrix_regulator block s).trans (hb _)
  · rfl

theorem lineEvent_regulator {level block : State → State} {s t : State} (h : lineEvent level block s = .next t)
    (hl : (level s).regulator = s.regulator) (hb : ∀ s, (block s).regulator = s.regulator) :
    t.regulator = s.regulator := by
  rcases (lineEvent_eq_next_iff level block s t).1 h with ⟨-, rfl⟩ | ⟨-, rfl⟩
  · exact (withMatrix_regulator _ _).trans ((hb _).trans hl)
  · exact hl

theorem foldl_regulator {α : Type} {f : State → α → State} (h : ∀ s a, (f s a).regulator = s.regulator) (l : List α)
    (s : State) : (l.foldl f s).regulator = s.regulator := by
  induction l generalizing s with
  | nil => rfl
  | cons a l ih => exact (ih _).trans (h s a)

/-- A block that acts in one case alone leaves the regulator where its action does. -/
theorem ite_regulator {c : Prop} [Decidable c] {s t : State} (h : t.regulator = s.regulator) :
    (if c then t else s).regulator = s.regulator := by
  split
  · exact h
  · rfl

section
variable (s : State)

/-! ### The week clock, the program store and the override table -/

theorem clockSetBlock_regulator (p : Port) (day minute second : Int) :
    (clockSetBlock p day minute second (nothingRaised s)).1.regulator = s.regulator := by
  by_cases hrange : day < 0 ∨ 6 < day ∨ minute < 0 ∨ 1439 < minute ∨ second < 0 ∨ 59 < second
  · rw [clockSetBlock_refused p _ hrange]
    rfl
  · obtain ⟨d, rfl⟩ := exists_fin_of_within (n := 7) (v := day) (by omega) (by omega)
    obtain ⟨m, rfl⟩ := exists_fin_of_within (n := 1440) (v := minute) (by omega) (by omega)
    obtain ⟨sec, rfl⟩ := exists_fin_of_within (n := 60) (v := second) (by omega) (by omega)
    rw [clockSetBlock_accepted]
    exact (clockSetDone_keeps p d m sec s).regulator (by decide)

theorem secondBoundary_regulator {s t : State} (h : exec .secondBoundary s = .next t) :
    t.regulator = s.regulator := by
  rcases (event_eq_next_iff secondBoundaryBlock s t).1 h with ⟨hp, ht⟩ | ⟨-, rfl⟩
  · cases hvalid : s.clock.valid with
    | false =>
      rw [ht, withMatrix_regulator, secondBoundaryBlock_of_invalid (s := nothingRaised s) hvalid]
      rfl
    | true =>
      by_cases hsecond : s.clock.second = 59
      · obtain ⟨hrow, hkeeps⟩ := exec_secondBoundary_of_minute hp hvalid hsecond
        cases hrow.symm.trans h
        exact hkeeps.regulator (by decide)
      · cases (exec_secondBoundary_of_second hp hvalid hsecond).symm.trans h
        rfl
  · rfl

theorem bankPut_regulator (p : Port) (b : Fin 4) (bank : Bank) (q : Fin 17 → Bool) :
    (bankPut p b bank q s).regulator = s.regulator := (bankPut_keeps s).regulator (by decide)

theorem bankTaken_regulator (p : Port) (b : Fin 4) (record : Option Timed) :
    (bankTaken p b record s).regulator = s.regulator :=
  ((changeBank_keeps s.orders.next p).regulator (by decide)).trans
    ((recordTaken_keeps record s).regulator (by decide))

theorem pointAddBlock_regulator (p : Port) (bank list days start target : Int) (revision : Option Int) :
    (pointAddBlock p bank list days start target revision s).1.regulator = s.regulator := by
  unfold pointAddBlock addPoint
  split
  · split
    · split_ifs
      · rfl
      · rfl
      · rfl
      · exact bankPut_regulator s _ _ _ _
    · rfl
  · rfl

theorem pointDelBlock_regulator (p : Port) (bank list days start : Int) (revision : Option Int) :
    (pointDelBlock p bank list days start revision s).1.regulator = s.regulator := by
  unfold pointDelBlock removePoint
  split
  · split_ifs
    · rfl
    · exact bankPut_regulator s _ _ _ _
    · rfl
  · rfl

theorem listClearBlock_regulator (p : Port) (bank list : Int) (revision : Option Int) :
    (listClearBlock p bank list revision s).1.regulator = s.regulator := by
  unfold listClearBlock
  split
  · split_ifs
    · rfl
    · exact bankPut_regulator s _ _ _ _
  · rfl

theorem bankCopyBlock_regulator (p : Port) (source destination : Int) (revision : Option Int) :
    (bankCopyBlock p source destination revision s).1.regulator = s.regulator := by
  unfold bankCopyBlock
  split
  · split_ifs
    · rfl
    · rfl
    · exact bankPut_regulator s _ _ _ _
  · rfl

theorem bankLoadBlock_regulator (p : Port) (bank : Int) : (bankLoadBlock p bank s).1.regulator = s.regulator := by
  unfold bankLoadBlock
  split
  · rfl
  · split_ifs
    · rfl
    · exact bankPut_regulator s _ _ _ _
    · rfl

theorem bankSelectBlock_regulator (p : Port) (bank : Int) : (bankSelectBlock p bank s).1.regulator = s.regulator := by
  unfold bankSelectBlock
  split
  · exact bankTaken_regulator s _ _ none
  · rfl

theorem bankTimedBlock_regulator (p : Port) (bank days endMinute : Int) :
    (bankTimedBlock p bank days endMinute s).1.regulator = s.regulator := by
  unfold bankTimedBlock
  split
  · next b m _ _ =>
    split_ifs
    · rfl
    · rfl
    · exact bankTaken_regulator s p b (some ⟨b, s.program.active, days.toNat, m⟩)
  · rfl

theorem bankCancelBlock_regulator (p : Port) : (bankCancelBlock p s).1.regulator = s.regulator := by
  unfold bankCancelBlock
  split
  · exact bankTaken_regulator s _ _ none
  · rfl

theorem bankSaveBlock_regulator (p : Port) (bank : Int) : (bankSaveBlock p bank s).1.regulator = s.regulator := by
  unfold bankSaveBlock
  split
  · rfl
  · split <;> rfl

theorem configSaveBlock_regulator (p : Port) : (configSaveBlock p s).1.regulator = s.regulator := by
  unfold configSaveBlock
  split <;> rfl

theorem saveCompletionBlock_regulator (good : Bool) : (saveCompletionBlock good s).regulator = s.regulator := by
  unfold saveCompletionBlock
  split
  · rfl
  · exact (completeSave_keeps _ good s).regulator (by decide)

/-- A slot is written into the table, and a port may be told. -/
theorem writeSlot_keeps (p : Port) (z : Fin 16) (sp : Option Int) (k : Kind) :
    Keeps [.overrides, .notices] s (writeSlot p z sp k s).1 := by
  have hput : ∀ slots u, Keeps [.overrides, .notices] u (putSlots slots u) := fun slots u =>
    (putSlots_keeps slots u).mono (by simp)
  have hroom : Keeps [.overrides, .notices] s (makeRoom s) := Keeps.ite (evict_keeps s) (Keeps.refl _ _)
  unfold writeSlot
  split
  · exact (hput _ s).trans ((postChangedBy_keeps _ _ _).mono (by simp))
  · split
    · exact Keeps.refl _ _
    · exact hroom.trans (hput _ _)

theorem writeSlot_regulator (p : Port) (z : Fin 16) (sp : Option Int) (k : Kind) :
    (writeSlot p z sp k s).1.regulator = s.regulator := (writeSlot_keeps s p z sp k).regulator (by decide)

theorem ovrSetBlock_regulator (p : Port) (zone setpoint kind : Int) (endDay endMinute : Option Int) :
    (ovrSetBlock p zone setpoint kind endDay endMinute s).1.regulator = s.regulator := by
  unfold ovrSetBlock
  split
  · rfl
  · split_ifs
    · exact writeSlot_regulator s _ _ _ _
    · exact writeSlot_regulator s _ _ _ _
    · split
      · rfl
      · rfl
      · exact writeSlot_regulator s _ _ _ _
    · rfl

theorem ovrHoldBlock_regulator (p : Port) (zone : Int) (setpoint : Option Int) :
    (ovrHoldBlock p zone setpoint s).1.regulator = s.regulator := by
  unfold ovrHoldBlock
  split
  · rfl
  · exact writeSlot_regulator s _ _ _ _

theorem ovrReleaseBlock_regulator (p : Port) (zone : Int) : (ovrReleaseBlock p zone s).1.regulator = s.regulator := by
  unfold ovrReleaseBlock
  split
  · rfl
  · split
    · exact (postChangedBy_keeps _ _ _).regulator (by decide)
    · rfl

/-! ### The capture unit and the valve driver -/

theorem tempReportBlock_regulator (zone value : Int) : (tempReportBlock zone value s).1.regulator = s.regulator := by
  unfold tempReportBlock
  split
  · rfl
  · split <;> rfl

theorem expireWindow_regulator (order : Order) : (expireWindow order s).regulator = s.regulator :=
  (takePublication_reaches _).regulator.trans ((lossesTaken_keeps order s).regulator (by decide))

theorem handReport_regulator : (handReport s).regulator = s.regulator := (handReport_keeps s).regulator (by decide)

theorem faultsThenReport_regulator (order : Order) (faulted : ChannelSet) :
    (faultsThenReport order faulted s).regulator = s.regulator := by
  have hreported : (reportFaults order.indices faulted s).regulator = s.regulator := by
    unfold reportFaults
    split
    · rfl
    · exact (raiseEach_keeps _ _ _).regulator (by decide)
  exact ((takeInTurns_keeps _ _).regulator (by decide)).trans ((handReport_regulator _).trans hreported)

theorem endSwitchBlock_regulator (ch : Fin 16) (closed : Bool) :
    (endSwitchBlock ch closed s).regulator = s.regulator := by
  unfold endSwitchBlock
  split
  · rfl
  · split
    · exact handReport_regulator _
    · exact faultsThenReport_regulator _ _ _
    all_goals rfl

theorem valveClearBlock_regulator (channel : Int) : (valveClearBlock channel s).1.regulator = s.regulator := by
  unfold valveClearBlock
  split
  · rfl
  · split
    · exact handReport_regulator _
    · rfl

/-! ### The firing controller -/

theorem inhibitBlock_regulator (p : Port) (value : Int) : (inhibitBlock p value s).1.regulator = s.regulator := by
  unfold inhibitBlock
  split
  · exact (settle_reaches _).regulator
  · rfl

theorem endLockout_reaches (p : Port) : ReachesPosting s (endLockout p s) := by
  have hreleased : Reaches s (raise .lockoutOff (modFiring (fun f => { f with lockout := none })
      (releaseAnyHold (setPump false s)))) :=
    ((setPump_reaches false s).andThen releaseAnyHold_reaches).trans
      ((modFiring_reaches _ _).trans (raise_reaches _ _))
  exact ((hreleased.trans (modFiring_reaches _ _)).posting.trans (post_reaches _ _ _)).trans (select_reaches _).posting

theorem lockoutClearBlock_regulator (p : Port) : (lockoutClearBlock p s).1.regulator = s.regulator := by
  unfold lockoutClearBlock
  split
  · split
    · split
      · exact (endLockout_reaches s p).regulator
      · rfl
    · exact (endLockout_reaches s p).regulator
  · rfl

theorem dhwBoostBlock_regulator (minutes : Int) : (dhwBoostBlock minutes s).1.regulator = s.regulator := by
  unfold dhwBoostBlock
  split_ifs
  · rfl
  · exact (setTimedCall_reaches _ _).regulator
  · rfl

theorem requestBlock_regulator (asserted : Bool) : (requestBlock asserted s).regulator = s.regulator := by
  unfold requestBlock
  split
  · exact (setTimedCall_reaches _ _).regulator
  · exact (deriveCall_reaches _).regulator

theorem onEdge_regulator {block : State → State} (h : ∀ s, (block s).regulator = s.regulator) (old new : Bool) :
    (onEdge old new block s).regulator = s.regulator := by
  unfold onEdge
  split
  · rfl
  · exact h s

/-! ### The matrix, the notices and the ports -/

theorem writeLines_regulator (f : LineSet → LineSet → LineSet) (lines : Int) :
    (writeLines f lines s).1.regulator = s.regulator := by
  unfold writeLines
  split <;> rfl

theorem noticeMaskBlock_regulator (p : Port) (mask : Int) : (noticeMaskBlock p mask s).1.regulator = s.regulator := by
  unfold noticeMaskBlock
  split <;> rfl

theorem completeLine_regulator : (completeLine s).regulator = s.regulator := by
  have hline : (if s.text.blank then s else enqueue s.text.judge s).regulator = s.regulator := by
    split
    · rfl
    · unfold enqueue
      split
      · cases s.text.judge <;> rfl
      · rfl
  exact hline

theorem textCharacterBlock_regulator (c : Byte) (framingError : Bool) :
    (textCharacterBlock c framingError s).regulator = s.regulator := by
  unfold textCharacterBlock
  split_ifs
  · rfl
  · rfl
  · exact completeLine_regulator s
  · rfl
  · rfl

theorem textSendBlock_regulator : (textSendBlock s).regulator = s.regulator := by
  unfold textSendBlock
  split <;> rfl

theorem textSentBlock_regulator : (textSentBlock s).regulator = s.regulator := by
  unfold textSentBlock
  split <;> rfl

theorem bitTaken_regulator (b : Bus) : (bitTaken b s).regulator = s.regulator := by
  have hbyte : ∀ role byte u, (takeByte role byte u).regulator = u.regulator := by
    intro role byte u
    unfold takeByte takeAddress
    split
    · split_ifs <;> rfl
    all_goals rfl
  unfold bitTaken takeBit
  split
  · rfl
  · split_ifs
    · rfl
    · rfl
    · exact hbyte _ _ _
    · rfl

theorem startSign_regulator : (startSign s).regulator = s.regulator := by
  unfold startSign
  split
  · rfl
  · split <;> rfl

theorem judgeFrame_regulator : (judgeFrame s).regulator = s.regulator := by
  unfold judgeFrame
  split
  · rfl
  · split_ifs
    · rfl
    · split <;> rfl
    · rfl

theorem stopSign_regulator : (stopSign s).regulator = s.regulator := by
  unfold stopSign closeTransfer
  split
  · rfl
  · split
    · split
      · exact judgeFrame_regulator s
      all_goals rfl
    · rfl

theorem takeLevels_regulator (l : Levels) : (takeLevels l s).regulator = s.regulator := by
  unfold takeLevels
  dsimp only
  split_ifs
  · rfl
  · exact stopSign_regulator _
  · exact startSign_regulator _
  · exact bitTaken_regulator _ _
  · rfl

theorem busEvent_regulator {levels : List Levels} {s t : State} (h : busEvent levels s = .next t) :
    t.regulator = s.regulator := by
  unfold busEvent at h
  split at h <;> cases h
  · exact (withMatrix_regulator _ s).trans (foldl_regulator takeLevels_regulator levels _)
  · exact foldl_regulator (f := fun s l => modWire (setLevels l) s) (fun _ _ => rfl) levels s

/-! ### PARAM SET (R180) -/

theorem paramSetBlock_regulator (group idx field value : Int) :
    (paramSetBlock group idx field value s).1.regulator = s.regulator := by
  unfold paramSetBlock
  split
  · rfl
  · next q _ =>
    refine (act_keeps (setSettings (q.write s.settings value) s) q).regulator ?_
    cases q <;> simp [Param.parts]

end

/-- A row that does not write the regulator leaves it as it is. -/
theorem exec_regulator {i : Instr} {s t : State} (hi : writesRegulator i = false) (h : exec i s = .next t) :
    t.regulator = s.regulator := by
  cases i with
  | pass | powerUp | externalReset | powerLoss | softReset => cases hi
  | secondBoundary => exact secondBoundary_regulator h
  | clockSet => exact command_regulator h (clockSetBlock_regulator _ _ _ _ _)
  | pointAdd => exact command_regulator h (pointAddBlock_regulator _ _ _ _ _ _ _ _)
  | pointDel => exact command_regulator h (pointDelBlock_regulator _ _ _ _ _ _ _)
  | listClear => exact command_regulator h (listClearBlock_regulator _ _ _ _ _)
  | bankCopy => exact command_regulator h (bankCopyBlock_regulator _ _ _ _ _)
  | bankLoad => exact command_regulator h (bankLoadBlock_regulator _ _ _)
  | bankSelect => exact command_regulator h (bankSelectBlock_regulator _ _ _)
  | bankTimed => exact command_regulator h (bankTimedBlock_regulator _ _ _ _ _)
  | bankCancel => exact command_regulator h (bankCancelBlock_regulator _ _)
  | bankSave => exact command_regulator h (bankSaveBlock_regulator _ _ _)
  | configSave => exact command_regulator h (configSaveBlock_regulator _ _)
  | saveCompletion good => exact event_regulator h fun s => saveCompletionBlock_regulator s good
  | ovrSet => exact command_regulator h (ovrSetBlock_regulator _ _ _ _ _ _ _)
  | ovrHold => exact command_regulator h (ovrHoldBlock_regulator _ _ _ _)
  | ovrRelease => exact command_regulator h (ovrReleaseBlock_regulator _ _ _)
  | paramSet => exact command_regulator h (paramSetBlock_regulator _ _ _ _ _)
  | ident | status | zoneGet | clockGet | pointGet | bankGet | ovrList | captureGet | regGet | valveGet | lineGet
  | linkGet | paramGet | noticeRead =>
    exact command_regulator h rfl
  | tempReport => exact command_regulator h (tempReportBlock_regulator _ _ _)
  | valveClear => exact command_regulator h (valveClearBlock_regulator _ _)
  | inhibit => exact command_regulator h (inhibitBlock_regulator _ _ _)
  | lockoutClear => exact command_regulator h (lockoutClearBlock_regulator _ _)
  | dhwBoost => exact command_regulator h (dhwBoostBlock_regulator _ _)
  | lineSet | lineClear | lineToggle => exact command_regulator h (writeLines_regulator _ _ _)
  | noticeMask => exact command_regulator h (noticeMaskBlock_regulator _ _ _)
  | textCharacter c framingError => exact event_regulator h fun s => textCharacterBlock_regulator s c framingError
  | textResponseSend => exact event_regulator h textSendBlock_regulator
  | textResponseSent => exact event_regulator h textSentBlock_regulator
  | writeTransfer | readTransfer | repeatedStart | busError => exact busEvent_regulator h
  | rawInputChange ch level elapsed =>
    replace h : (if s.powered then event (rawInputBlock ch level elapsed) s else .next (setRaw ch level s)) = .next t :=
      h
    split at h
    · exact event_regulator h fun _ => rfl
    · cases h
      rfl
  | acceptedEdge | timeout | captureSecond | cycleStart | driveLineOff => exact event_regulator h fun _ => rfl
  | windowExpiry => exact event_regulator h fun s => expireWindow_regulator _ s.orders.next
  | valveUpdate => exact event_regulator h fun s => faultsThenReport_regulator _ s.orders.next _
  | confirmTimeout => exact event_regulator h fun s => ite_regulator (faultsThenReport_regulator _ s.orders.next _)
  | endSwitchEdge ch closed =>
    refine lineEvent_regulator h rfl fun u => ?_
    split
    · rfl
    · exact endSwitchBlock_regulator u ch closed
  | flameEdge asserted =>
    exact lineEvent_regulator h rfl fun u => onEdge_regulator u (block := flameBlock asserted)
      (fun _ => ite_regulator rfl) _ _
  | boilerFaultEdge asserted =>
    exact lineEvent_regulator h rfl fun u => onEdge_regulator u (block := faultBlock asserted) (fun _ => rfl) _ _
  | interlockEdge closed =>
    exact lineEvent_regulator h rfl fun u => onEdge_regulator u (fun s => (settle_reaches s).regulator) _ _
  | hotWaterRequestEdge asserted =>
    exact lineEvent_regulator h rfl fun u => onEdge_regulator u (fun s => requestBlock_regulator s asserted) _ _
  | pathWaitExpiry | flameWaitExpiry => exact event_regulator h fun _ => ite_regulator rfl
  | minOnExpiry | minOffExpiry | diverterOpen =>
    exact event_regulator h fun _ => ite_regulator (settle_reaches _).regulator
  | overrunExpiry => exact event_regulator h fun _ => ite_regulator (endOverrun_reaches _).regulator
  | faultPersistenceExpiry => exact event_regulator h fun _ => ite_regulator (lockOut_reaches _ _).regulator
  | timedCallExpiry => exact event_regulator h fun _ => ite_regulator (deriveCall_reaches _).regulator
  | priorityExpiry => exact event_regulator h fun _ => ite_regulator (endPriority_reaches _).regulator

end Sys2Proof.Machine

namespace Sys2Proof.Machine

/-! ## The computation of one zone (R82 to R92) -/

section
variable (r : ZoneRecord) (c : ZoneSettings) {i : ZoneInput} (priority : Bool)

theorem known_of_invalid (h : i.status = .invalid) : i.known = none := by
  unfold ZoneInput.known
  rw [h]

theorem known_of_valid (h : i.status ≠ .invalid) : i.known = i.temp := by
  unfold ZoneInput.known
  cases hstatus : i.status with
  | invalid => exact absurd hstatus h
  | valid | held => rfl

theorem compute_of_disabled (h : i.setpoint = none) : r.compute c i priority = r.disabled i := by
  unfold ZoneRecord.compute
  rw [h]

theorem compute_of_unknown {sp : Int} (h : i.setpoint = some sp) (hknown : i.known = none) :
    r.compute c i priority = r.fallback c sp i priority := by
  unfold ZoneRecord.compute
  rw [h, hknown]

theorem compute_of_known {sp temp : Int} (h : i.setpoint = some sp) (hknown : i.known = some temp) :
    r.compute c i priority = r.regulated c sp temp i priority := by
  unfold ZoneRecord.compute
  rw [h, hknown]

/-- A zone is computed in one of three ways (R80): disabled, without a temperature, or regulated. -/
theorem compute_cases : (i.setpoint = none ∧ r.compute c i priority = r.disabled i) ∨
    (∃ sp, i.setpoint = some sp ∧ i.known = none ∧ r.compute c i priority = r.fallback c sp i priority) ∨
    ∃ sp temp, i.setpoint = some sp ∧ i.known = some temp ∧
      r.compute c i priority = r.regulated c sp temp i priority := by
  cases hsp : i.setpoint with
  | none => exact .inl ⟨rfl, compute_of_disabled r c priority hsp⟩
  | some sp =>
    cases hknown : i.known with
    | none => exact .inr (.inl ⟨sp, rfl, rfl, compute_of_unknown r c priority hsp hknown⟩)
    | some temp => exact .inr (.inr ⟨sp, temp, rfl, rfl, compute_of_known r c priority hsp hknown⟩)

/-- The setpoint and the status that were used are those of the inputs, whatever the computation (R82). -/
theorem compute_used : (r.compute c i priority).setpointUsed = i.setpoint ∧
    (r.compute c i priority).statusUsed = i.status := by
  rcases compute_cases r c (i := i) priority with ⟨hsp, h⟩ | ⟨sp, hsp, -, h⟩ | ⟨sp, temp, hsp, -, h⟩ <;>
    rw [h, hsp] <;> exact ⟨rfl, rfl⟩

/-- A computed zone delivers what R92 makes of its latch, of priority and of its demand; a disabled one delivers nothing,
its latch CLEAR and its demand 0 (R83). -/
theorem compute_delivered : (r.compute c i priority).delivered =
    deliveredOf (r.compute c i priority).frost priority (r.compute c i priority).demand := by
  rcases compute_cases r c (i := i) priority with ⟨-, h⟩ | ⟨sp, -, -, h⟩ | ⟨sp, temp, -, -, h⟩ <;> rw [h]
  · exact (ite_self _).symm
  · rfl
  · rfl

/-- The provisional integral lies in the integral's range (R88). -/
theorem provisional_mem (integral inc integralTime : Int) :
    0 ≤ provisional integral inc integralTime ∧ provisional integral inc integralTime ≤ 1048576 := by
  unfold provisional
  split
  · omega
  · exact clamp_mem 0 1048576 _ (by omega)

/-- Conditional integration leaves the integral in its range (R88, R90). -/
theorem integrate_mem {integral : Int} (h : 0 ≤ integral ∧ integral ≤ 1048576) (p inc integralTime : Int) :
    0 ≤ (integrate integral p inc integralTime).1 ∧ (integrate integral p inc integralTime).1 ≤ 1048576 := by
  unfold integrate
  dsimp only
  split
  · exact h
  · exact provisional_mem _ _ _

/-! ## Records kept by the computation (R78, R91, R92, R93) -/

/-- A delivered demand lies in its range, is full under the latch and 0 under priority with the latch CLEAR (R92). -/
theorem RecordKept.of_delivered {r : ZoneRecord} {priority : Bool}
    (hintegral : 0 ≤ r.integral ∧ r.integral ≤ 1048576) (hdemand : 0 ≤ r.demand ∧ r.demand ≤ 4096)
    (hdelivered : r.delivered = deliveredOf r.frost priority r.demand) : RecordKept priority r.recall where
  integral := hintegral
  demand := hdemand
  delivered := by
    show 0 ≤ r.delivered ∧ r.delivered ≤ 4096
    rw [hdelivered]
    unfold deliveredOf
    split_ifs
    · exact ⟨by decide, by decide⟩
    · exact ⟨by decide, by decide⟩
    · exact hdemand
  calling := rfl
  frost := fun h => hdelivered.trans (if_pos h)
  priority := fun hp h => by
    have hclear : r.frost = false := h
    show r.delivered = 0
    rw [hdelivered, deliveredOf, hclear, hp]
    rfl

theorem compute_kept {r : ZoneRecord} {c : ZoneSettings} {priority : Bool}
    (hfallback : 0 ≤ c.fallback ∧ c.fallback ≤ 4096) (hintegral : 0 ≤ r.integral ∧ r.integral ≤ 1048576)
    (i : ZoneInput) : RecordKept priority (r.compute c i priority).recall := by
  have hdelivered := compute_delivered r c (i := i) priority
  rcases compute_cases r c (i := i) priority with ⟨-, h⟩ | ⟨sp, -, -, h⟩ | ⟨sp, temp, -, -, h⟩ <;>
    refine .of_delivered ?_ ?_ hdelivered <;> rw [h]
  · exact (by omega : (0 : Int) ≤ 0 ∧ (0 : Int) ≤ 1048576)
  · exact (by omega : (0 : Int) ≤ 0 ∧ (0 : Int) ≤ 4096)
  · exact hintegral
  · exact hfallback
  · show 0 ≤ (if priority then r.integral else (integrate r.integral _ _ _).1) ∧
      (if priority then r.integral else (integrate r.integral _ _ _).1) ≤ 1048576
    split
    · exact hintegral
    · exact integrate_mem hintegral _ _ _
  · exact clamp_mem 0 4096 _ (by omega)

end

/-! ## The pass, stage by stage (R80) -/

section
variable (order : Order) (s : State)

/-- The part with every zone computed and its frost events raised (R80, steps 1 to 4). -/
def zonesComputed : State :=
  (List.finRange 16).foldl (frostEvent s.regulator.zones (computedRegulator s).zones)
    (setRegulator (computedRegulator s) s)

/-- The demand update of a pass (R94). -/
def passDemand : Demand := demandUpdate (computedRegulator s).zones

/-- The part with the demand update handed on, the frost events taken before it (R80, step 5). -/
def demandHanded : State := handDemand order.pass (passDemand s) (takeRaised (zonesComputed s))

/-- The part with the calling states brought up to date (R80, step 6). -/
def callingBrought : State :=
  bringUpCalling s.regulator.zones (computedRegulator s).zones (demandHanded order s)

theorem passBlock_eq : passBlock order s = takeInTurns order.turns (callingBrought order s) := rfl

/-- The regulator's records after a pass (R80, R93). -/
def passedRegulator : Regulator :=
  { computedRegulator s with zones := Tab.ofFn fun z => ((computedRegulator s).zones.get z).recall }

theorem frostEvent_keeps (before after : Tab 16 ZoneRecord) (z : Fin 16) :
    Keeps [.raised, .notices] s (frostEvent before after s z) := by
  unfold frostEvent
  split
  · exact ((raiseFor_keeps _ _ s).mono (by simp)).trans
      (((post_keeps _ _ _).mono (by simp)).trans ((post_keeps _ _ _).mono (by simp)))
  · exact (raiseFor_keeps _ _ s).mono (by simp)
  · exact Keeps.refl _ _
  · exact Keeps.refl _ _

theorem callEvent_keeps (before after : Tab 16 ZoneRecord) (z : Fin 16) :
    Keeps [.raised] s (callEvent before after s z) := by
  unfold callEvent
  split
  · exact raiseFor_keeps _ _ s
  · exact raiseFor_keeps _ _ s
  · exact Keeps.refl _ _
  · exact Keeps.refl _ _

/-- What each member of a list keeps, all of them keep one after the other. -/
theorem Keeps.foldl {α : Type} {l : List Part} {f : State → α → State} (h : ∀ s a, Keeps l s (f s a)) (as : List α)
    (s : State) : Keeps l s (as.foldl f s) := by
  induction as generalizing s with
  | nil => exact Keeps.refl _ _
  | cons a as ih => exact (h s a).trans (ih _)

theorem setRegulator_keeps (r : Regulator) : Keeps [.regulator] s (setRegulator r s) := by
  intro part hp
  cases part <;> first | rfl | (simp at hp)

theorem applyDemand_keeps (d : Demand) : Keeps [.valves] s (applyDemand d s) := by
  intro part hp
  cases part <;> first | rfl | (simp at hp)

theorem zonesComputed_keeps : Keeps [.raised, .notices] (setRegulator (computedRegulator s) s) (zonesComputed s) :=
  Keeps.foldl (fun s z => frostEvent_keeps s _ _ z) _ _

theorem handDemand_keeps (order : PassOrder) (d : Demand) : Keeps passageParts s (handDemand order d s) := by
  have happlied : ∀ u, Keeps passageParts u (applyDemand d u) := fun u => (applyDemand_keeps u d).mono (by decide)
  cases order
  · exact ((takeDemand_reaches _ _ _).1.trans (happlied _)).trans (handReport_keeps _)
  · exact ((happlied _).trans (takeDemand_reaches _ _ _).1).trans (handReport_keeps _)
  · exact ((happlied _).trans (handReport_keeps _)).trans (takeDemand_reaches _ _ _).1

theorem demandHanded_regulator : (demandHanded order s).regulator = computedRegulator s :=
  ((handDemand_keeps _ _ _).regulator (by decide)).trans
    (((takeInTurns_keeps [] _).regulator (by decide)).trans ((zonesComputed_keeps s).regulator (by decide)))

theorem callingBrought_regulator : (callingBrought order s).regulator = passedRegulator s := by
  unfold callingBrought bringUpCalling
  rw [(setRegulator_fields _ _).1, demandHanded_regulator]
  rfl

theorem passBlock_regulator : (passBlock order s).regulator = passedRegulator s :=
  ((takeInTurns_keeps order.turns (callingBrought order s)).regulator (by decide)).trans
    (callingBrought_regulator order s)

end

theorem passedRegulator_zone (s : State) (z : Fin 16) : (passedRegulator s).zones.get z =
    ((s.regulator.zones.get z).compute (s.settings.zones.get z) (zoneInput s z) s.firing.priority.isSome).recall := by
  unfold passedRegulator computedRegulator
  simp only [Tab.get_ofFn]
  rfl

/-! ## What every step keeps of the regulator's records -/

theorem RecordsKept.of_regulator {s t : State} (h : t.regulator = s.regulator) (hs : RecordsKept s) :
    RecordsKept t := by
  unfold RecordsKept
  rw [h]
  exact hs

/-- A pass forms every record anew, with priority-in-force as it stands then. -/
theorem RecordsKept.of_pass {s t : State} (h : t.regulator = passedRegulator s) (hsettings : SettingsKept s)
    (hs : RecordsKept s) : RecordsKept t := by
  intro z
  rw [h, passedRegulator_zone]
  exact compute_kept ((((settingsKept_iff s).1 hsettings).1.zones z).fallback) (hs z).integral _

theorem RecordsKept.of_blank {t : State} (h : t.regulator = blankRegulator) : RecordsKept t := by
  intro z
  rw [h, show blankRegulator.zones.get z = blankZoneRecord from Tab.get_all _ z]
  exact blankZoneRecord_kept _

theorem Started.regulator {s t : State} (h : Started s t) : t.regulator = blankRegulator :=
  h.of_blanked .regulator (by decide)

theorem losePower_regulator (s : State) : (losePower s).regulator = blankRegulator := rfl

theorem softResetBlock_regulator (p : Port) (order : Order) (s : State) :
    (softResetBlock p order s).regulator = blankRegulator :=
  ((takeAroundReset_keeps _ _).regulator (by decide)).trans ((restartControl_keeps _ _).regulator (by decide))

/-- Every row keeps the records: a pass forms them anew, a start, a reset and the loss of power leave them blank, and
every other row leaves them as they are. -/
theorem exec_recordsKept {i : Instr} {s t : State} (h : exec i s = .next t) (hsettings : SettingsKept s)
    (hs : RecordsKept s) : RecordsKept t := by
  cases hi : writesRegulator i with
  | false => exact hs.of_regulator (exec_regulator hi h)
  | true =>
    cases i with
    | pass =>
      rcases (event_eq_next_iff _ s t).1 h with ⟨-, rfl⟩ | ⟨-, rfl⟩
      · exact .of_pass ((withMatrix_regulator _ s).trans (passBlock_regulator _ _)) hsettings hs
      · exact hs
    | powerUp =>
      obtain ⟨u, hu⟩ := exists_started s
      cases (hu.row .powerUp (.inl rfl)).symm.trans h
      exact .of_blank hu.regulator
    | externalReset =>
      rcases (event_eq_next_iff startPart s t).1 h with ⟨hp, -⟩ | ⟨-, rfl⟩
      · obtain ⟨u, hu⟩ := exists_started s
        cases (hu.row .externalReset (.inr ⟨rfl, hp⟩)).symm.trans h
        exact .of_blank hu.regulator
      · exact hs
    | powerLoss =>
      rcases (event_eq_next_iff losePower s t).1 h with ⟨-, rfl⟩ | ⟨-, rfl⟩
      · exact .of_blank ((withMatrix_regulator losePower s).trans (losePower_regulator _))
      · exact hs
    | softReset p =>
      rcases (event_eq_next_iff _ s t).1 h with ⟨-, rfl⟩ | ⟨-, rfl⟩
      · exact .of_blank ((withMatrix_regulator _ s).trans (softResetBlock_regulator p _ _))
      · exact hs
    | _ => cases hi

/-- From s to t the settings stay in range, and under settings in range the regulator's records are kept. -/
def RecordsStep (s t : State) : Prop := DataKept s t ∧ (SettingsKept s → RecordsKept s → RecordsKept t)

theorem RecordsStep.refl (s : State) : RecordsStep s s := ⟨.refl s, fun _ hs => hs⟩

theorem RecordsStep.trans {s t u : State} (h : RecordsStep s t) (k : RecordsStep t u) : RecordsStep s u :=
  ⟨h.1.trans k.1, fun hsettings hs => k.2 (h.1.1 hsettings) (h.2 hsettings hs)⟩

/-- Settles O54: every row keeps the records under settings in range, and keeps the settings in range, so the rows of a
second do one after the other; a second moves of the regulator its timer alone. -/
theorem stepsKeepRegulatorRecords : Obligations.StepsKeepRegulatorRecords := by
  intro s t hsettings hs h
  have hstep : RecordsStep s t :=
    step_rel RecordsStep.refl RecordsStep.trans (fun h => ⟨exec_dataKept h, exec_recordsKept h⟩)
      (fun _ _ => ⟨.of_data rfl, fun _ hs => hs⟩) (fun _ => ⟨.of_data rfl, fun _ hs => hs⟩) h
  exact hstep.2 hsettings hs

end Sys2Proof.Machine

namespace Sys2Proof.Machine

/-! ## The row of a pass (R80) -/

/-- The part after a pass. -/
def passed (s : State) : State := withMatrix (withOrder passBlock) s

theorem exec_pass {s : State} (hp : s.powered = true) : exec .pass s = .next (passed s) :=
  event_powered (withOrder passBlock) s hp

theorem passed_regulator (s : State) : (passed s).regulator = passedRegulator s :=
  (withMatrix_regulator _ s).trans (passBlock_regulator s.orders.next (orderTaken s))

theorem passed_zone (s : State) (z : Fin 16) : (passed s).regulator.zones.get z =
    ((s.regulator.zones.get z).compute (s.settings.zones.get z) (zoneInput s z) s.firing.priority.isSome).recall := by
  rw [passed_regulator, passedRegulator_zone]

/-! ## The regulated zone (R84, R87 to R92) -/

/-- The frost latch after its examination under a temperature (R84). -/
theorem frostLatch_cases (frost temp : Int) (latch : Bool) :
    (temp < frost - 50 → frostLatch frost latch (some temp) = true) ∧
    (frost + 100 ≤ temp → frostLatch frost latch (some temp) = false) ∧
    (frost - 50 ≤ temp → temp < frost + 100 → frostLatch frost latch (some temp) = latch) := by
  refine ⟨fun h => if_pos h, fun h => ?_, fun hlo hhi => ?_⟩ <;> unfold frostLatch <;> dsimp only
  · rw [if_neg (by omega), if_pos h]
  · rw [if_neg (by omega), if_neg (by omega)]

theorem discards_iff (u inc : Int) :
    discards u inc = true ↔ (4096 < u ∧ 0 < inc) ∨ (u < 0 ∧ inc < 0) := by
  unfold discards
  simp only [Bool.or_eq_true, Bool.and_eq_true, decide_eq_true_eq]
  rfl

section
variable {integral p inc integralTime next : Int} (hnext : next = provisional integral inc integralTime)
include hnext

/-- The provisional integral is discarded, and the demand is formed again from the integral as it was (R90). -/
theorem integrate_of_discarded (h : discards (p + divRound next 256) inc = true) :
    integrate integral p inc integralTime = (integral, p + divRound integral 256) := by
  subst hnext
  exact if_pos h

theorem integrate_of_kept (h : ¬discards (p + divRound next 256) inc = true) :
    integrate integral p inc integralTime = (next, p + divRound next 256) := by
  subst hnext
  exact if_neg h

end

/-- Settles O33: the record is that of `ZoneRecord.regulated`, whose latch and integral go by their cases. -/
theorem passRegulatesZone : Obligations.PassRegulatesZone := by
  intro s z sp temp hp hsp hstatus htemp
  refine ⟨passed s, exec_pass hp, fun r e p inc next hr he hprop hinc hnext => ?_⟩
  have hknown : (zoneInput s z).known = some temp := (known_of_valid hstatus).trans htemp
  rw [passed_zone, compute_of_known _ _ _ hsp hknown] at hr
  obtain ⟨hcold, hwarm, hbetween⟩ :=
    frostLatch_cases (s.settings.zones.get z).frost temp (s.regulator.zones.get z).frost
  have hintegral : r.integral = if s.firing.priority.isSome then (s.regulator.zones.get z).integral
      else (integrate (s.regulator.zones.get z).integral p inc (s.settings.zones.get z).integralTime).1 := by
    rw [hr, hinc, hprop, he]
    rfl
  have hdemand : r.demand = clamp 0 4096
      (integrate (s.regulator.zones.get z).integral p inc (s.settings.zones.get z).integralTime).2 := by
    rw [hr, hinc, hprop, he]
    rfl
  have hfrost : r.frost = frostLatch (s.settings.zones.get z).frost (s.regulator.zones.get z).frost (some temp) := by
    rw [hr]
    rfl
  rw [← discards_iff, hintegral, hdemand, hfrost]
  refine ⟨?_, ?_, ?_, ?_, ?_, ?_, hcold, hwarm, hbetween, fun hdiscarded => ?_, fun hkept => ?_, ?_⟩
  · rw [hr]; rfl
  · rw [hr]; rfl
  · rw [hr]; rfl
  · rw [hr, he]; rfl
  · rw [hr, hprop, he]; rfl
  · rw [hr, hinc, he]; rfl
  · rw [integrate_of_discarded hnext hdiscarded]
    exact ⟨ite_self _, rfl⟩
  · rw [integrate_of_kept hnext hkept]
    exact ⟨rfl, rfl⟩
  · rw [← hdemand, ← hfrost, hr]
    rfl

end Sys2Proof.Machine

namespace Sys2Proof.Machine

/-! ## The demand update handed on (R94, R101, R118) -/

theorem memory_demand {f g : Firing} (h : f.memory = g.memory) : f.demand = g.demand := by
  simp only [Firing.memory, Prod.mk.injEq] at h
  exact h.2.2.2.2.1

section
variable (s : State)

/-- FIRING left or not, what an event brings about leaves the controller's memory. -/
theorem settle_memory : (settle s).firing.memory = s.firing.memory := by
  by_cases hstop : s.firing.state = .firing ∧ mustStop s = true
  · have hoverrun : ∀ u, (enterOverrun u).firing.memory = u.firing.memory := by
      intro u
      unfold enterOverrun
      split
      · exact (endOverrun_settling _).memory.trans (startOverrun_settling u).memory
      · exact (startOverrun_settling u).memory
    rw [settle_of_firing hstop.1 hstop.2, hoverrun, leaveFiring_memory]
  · exact (settle_settling s fun hfiring => by simpa using fun h => hstop ⟨hfiring, h⟩).memory

theorem takeDemand_demand (stood : Option Int) (d : Demand) : (takeDemand stood d s).firing.demand = d :=
  memory_demand ((settle_memory _).trans (formHeating_settling _).memory)

theorem handReport_demand : (handReport s).firing.demand = s.firing.demand := by
  unfold handReport
  split
  · rfl
  · exact (memory_demand ((settle_memory _).trans (formHeating_settling _).memory)).trans rfl

theorem takeDemand_passage (stood : Option Int) (d : Demand) : Passage s (takeDemand stood d s) :=
  ((modFiring_passage rfl).andThen formHeating_passage).andThen settle_passage

theorem handReport_passage : Passage s (handReport s) := by
  unfold handReport
  split
  · exact .refl s
  · have hset : Passage s (setReport (computeReport s) s) := .of_quiet rfl rfl
    exact ((hset.trans (modFiring_passage rfl)).andThen formHeating_passage).andThen settle_passage

theorem applyDemand_passage (d : Demand) : Passage s (applyDemand d s) := .of_quiet rfl rfl

/-- In every order of the hand-over the controller alone raises events (R144). -/
theorem handDemand_passage (order : PassOrder) (d : Demand) : Passage s (handDemand order d s) := by
  cases order
  · exact ((takeDemand_passage s _ d).andThen (applyDemand_passage · d)).andThen handReport_passage
  · exact ((applyDemand_passage s d).andThen (takeDemand_passage · _ d)).andThen handReport_passage
  · exact ((applyDemand_passage s d).andThen handReport_passage).andThen (takeDemand_passage · _ d)

/-- The driver holds a demand update and has formed every channel's demand duty from it (R101). -/
def DutiesFormed (d : Demand) (s : State) : Prop :=
  s.valves.demand = d ∧ ∀ v, (s.valves.channels.get v).demandDuty = (s.settings.valves.get v).demandDuty d

variable {s}

theorem DutiesFormed.congr {t : State} {d : Demand} (h : DutiesFormed d s) (hsettings : t.settings = s.settings)
    (hdemand : t.valves.demand = s.valves.demand) (hchannels : t.valves.channels = s.valves.channels) :
    DutiesFormed d t := by
  unfold DutiesFormed
  rw [hsettings, hdemand, hchannels]
  exact h

theorem DutiesFormed.takeDemand {d : Demand} (h : DutiesFormed d s) (stood : Option Int) (e : Demand) :
    DutiesFormed d (takeDemand stood e s) := by
  obtain ⟨hkeeps, hchannels, hdemand, -⟩ := takeDemand_reaches stood e s
  exact h.congr (hkeeps .settings (by decide)) hdemand hchannels

theorem DutiesFormed.handReport {d : Demand} (h : DutiesFormed d s) : DutiesFormed d (handReport s) := by
  obtain ⟨-, hchannels, hdemand⟩ := handReport_report s
  exact h.congr (handReport_keeps s .settings (by decide)) hdemand hchannels

variable (s)

theorem applyDemand_formed (d : Demand) : DutiesFormed d (applyDemand d s) := by
  refine ⟨rfl, fun v => ?_⟩
  have hchannel : (applyDemand d s).valves.channels.get v =
      (s.valves.channels.get v).recompute (s.settings.valves.get v) d := Tab.get_ofFn _ v
  rw [hchannel]
  exact (recompute_formed _ _ d).demand

/-- In every order of the hand-over the driver forms its duties and the controller holds the update (R94). -/
theorem handDemand_taken (order : PassOrder) (d : Demand) :
    DutiesFormed d (handDemand order d s) ∧ (handDemand order d s).firing.demand = d := by
  cases order
  · exact ⟨(applyDemand_formed _ d).handReport, (handReport_demand _).trans (takeDemand_demand s _ d)⟩
  · exact ⟨((applyDemand_formed s d).takeDemand _ d).handReport,
      (handReport_demand _).trans (takeDemand_demand _ _ d)⟩
  · exact ⟨((applyDemand_formed s d).handReport).takeDemand _ d, takeDemand_demand _ _ d⟩

end
end Sys2Proof.Machine

namespace Sys2Proof.Machine

/-! ## The events of a pass (R85, R93, R149) -/

section
variable (s : State)

/-- The event of a zone whose mark goes from one value to another, or none where it stays. -/
def markEvents (on off : SourceKind) (before after : Bool) (z : Fin 16) : List SourceEvent :=
  if before = after then [] else [⟨if after then on else off, z⟩]

/-- Whether an event of a kind tells of a mark's change: `on` of its setting, `off` of its clearing. -/
def markShown (on off kind : SourceKind) (before after : Bool) : Bool :=
  (decide (kind = on) && (!before && after)) || (decide (kind = off) && (before && !after))

theorem parametersOf_markEvents {on off : SourceKind} (h : on ≠ off) (kind : SourceKind) (a b : Bool) (z : Fin 16) :
    parametersOf kind (markEvents on off a b z) = if markShown on off kind a b then [z] else [] := by
  by_cases hon : kind = on
  · subst hon
    cases a <;> cases b <;> simp [markEvents, markShown, parametersOf, h, Ne.symm h]
  · by_cases hoff : kind = off
    · subst hoff
      cases a <;> cases b <;> simp [markEvents, markShown, parametersOf, h, hon]
    · cases a <;> cases b <;> simp [markEvents, markShown, parametersOf, hon, hoff, Ne.symm hon, Ne.symm hoff]

/-- The zones that the events of a kind name are those whose mark changes so. -/
theorem parametersOf_flatMap_markEvents {on off : SourceKind} (h : on ≠ off) (kind : SourceKind)
    (before after : Fin 16 → Bool) (zones : List (Fin 16)) :
    parametersOf kind (zones.flatMap fun z => markEvents on off (before z) (after z) z) =
      zones.filter fun z => markShown on off kind (before z) (after z) := by
  induction zones with
  | nil => rfl
  | cons z zones ih =>
    rw [List.flatMap_cons, parametersOf_append, ih, parametersOf_markEvents h, List.filter_cons]
    split <;> rfl

theorem foldl_raised {f : State → Fin 16 → State} {events : Fin 16 → List SourceEvent}
    (h : ∀ s z, (f s z).raised = s.raised ++ events z) (zones : List (Fin 16)) (s : State) :
    (zones.foldl f s).raised = s.raised ++ zones.flatMap events := by
  induction zones generalizing s with
  | nil => exact (List.append_nil _).symm
  | cons z zones ih => rw [List.foldl_cons, ih, h, List.flatMap_cons, List.append_assoc]

theorem frostEvent_raised (before after : Tab 16 ZoneRecord) (z : Fin 16) :
    (frostEvent before after s z).raised =
      s.raised ++ markEvents .frostOn .frostOff (before.get z).frost (after.get z).frost z := by
  unfold frostEvent
  cases (before.get z).frost <;> cases (after.get z).frost <;> simp [markEvents, postBoth]

theorem callEvent_raised (before after : Tab 16 ZoneRecord) (z : Fin 16) :
    (callEvent before after s z).raised = s.raised ++
      markEvents .zoneCallOn .zoneCallOff (before.get z).calling (decide (0 < (after.get z).delivered)) z := by
  unfold callEvent
  cases (before.get z).calling <;> cases decide (0 < (after.get z).delivered) <;> simp [markEvents]

theorem zonesComputed_raised : (zonesComputed s).raised = s.raised ++ (List.finRange 16).flatMap fun z =>
    markEvents .frostOn .frostOff (s.regulator.zones.get z).frost ((computedRegulator s).zones.get z).frost z :=
  foldl_raised (fun u z => frostEvent_raised u _ _ z) _ _

/-- Behind the events of the frost latches stand the controller's own and those of the calling states. -/
theorem callingBrought_raised (order : Order) : ∃ own, (∀ e ∈ own, e.kind.block = .controller) ∧
    (callingBrought order s).raised = own ++ (List.finRange 16).flatMap fun z =>
      markEvents .zoneCallOn .zoneCallOff (s.regulator.zones.get z).calling
        (decide (0 < ((computedRegulator s).zones.get z).delivered)) z := by
  obtain ⟨own, hraised, hown⟩ := (handDemand_passage (takeRaised (zonesComputed s)) order.pass (passDemand s)).events
  refine ⟨own, hown, (foldl_raised (fun u z => callEvent_raised u _ _ z) _ _).trans ?_⟩
  rw [demandHanded, hraised]
  rfl

theorem demandHanded_keeps (order : Order) : Keeps [.raised, .notices, .links, .firing, .valves]
    (setRegulator (computedRegulator s) s) (demandHanded order s) :=
  (((zonesComputed_keeps s).mono (by simp)).trans ((takeInTurns_keeps [] _).mono (by simp))).trans
    ((handDemand_keeps _ _ _).mono (by decide))

theorem callingBrought_keeps (order : Order) :
    Keeps [.raised, .regulator] (demandHanded order s) (callingBrought order s) :=
  ((Keeps.foldl (fun u z => callEvent_keeps u _ _ z) _ _).mono (by simp)).trans
    ((setRegulator_keeps _ _).mono (by simp))

theorem passBlock_keeps (order : Order) : Keeps [.raised, .regulator, .notices, .links, .firing, .valves] s
    (passBlock order s) :=
  ((((setRegulator_keeps s _).mono (by simp)).trans ((demandHanded_keeps s order).mono (by simp))).trans
    ((callingBrought_keeps s order).mono (by simp))).trans ((takeInTurns_keeps _ _).mono (by simp))

theorem passed_keeps : Keeps [.regulator, .valves, .firing, .links, .notices, .orders] s (passed s) :=
  (eventsTaken_keeps (l := [.regulator, .valves, .firing, .links, .notices, .orders])
    (((orderTaken_keeps (nothingRaised s)).mono (by simp)).trans ((passBlock_keeps _ _).mono (by simp)))).mono
    (by simp)

/-! ### The events that the matrix takes -/

/-- The part with every zone computed and the frost events taken (R85). -/
def frostTaken : State := takeRaised (zonesComputed (orderTaken s))

/-- Behind the calling events the matrix alone has something to do. -/
theorem passed_of_calling :
    Keeps [.links, .raised] (callingBrought s.orders.next (orderTaken s)) (passed s) :=
  (takeInTurns_keeps _ _).trans (eventsTaken_of_block s _)

theorem zonesComputed_keeps_row :
    Keeps [.raised, .notices, .regulator, .orders] s (zonesComputed (orderTaken s)) :=
  (((orderTaken_keeps s).mono (by simp)).trans ((setRegulator_keeps _ _).mono (by simp))).trans
    ((zonesComputed_keeps _).mono (by simp))

theorem frostTaken_settings : (frostTaken s).settings = s.settings :=
  (takeInTurns_keeps [] _ .settings (by decide)).trans (zonesComputed_keeps_row s .settings (by decide))

/-- The matrix takes one event for each latch that has changed (R85), before the update is handed on. -/
theorem frostTaken_events (kind : SourceKind) : EventsTaken s (frostTaken s) kind fun z =>
    markShown .frostOn .frostOff kind (s.regulator.zones.get z).frost ((computedRegulator s).zones.get z).frost := by
  have hevents := parametersOf_flatMap_markEvents (on := .frostOn) (off := .frostOff) (by decide) kind
    (fun z => (s.regulator.zones.get z).frost) (fun z => ((computedRegulator s).zones.get z).frost) (List.finRange 16)
  have hraised : (zonesComputed (orderTaken s)).raised = (List.finRange 16).flatMap fun z =>
      markEvents .frostOn .frostOff (s.regulator.zones.get z).frost ((computedRegulator s).zones.get z).frost z :=
    zonesComputed_raised (orderTaken s)
  refine (takeInTurns_eventsTaken [] (.of_eq ?_)).congr (zonesComputed_keeps_row s .links (by decide)).symm
    (zonesComputed_keeps_row s .settings (by decide)).symm rfl
  rw [hraised, hevents]

/-- Of the regulator's kinds the matrix takes afterwards one event for each calling state that has changed (R93). -/
theorem passed_events {kind : SourceKind} (hkind : kind.block = .regulator) :
    EventsTaken (frostTaken s) (passed s) kind fun z =>
      markShown .zoneCallOn .zoneCallOff kind (s.regulator.zones.get z).calling
        (decide (0 < ((computedRegulator s).zones.get z).delivered)) := by
  obtain ⟨own, hown, hraised⟩ := callingBrought_raised (orderTaken s) s.orders.next
  have hparameters : parametersOf kind (callingBrought s.orders.next (orderTaken s)).raised =
      (List.finRange 16).filter fun z => markShown .zoneCallOn .zoneCallOff kind (s.regulator.zones.get z).calling
        (decide (0 < ((computedRegulator s).zones.get z).delivered)) := by
    rw [hraised, parametersOf_append, parametersOf_of_block hown (by rw [hkind]; decide),
      parametersOf_flatMap_markEvents (by decide)]
    rfl
  have hhanded := (handDemand_keeps s.orders.next.pass (passDemand (orderTaken s)) (s := frostTaken s))
  have hbrought := callingBrought_keeps (orderTaken s) s.orders.next
  refine (takeInTurns_eventsTaken s.orders.next.turns (.of_eq hparameters)).congr ?_ ?_ rfl
  · exact ((hbrought .links (by decide)).trans (hhanded .links (by decide))).symm
  · exact ((hbrought .settings (by decide)).trans (hhanded .settings (by decide))).symm

/-- Of FROST_ON and FROST_OFF the matrix takes one event for each latch that has turned SET or CLEAR (R85). -/
theorem passed_frost {kind : SourceKind} (h : kind = .frostOn ∨ kind = .frostOff) :
    EventsTaken s (passed s) kind fun z => markShown .frostOn .frostOff kind (s.regulator.zones.get z).frost
      ((computedRegulator s).zones.get z).frost := by
  refine (frostTaken_events s kind).then_none (frostTaken_settings s) ?_
  rcases h with rfl | rfl <;> exact passed_events s rfl

/-- Of ZONE_CALL_ON and ZONE_CALL_OFF the matrix takes one event for each zone that has begun or ceased to call (R93). -/
theorem passed_calls {kind : SourceKind} (h : kind = .zoneCallOn ∨ kind = .zoneCallOff) :
    EventsTaken s (passed s) kind fun z => markShown .zoneCallOn .zoneCallOff kind (s.regulator.zones.get z).calling
      (decide (0 < ((computedRegulator s).zones.get z).delivered)) := by
  refine EventsTaken.after_none ?_ (frostTaken_settings s) (passed_events s (by rcases h with rfl | rfl <;> rfl))
  rcases h with rfl | rfl <;> exact frostTaken_events s _

end
end Sys2Proof.Machine

namespace Sys2Proof.Machine

/-! ## The notices of a pass (R85, R173) -/

section
variable {bit : Nat} {scope : PortNotices → BitVec 16} {p q : Fin 16 → Bool} {s t u : State}

theorem ScopePosted.of_notices (h : t.notices = s.notices) (hp : ∀ z, p z = false) : ScopePosted s t bit scope p := by
  intro port
  rw [h]
  refine ⟨fun _ => ⟨rfl, rfl⟩, fun ⟨z, hz⟩ => ?_⟩
  rw [hp z] at hz
  cases hz

/-- Two posts of a kind one after the other are one post of both sets (R173). -/
theorem ScopePosted.trans (h : ScopePosted s t bit scope p) (k : ScopePosted t u bit scope q) :
    ScopePosted s u bit scope fun z => p z || q z := by
  intro port
  obtain ⟨hnone, hsome⟩ := h port
  obtain ⟨knone, ksome⟩ := k port
  refine ⟨fun hpq => ?_, fun hpq => ?_⟩
  · simp only [Bool.or_eq_false_iff] at hpq
    obtain ⟨hkinds, hscope⟩ := hnone fun z => (hpq z).1
    obtain ⟨kkinds, kscope⟩ := knone fun z => (hpq z).2
    exact ⟨kkinds.trans hkinds, kscope.trans hscope⟩
  · by_cases hq : ∃ z, q z = true
    · obtain ⟨kkinds, kscope⟩ := ksome hq
      refine ⟨kkinds, fun z => ?_⟩
      dsimp only
      rw [kscope]
      by_cases hp : ∃ z, p z = true
      · obtain ⟨hkinds, hscope⟩ := hsome hp
        rw [hkinds, hscope, Bool.true_and, ← Bool.or_assoc, Bool.or_comm (q z)]
      · have hp' : ∀ z, p z = false := fun z => Bool.eq_false_iff.2 fun hz => hp ⟨z, hz⟩
        obtain ⟨hkinds, hscope⟩ := hnone hp'
        rw [hkinds, hscope, hp', Bool.false_or]
    · have hq' : ∀ z, q z = false := fun z => Bool.eq_false_iff.2 fun hz => hq ⟨z, hz⟩
      obtain ⟨kkinds, kscope⟩ := knone hq'
      have hp : ∃ z, p z = true := by simpa [hq'] using hpq
      obtain ⟨hkinds, hscope⟩ := hsome hp
      refine ⟨kkinds.trans hkinds, fun z => ?_⟩
      dsimp only
      rw [kscope, hscope, hq', Bool.or_false]

theorem ScopePosted.congr (h : ScopePosted s t bit scope p) (hpq : ∀ z, p z = q z) : ScopePosted s t bit scope q :=
  funext hpq ▸ h

theorem ScopePosted.congr_notices {s' t' : State} (h : ScopePosted s t bit scope p) (hs : s'.notices = s.notices)
    (ht : t'.notices = t.notices) : ScopePosted s' t' bit scope p := by
  unfold ScopePosted
  rw [hs, ht]
  exact h

end

theorem postFrost_posts (z : Fin 16) (s : State) :
    ScopePosted s (postBoth (.frost (zoneSet z)) s) 6 PortNotices.frost fun y => decide (y = z) := by
  intro port
  rw [postBoth_notices_of]
  refine ⟨fun hnone => absurd (hnone z) (by simp), fun _ => ⟨PortNotices.take_kinds_getLsbD _ _ _, fun y => ?_⟩⟩
  have hmerge : ((s.notices.of port).take (.frost (zoneSet z))).frost =
      mergeScope ((s.notices.of port).kinds.getLsbD 6) (s.notices.of port).frost (zoneSet z) := rfl
  rw [hmerge, mergeScope_getLsbD, zoneSet, getLsbD_single _ _ z.isLt]
  simp only [Fin.ext_iff]

/-- A latch that turns SET is posted, and no other (R85). -/
theorem frostEvent_posts (before after : Tab 16 ZoneRecord) (s : State) (z : Fin 16) :
    ScopePosted s (frostEvent before after s z) 6 PortNotices.frost fun y =>
      decide (y = z) && (!(before.get z).frost && (after.get z).frost) := by
  unfold frostEvent
  cases (before.get z).frost <;> cases (after.get z).frost
  · exact .of_notices rfl fun y => by simp
  · exact ((postFrost_posts z (raiseFor .frostOn z s)).congr_notices rfl rfl).congr fun y => by simp
  · exact .of_notices rfl fun y => by simp
  · exact .of_notices rfl fun y => by simp

theorem frostEvents_posts (before after : Tab 16 ZoneRecord) (zones : List (Fin 16)) (s : State) :
    ScopePosted s (zones.foldl (frostEvent before after) s) 6 PortNotices.frost fun y =>
      decide (y ∈ zones) && (!(before.get y).frost && (after.get y).frost) := by
  induction zones generalizing s with
  | nil => exact .of_notices rfl fun y => by simp
  | cons z zones ih =>
    refine ((frostEvent_posts before after s z).trans (ih _)).congr fun y => ?_
    by_cases hy : y = z
    · subst hy
      simp
    · simp [hy]

/-- A pass posts FROST to both ports for the latches that have turned SET (R85): the controller posts nothing of its own
as it takes the update. -/
theorem passed_posts (s : State) : ScopePosted s (passed s) 6 PortNotices.frost fun z =>
    !(s.regulator.zones.get z).frost && ((computedRegulator s).zones.get z).frost := by
  have hcalling := (passed_of_calling s .notices (by decide)).trans
    (callingBrought_keeps (orderTaken s) s.orders.next .notices (by decide))
  have hnotices := hcalling.trans (((handDemand_keeps _ _ _) .notices (by decide)).trans
    (takeInTurns_keeps [] (zonesComputed (orderTaken s)) .notices (by decide)))
  refine ((frostEvents_posts s.regulator.zones (computedRegulator s).zones (List.finRange 16)
    (setRegulator (computedRegulator s) (orderTaken s))).congr_notices rfl hnotices).congr fun z => ?_
  simp

/-! ## What a pass hands on (R94, R101) -/

/-- Driver and controller hold the pass's demand update, and the driver has formed its duties from it. -/
theorem passed_demand (s : State) :
    DutiesFormed (passDemand s) (passed s) ∧ (passed s).firing.demand = passDemand s := by
  obtain ⟨hformed, hdemand⟩ :=
    handDemand_taken (frostTaken s) s.orders.next.pass (passDemand s)
  have hbrought := callingBrought_keeps (orderTaken s) s.orders.next
  have hpassed := passed_of_calling s
  have hvalves := (hpassed .valves (by decide)).trans (hbrought .valves (by decide))
  refine ⟨hformed.congr ((hpassed .settings (by decide)).trans (hbrought .settings (by decide)))
    (congrArg Valves.demand hvalves) (congrArg Valves.channels hvalves), ?_⟩
  exact (congrArg Firing.demand ((hpassed .firing (by decide)).trans (hbrought .firing (by decide)))).trans hdemand

theorem passDemand_delivered (s : State) (z : Fin 16) :
    (passDemand s).delivered.get z = ((computedRegulator s).zones.get z).delivered := Tab.get_ofFn _ z

theorem passDemand_calling (s : State) (z : Fin 16) : (passDemand s).calling.getLsbD z.val =
    decide (0 < ((computedRegulator s).zones.get z).delivered) :=
  getLsbD_setOf (fun z => decide (0 < ((computedRegulator s).zones.get z).delivered)) z

/-- A nonzero duty is taken to the nearer end of a channel's range (R101). -/
theorem clampDuty_eq {lo hi d : Nat} (h : lo ≤ hi) :
    max lo (min hi d) = if d < lo then lo else if hi < d then hi else d := by
  split_ifs <;> omega

/-- Settles O32: the records go by the three ways of computing a zone, the events by the two goes in which the matrix takes
them, and the duties by the update that was handed on. -/
theorem passComputesEveryZone : Obligations.PassComputesEveryZone := by
  intro s hp
  have hzone : ∀ z, (passed s).regulator.zones.get z = ((computedRegulator s).zones.get z).recall := fun z => by
    rw [passed_regulator]
    exact Tab.get_ofFn _ z
  have hpriority : (passed s).regulator.priorityInForce = s.firing.priority.isSome := by
    rw [passed_regulator]
    rfl
  obtain ⟨⟨hdemand, hduties⟩, hcopied⟩ := passed_demand s
  refine ⟨passed s, exec_pass hp, passed_keeps s, ?_, ?_, hpriority, fun before after hrecords => ?_, fun z => ?_,
    fun z r hr => ?_, fun v c w hc hw => ?_⟩
  · rw [passed_regulator]
    rfl
  · rw [passed_regulator]
    rfl
  · obtain ⟨rfl, rfl⟩ : before = (fun z => s.regulator.zones.get z) ∧
        after = fun z => ((computedRegulator s).zones.get z).recall :=
      ⟨funext fun z => (hrecords z).1, funext fun z => (hrecords z).2.trans (hzone z)⟩
    exact ⟨(passed_frost s (.inl rfl)).congr_indices fun z => by simp [markShown, ZoneRecord.recall],
      (passed_frost s (.inr rfl)).congr_indices fun z => by simp [markShown, ZoneRecord.recall],
      (passed_calls s (.inl rfl)).congr_indices fun z => by simp [markShown, ZoneRecord.recall],
      (passed_calls s (.inr rfl)).congr_indices fun z => by simp [markShown, ZoneRecord.recall],
      passed_posts s⟩
  · rw [hdemand, hcopied, hzone, passDemand_delivered, passDemand_calling]
    exact ⟨rfl, rfl, rfl, rfl⟩
  · rw [passed_zone] at hr
    obtain ⟨hsetpoint, hstatus⟩ := compute_used (s.regulator.zones.get z) (s.settings.zones.get z) (i := zoneInput s z)
      s.firing.priority.isSome
    refine ⟨?_, fun hnone => ?_, fun sp hsp => ⟨?_, ?_, fun hinvalid => ?_⟩⟩
    · rw [hr]
      exact hstatus
    · rw [hr, compute_of_disabled _ _ _ hnone]
      exact ⟨rfl, rfl, rfl, rfl, rfl, rfl, rfl, rfl, rfl⟩
    · rw [hr]
      exact hsetpoint.trans hsp
    · rw [hpriority, hr]
      exact compute_delivered _ _ _
    · rw [hr, compute_of_unknown _ _ _ hsp (known_of_invalid hinvalid)]
      exact ⟨rfl, rfl, rfl, rfl, rfl, rfl, rfl, rfl⟩
  · have hduty : w.demandDuty = c.demandDuty (passDemand s) := by
      rw [hw, hduties v, hc, passed_keeps s .settings (by decide)]
    obtain ⟨hfree, hassigned⟩ := demandDuty_spec c (passDemand s)
    refine ⟨fun h => hduty.trans (hfree h), fun z d hz hd => ?_⟩
    have hdelivered : (passDemand s).delivered.get z = ((passed s).regulator.zones.get z).delivered := by
      rw [hzone, passDemand_delivered]
      rfl
    rw [← hdelivered] at hd
    rw [hduty, hassigned z d hz hd]
    exact ⟨fun h => if_pos h, fun h hrange => (if_neg h).trans (clampDuty_eq hrange)⟩

end Sys2Proof.Machine

namespace Sys2Proof.Machine

/-! ## What the ports, the table, the capture lines and the store leave as it is -/

/-- What a row leaves that reaches neither the clock, the regulator, the driver, the controller, the inputs nor the
settings, with power and the queue. -/
def State.plant (s : State) : Bool × Clock × Regulator × Valves × Firing × Inputs × Settings × List Instr :=
  (s.powered, s.clock, s.regulator, s.valves, s.firing, s.inputs, s.settings, s.pending)

/-- The parts that are no part of the plant. -/
def outerParts : List Part :=
  [.program, .overrides, .capture, .links, .notices, .store, .text, .wire, .handed, .answered, .orders, .raised]

theorem keeps_iff_plant (s t : State) : Keeps outerParts s t ↔ t.plant = s.plant := by
  rw [keeps_iff]
  simp [outerParts, State.plant]

theorem Keeps.plant {l : List Part} {s t : State} (h : Keeps l s t) (hl : ∀ part ∈ l, part ∈ outerParts) :
    t.plant = s.plant := (keeps_iff_plant s t).1 (h.mono hl)

/-- The rows of the ports, the override table, the capture lines, the auxiliary lines, the notices and the store. -/
def isOuter : Instr → Bool
  | .ident _ | .status _ | .zoneGet _ _ | .clockGet _ | .pointGet _ _ _ _ | .bankGet _ _ | .ovrList _ _
  | .captureGet _ _ | .regGet _ _ | .valveGet _ _ | .lineGet _ | .linkGet _ _ | .paramGet _ _ _ _ | .noticeRead _
  | .noticeMask _ _ | .lineSet _ _ | .lineClear _ _ | .lineToggle _ _ | .tempReport _ _ _ | .rawInputChange _ _ _
  | .acceptedEdge _ _ | .timeout _ | .captureSecond | .ovrSet _ _ _ _ _ _ | .ovrHold _ _ _ | .ovrRelease _ _
  | .bankSave _ _ | .configSave _ | .saveCompletion _ | .textCharacter _ _ | .textResponseSend | .textResponseSent
  | .writeTransfer _ _ | .readTransfer _ _ | .repeatedStart _ _ | .busError _ _ => true
  | _ => false

/-! ### Rows over their blocks -/

theorem withMatrix_plant (block : State → State) (s : State) :
    (withMatrix block s).plant = (block (nothingRaised s)).plant :=
  (eventsTaken_of_block s _).plant (by decide)

theorem command_plant {c : Instr} {p : Port} {block : State → State × Response} {s t : State}
    (h : command c p block s = .next t) (hb : ∀ u, (block u).1.plant = u.plant) : t.plant = s.plant := by
  rcases (command_eq_next_iff c p block s t).1 h with ⟨-, rfl⟩ | ⟨-, rfl⟩
  · exact ((deliver_keeps _ _ _ _).plant (by decide)).trans ((withMatrix_plant (fun u => (block u).1) s).trans (hb _))
  · rfl

theorem event_plant {block : State → State} {s t : State} (h : event block s = .next t)
    (hb : ∀ u, (block u).plant = u.plant) : t.plant = s.plant := by
  rcases (event_eq_next_iff block s t).1 h with ⟨-, rfl⟩ | ⟨-, rfl⟩
  · exact (withMatrix_plant block s).trans (hb _)
  · rfl

theorem foldl_plant {α : Type} {f : State → α → State} (h : ∀ s a, (f s a).plant = s.plant) (l : List α) (s : State) :
    (l.foldl f s).plant = s.plant := by
  induction l generalizing s with
  | nil => rfl
  | cons a l ih => exact (ih _).trans (h s a)

section
variable (s : State)

/-! ### The override table, the capture lines, the lines, the notices and the store -/

theorem writeSlot_plant (p : Port) (z : Fin 16) (sp : Option Int) (k : Kind) :
    (writeSlot p z sp k s).1.plant = s.plant := (writeSlot_keeps s p z sp k).plant (by decide)

theorem ovrSetBlock_plant (p : Port) (zone setpoint kind : Int) (endDay endMinute : Option Int) :
    (ovrSetBlock p zone setpoint kind endDay endMinute s).1.plant = s.plant := by
  unfold ovrSetBlock
  split
  · rfl
  · split_ifs
    · exact writeSlot_plant s _ _ _ _
    · exact writeSlot_plant s _ _ _ _
    · split
      · rfl
      · rfl
      · exact writeSlot_plant s _ _ _ _
    · rfl

theorem ovrHoldBlock_plant (p : Port) (zone : Int) (setpoint : Option Int) :
    (ovrHoldBlock p zone setpoint s).1.plant = s.plant := by
  unfold ovrHoldBlock
  split
  · rfl
  · exact writeSlot_plant s _ _ _ _

theorem ovrReleaseBlock_plant (p : Port) (zone : Int) : (ovrReleaseBlock p zone s).1.plant = s.plant := by
  unfold ovrReleaseBlock
  split
  · rfl
  · split
    · exact (postChangedBy_keeps _ _ _).plant (by decide)
    · rfl

theorem tempReportBlock_plant (zone value : Int) : (tempReportBlock zone value s).1.plant = s.plant := by
  unfold tempReportBlock
  split
  · rfl
  · split <;> rfl

theorem writeLines_plant (f : LineSet → LineSet → LineSet) (lines : Int) :
    (writeLines f lines s).1.plant = s.plant := by
  unfold writeLines
  split <;> rfl

theorem noticeMaskBlock_plant (p : Port) (mask : Int) : (noticeMaskBlock p mask s).1.plant = s.plant := by
  unfold noticeMaskBlock
  split <;> rfl

theorem bankSaveBlock_plant (p : Port) (bank : Int) : (bankSaveBlock p bank s).1.plant = s.plant := by
  unfold bankSaveBlock
  split
  · rfl
  · split <;> rfl

theorem configSaveBlock_plant (p : Port) : (configSaveBlock p s).1.plant = s.plant := by
  unfold configSaveBlock
  split <;> rfl

theorem saveCompletionBlock_plant (good : Bool) : (saveCompletionBlock good s).plant = s.plant := by
  unfold saveCompletionBlock
  split
  · rfl
  · exact (completeSave_keeps _ good s).plant (by decide)

/-! ### The ports -/

theorem completeLine_plant : (completeLine s).plant = s.plant := by
  have hline : (if s.text.blank then s else enqueue s.text.judge s).plant = s.plant := by
    split
    · rfl
    · unfold enqueue
      split
      · cases s.text.judge <;> rfl
      · rfl
  exact hline

theorem textCharacterBlock_plant (c : Byte) (framingError : Bool) :
    (textCharacterBlock c framingError s).plant = s.plant := by
  unfold textCharacterBlock
  split_ifs
  · rfl
  · rfl
  · exact completeLine_plant s
  · rfl
  · rfl

theorem textSendBlock_plant : (textSendBlock s).plant = s.plant := by
  unfold textSendBlock
  split <;> rfl

theorem textSentBlock_plant : (textSentBlock s).plant = s.plant := by
  unfold textSentBlock
  split <;> rfl

theorem bitTaken_plant (b : Bus) : (bitTaken b s).plant = s.plant := by
  have hbyte : ∀ role byte u, (takeByte role byte u).plant = u.plant := by
    intro role byte u
    unfold takeByte takeAddress
    split
    · split_ifs <;> rfl
    all_goals rfl
  unfold bitTaken takeBit
  split
  · rfl
  · split_ifs
    · rfl
    · rfl
    · exact hbyte _ _ _
    · rfl

theorem startSign_plant : (startSign s).plant = s.plant := by
  unfold startSign
  split
  · rfl
  · split <;> rfl

theorem judgeFrame_plant : (judgeFrame s).plant = s.plant := by
  unfold judgeFrame
  split
  · rfl
  · split_ifs
    · rfl
    · split <;> rfl
    · rfl

theorem stopSign_plant : (stopSign s).plant = s.plant := by
  unfold stopSign closeTransfer
  split
  · rfl
  · split
    · split
      · exact judgeFrame_plant s
      all_goals rfl
    · rfl

theorem takeLevels_plant (l : Levels) : (takeLevels l s).plant = s.plant := by
  unfold takeLevels
  dsimp only
  split_ifs
  · rfl
  · exact stopSign_plant _
  · exact startSign_plant _
  · exact bitTaken_plant _ _
  · rfl

theorem busEvent_plant {levels : List Levels} {s t : State} (h : busEvent levels s = .next t) : t.plant = s.plant := by
  unfold busEvent at h
  split at h <;> cases h
  · exact (withMatrix_plant _ s).trans (foldl_plant takeLevels_plant levels _)
  · exact foldl_plant (f := fun s l => modWire (setLevels l) s) (fun _ _ => rfl) levels s

end

/-- An outer row leaves the plant as it is. -/
theorem exec_plant {i : Instr} {s t : State} (hi : isOuter i = true) (h : exec i s = .next t) : t.plant = s.plant := by
  cases i with
  | ident | status | zoneGet | clockGet | pointGet | bankGet | ovrList | captureGet | regGet | valveGet | lineGet
  | linkGet | paramGet | noticeRead =>
    exact command_plant h fun _ => rfl
  | noticeMask p mask => exact command_plant h fun u => noticeMaskBlock_plant u p mask
  | lineSet p lines | lineClear p lines | lineToggle p lines =>
    exact command_plant h fun u => writeLines_plant u _ lines
  | tempReport p zone value => exact command_plant h fun u => tempReportBlock_plant u zone value
  | rawInputChange ch level elapsed =>
    replace h : (if s.powered then event (rawInputBlock ch level elapsed) s else .next (setRaw ch level s)) = .next t :=
      h
    split at h
    · exact event_plant h fun _ => rfl
    · cases h
      rfl
  | acceptedEdge | timeout | captureSecond => exact event_plant h fun _ => rfl
  | ovrSet p zone setpoint kind endDay endMinute =>
    exact command_plant h fun u => ovrSetBlock_plant u p zone setpoint kind endDay endMinute
  | ovrHold p zone setpoint => exact command_plant h fun u => ovrHoldBlock_plant u p zone setpoint
  | ovrRelease p zone => exact command_plant h fun u => ovrReleaseBlock_plant u p zone
  | bankSave p bank => exact command_plant h fun u => bankSaveBlock_plant u p bank
  | configSave p => exact command_plant h fun u => configSaveBlock_plant u p
  | saveCompletion good => exact event_plant h fun u => saveCompletionBlock_plant u good
  | textCharacter c framingError => exact event_plant h fun u => textCharacterBlock_plant u c framingError
  | textResponseSend => exact event_plant h textSendBlock_plant
  | textResponseSent => exact event_plant h textSentBlock_plant
  | writeTransfer | readTransfer | repeatedStart | busError => exact busEvent_plant h
  | _ => cases hi

end Sys2Proof.Machine

namespace Sys2Proof.Machine

/-! ## What the valve driver's invariants look at (R94, R102, R111, R118) -/

/-- The controller's copies of the demand update and of the flow-path report (R118). -/
def Firing.copies (f : Firing) : Demand × PathReport := (f.demand, f.report)

/-- The valve channels' settings, the driver's record apart from the latest hold set, and the controller's copies. -/
def State.driver (s : State) :
    Tab 16 ValveSettings × Tab 16 ValveChannel × Demand × PathReport × Demand × PathReport :=
  (s.settings.valves, s.valves.channels, s.valves.demand, s.valves.report, s.firing.copies)

theorem driver_eq_iff {s t : State} : t.driver = s.driver ↔
    t.settings.valves = s.settings.valves ∧ OnlyHoldWritten s.valves t.valves ∧ t.firing.copies = s.firing.copies := by
  simp [State.driver, OnlyHoldWritten, and_assoc]

theorem Keeps.driver {l : List Part} {s t : State} (h : Keeps l s t)
    (hl : ∀ part ∈ [Part.settings, .valves, .firing], part ∉ l) : t.driver = s.driver := by
  have hsettings : t.settings = s.settings := h .settings (hl _ (by decide))
  have hvalves : t.valves = s.valves := h .valves (hl _ (by decide))
  have hfiring : t.firing = s.firing := h .firing (hl _ (by decide))
  simp only [State.driver, hsettings, hvalves, hfiring]

theorem ReachesPosting.driver {s t : State} (h : ReachesPosting s t) (hcopies : t.firing.copies = s.firing.copies) :
    t.driver = s.driver :=
  driver_eq_iff.2 ⟨congrArg Settings.valves (h.1 .settings (by decide)), h.2, hcopies⟩

theorem Reaches.driver {s t : State} (h : Reaches s t) (hcopies : t.firing.copies = s.firing.copies) :
    t.driver = s.driver := h.posting.driver hcopies

theorem driver_of_plant {s t : State} (h : t.plant = s.plant) : t.driver = s.driver :=
  ((keeps_iff_plant s t).2 h).driver (by decide)

theorem foldl_driver {α : Type} {f : State → α → State} (h : ∀ s a, (f s a).driver = s.driver) (l : List α)
    (s : State) : (l.foldl f s).driver = s.driver := by
  induction l generalizing s with
  | nil => rfl
  | cons a l ih => exact (ih _).trans (h s a)

/-! ## Passages of the controller leave its copies -/

theorem memory_copies {f g : Firing} (h : f.memory = g.memory) : f.copies = g.copies := by
  simp only [Firing.memory, Prod.mk.injEq] at h
  obtain ⟨-, -, -, -, hdemand, hreport⟩ := h
  simp only [Firing.copies, hdemand, hreport]

theorem Settling.copies {s t : State} (h : Settling s t) : t.firing.copies = s.firing.copies := memory_copies h.memory

section
variable (s : State)

theorem settle_driver : (settle s).driver = s.driver := (settle_reaches s).driver (memory_copies (settle_memory s))

theorem modFiring_driver {f : Firing → Firing} (h : (f s.firing).copies = s.firing.copies) :
    (modFiring f s).driver = s.driver := (modFiring_reaches f s).driver h

theorem select_driver : (select s).driver = s.driver := (select_reaches s).driver (select_settling s).copies

theorem setPump_driver (on : Bool) : (setPump on s).driver = s.driver :=
  (setPump_reaches on s).driver (setPump_settling s on).copies

theorem releaseHold_driver : (releaseHold s).driver = s.driver :=
  (releaseHold_reaches s).driver (releaseHold_settling s).copies

theorem releaseAnyHold_driver : (releaseAnyHold s).driver = s.driver :=
  (releaseAnyHold_reaches s).driver (releaseAnyHold_settling s).copies

theorem fixHold_driver : (fixHold s).driver = s.driver := (fixHold_reaches s).driver (fixHold_settling s).copies

theorem leaveFiring_driver : (leaveFiring s).driver = s.driver :=
  (leaveFiring_reaches s).driver (memory_copies (leaveFiring_memory s))

theorem endOverrun_driver : (endOverrun s).driver = s.driver :=
  (endOverrun_reaches s).driver (endOverrun_settling s).copies

theorem formFlow_driver : (formFlow s).driver = s.driver := (formFlow_reaches s).driver (formFlow_settling s).copies

theorem formHeating_driver : (formHeating s).driver = s.driver :=
  (formHeating_reaches s).driver (formHeating_settling s).copies

theorem startCall_driver : (startCall s).driver = s.driver := (startCall_reaches s).driver (startCall_settling s).copies

theorem endCall_driver : (endCall s).driver = s.driver := (endCall_reaches s).driver (endCall_settling s).copies

theorem deriveCall_driver : (deriveCall s).driver = s.driver := by
  unfold deriveCall
  split
  · exact (settle_driver _).trans (startCall_driver s)
  · split
    · exact (settle_driver _).trans (endCall_driver s)
    · rfl

theorem setTimedCall_driver (n : Nat) : (setTimedCall n s).driver = s.driver :=
  (deriveCall_driver _).trans (modFiring_driver s rfl)

theorem endPriority_driver : (endPriority s).driver = s.driver := (formFlow_driver _).trans (modFiring_driver s rfl)

theorem takeSchedule_driver (on : Bool) : (takeSchedule on s).driver = s.driver := by
  unfold takeSchedule
  split
  · rfl
  · exact (deriveCall_driver _).trans (modFiring_driver s rfl)

theorem holdForLockout_driver : (holdForLockout s).driver = s.driver := by
  unfold holdForLockout
  split
  · exact fixHold_driver s
  · exact releaseAnyHold_driver s

theorem enterLockout_driver (reason : LockoutReason) : (enterLockout reason s).driver = s.driver := by
  have hleft : (firingLeft s).driver = s.driver := by
    unfold firingLeft
    split
    · exact leaveFiring_driver s
    · rfl
  have hentered : ∀ u, (lockoutEntered reason u).driver = u.driver := fun _ => rfl
  have hposted : ∀ u, (postBoth .lockout (raise .lockoutOn u)).driver = u.driver := fun _ => rfl
  rw [enterLockout_eq]
  exact (hposted _).trans
    ((holdForLockout_driver _).trans ((setPump_driver _ _).trans ((hentered _).trans hleft)))

theorem lockOut_driver (reason : LockoutReason) : (lockOut reason s).driver = s.driver := by
  unfold lockOut
  split
  · split
    · rfl
    · split <;> rfl
  · exact enterLockout_driver s reason

theorem testHighLimit_driver : (testHighLimit s).driver = s.driver := by
  unfold testHighLimit
  split
  · exact lockOut_driver s _
  · rfl

theorem takePublication_driver : (takePublication s).driver = s.driver := by
  have hpublished : ∀ u, (lockoutPublication u).driver = u.driver := by
    intro u
    rw [lockoutPublication_eq]
    split
    · exact (releaseHold_driver _).trans (setPump_driver (peakFollowed u) false)
    · rfl
  unfold takePublication
  dsimp only
  split
  · exact (hpublished _).trans (testHighLimit_driver _)
  · split
    · exact lockOut_driver _ _
    · exact settle_driver _

/-! ## Blocks that leave the driver as it is -/

/-- A block that acts in one case alone leaves the driver where its action does. -/
theorem ite_driver {c : Prop} [Decidable c] {s t : State} (h : t.driver = s.driver) :
    (if c then t else s).driver = s.driver := by
  split
  · exact h
  · rfl

theorem handOn_driver : (handOn s).driver = s.driver := takeSchedule_driver _ _

theorem expire_driver (p : Slot → Bool) : (expire p s).driver = s.driver := (expire_keeps p s).driver (by decide)

theorem silently_driver (q : Fin 17 → Bool) : (silently q s).driver = s.driver := by
  rw [silently_eq]
  exact handOn_driver _

theorem takeInTurns_driver (turns : List Nat) : (takeInTurns turns s).driver = s.driver :=
  (takeInTurns_keeps turns s).driver (by decide)

theorem changeBank_driver (order : Order) (cause : Option Port) (b : Fin 4) :
    (changeBank order cause b s).driver = s.driver := by
  unfold changeBank
  split
  · rfl
  · refine (takeInTurns_driver _ _).trans ((expire_driver _ _).trans ((silently_driver _ _).trans ?_))
    cases cause <;> rfl

theorem cross_driver (order : Order) (crossed : Fin 17 → Bool) (next : Fin 17 → Option Entry) :
    (cross order crossed next s).driver = s.driver :=
  (takeInTurns_driver _ _).trans (((crossZones_keeps _ _).driver (by decide)).trans (handOn_driver _))

theorem evaluateMinute_driver (order : Order) (d m : Nat) : (evaluateMinute order d m s).driver = s.driver :=
  cross_driver _ _ _ _

theorem storeMinute_driver (order : Order) (d m : Nat) : (storeMinute order d m s).driver = s.driver := by
  have hrecord : (setTimed none s).driver = s.driver := rfl
  rcases storeMinute_cases order d m s with ⟨-, h⟩ | ⟨r, -, -, ⟨-, h⟩ | ⟨-, h⟩⟩ <;> rw [h]
  · exact evaluateMinute_driver _ _ _ _
  · exact (evaluateMinute_driver (setTimed none s) _ _ _).trans hrecord
  · exact (changeBank_driver (setTimed none s) _ _ _).trans hrecord

theorem secondBoundaryBlock_driver : (secondBoundaryBlock s).driver = s.driver := by
  have hminute : ∀ order u, (minuteEvent order u).driver = u.driver := fun order u =>
    ((countDown_keeps _).driver (by decide)).trans (storeMinute_driver u _ _ _)
  unfold secondBoundaryBlock
  dsimp only
  split_ifs
  · exact hminute _ _
  · exact hminute _ _
  · rfl
  · rfl

theorem evaluateJump_driver (order : Order) (d m : Nat) : (evaluateJump order d m s).driver = s.driver :=
  cross_driver _ _ _ _

theorem clockSetBlock_driver (p : Port) (day minute second : Int) :
    (clockSetBlock p day minute second s).1.driver = s.driver := by
  unfold clockSetBlock
  split
  · have hjump : ∀ d m u, (withOrder (fun o s => evaluateJump o d m s) u).driver = u.driver := fun d m u =>
      evaluateJump_driver _ _ _ _
    exact ((jumpSlots_keeps _ _ _).driver (by decide)).trans (hjump _ _ _)
  · rfl

theorem bankTaken_driver (p : Port) (b : Fin 4) (record : Option Timed) :
    (bankTaken p b record s).driver = s.driver := changeBank_driver _ _ _ _

theorem bankSelectBlock_driver (p : Port) (bank : Int) : (bankSelectBlock p bank s).1.driver = s.driver := by
  unfold bankSelectBlock
  split
  · exact bankTaken_driver s _ _ none
  · rfl

theorem bankTimedBlock_driver (p : Port) (bank days endMinute : Int) :
    (bankTimedBlock p bank days endMinute s).1.driver = s.driver := by
  unfold bankTimedBlock
  split
  · next b m _ _ =>
    split_ifs
    · rfl
    · rfl
    · exact bankTaken_driver s p b (some ⟨b, s.program.active, days.toNat, m⟩)
  · rfl

theorem bankCancelBlock_driver (p : Port) : (bankCancelBlock p s).1.driver = s.driver := by
  unfold bankCancelBlock
  split
  · exact bankTaken_driver s _ _ none
  · rfl

theorem bankPut_driver (p : Port) (b : Fin 4) (bank : Bank) (q : Fin 17 → Bool) :
    (bankPut p b bank q s).driver = s.driver := by
  unfold bankPut afterEdit
  split
  · exact silently_driver _ _
  · rfl

theorem pointAddBlock_driver (p : Port) (bank list days start target : Int) (revision : Option Int) :
    (pointAddBlock p bank list days start target revision s).1.driver = s.driver := by
  unfold pointAddBlock addPoint
  split
  · split
    · split_ifs
      · rfl
      · rfl
      · rfl
      · exact bankPut_driver s _ _ _ _
    · rfl
  · rfl

theorem pointDelBlock_driver (p : Port) (bank list days start : Int) (revision : Option Int) :
    (pointDelBlock p bank list days start revision s).1.driver = s.driver := by
  unfold pointDelBlock removePoint
  split
  · split_ifs
    · rfl
    · exact bankPut_driver s _ _ _ _
    · rfl
  · rfl

theorem listClearBlock_driver (p : Port) (bank list : Int) (revision : Option Int) :
    (listClearBlock p bank list revision s).1.driver = s.driver := by
  unfold listClearBlock
  split
  · split_ifs
    · rfl
    · exact bankPut_driver s _ _ _ _
  · rfl

theorem bankCopyBlock_driver (p : Port) (source destination : Int) (revision : Option Int) :
    (bankCopyBlock p source destination revision s).1.driver = s.driver := by
  unfold bankCopyBlock
  split
  · split_ifs
    · rfl
    · rfl
    · exact bankPut_driver s _ _ _ _
  · rfl

theorem bankLoadBlock_driver (p : Port) (bank : Int) : (bankLoadBlock p bank s).1.driver = s.driver := by
  unfold bankLoadBlock
  split
  · rfl
  · split_ifs
    · rfl
    · exact bankPut_driver s _ _ _ _
    · rfl

theorem expireWindow_driver (order : Order) : (expireWindow order s).driver = s.driver :=
  (takePublication_driver _).trans ((lossesTaken_keeps order s).driver (by decide))

theorem inhibitBlock_driver (p : Port) (value : Int) : (inhibitBlock p value s).1.driver = s.driver := by
  unfold inhibitBlock
  split
  · refine (settle_driver _).trans ?_
    cases p <;> rfl
  · rfl

theorem endLockout_driver (p : Port) : (endLockout p s).driver = s.driver := by
  have hended : ∀ u, (modFiring (fun f => { f with state := .idle })
      (raise .lockoutOff (modFiring (fun f => { f with lockout := none }) u))).driver = u.driver := fun _ => rfl
  have hposted : ∀ u, (post p.other .lockout u).driver = u.driver := fun u => (post_keeps _ _ u).driver (by decide)
  exact (select_driver _).trans
    ((hposted _).trans ((hended _).trans ((releaseAnyHold_driver _).trans (setPump_driver s false))))

theorem lockoutClearBlock_driver (p : Port) : (lockoutClearBlock p s).1.driver = s.driver := by
  unfold lockoutClearBlock
  split
  · split
    · split
      · exact endLockout_driver s p
      · rfl
    · exact endLockout_driver s p
  · rfl

theorem dhwBoostBlock_driver (minutes : Int) : (dhwBoostBlock minutes s).1.driver = s.driver := by
  unfold dhwBoostBlock
  split_ifs
  · rfl
  · exact setTimedCall_driver _ _
  · rfl

theorem requestBlock_driver (asserted : Bool) : (requestBlock asserted s).driver = s.driver := by
  unfold requestBlock
  split
  · exact setTimedCall_driver _ _
  · exact deriveCall_driver _

theorem onEdge_driver {block : State → State} (h : ∀ u, (block u).driver = u.driver) (old new : Bool) :
    (onEdge old new block s).driver = s.driver := by
  unfold onEdge
  split
  · rfl
  · exact h s

end
end Sys2Proof.Machine

namespace Sys2Proof.Machine

/-! ## What an operation on a valve channel keeps (R99, R102 to R108) -/

/-- What `ChannelKept` asks of a channel beside its state: the cycle, the drive line, h, and rest in FAULT. -/
structure CycleKept (v : ValveChannel) : Prop where
  running : v.running = decide (0 < v.outputDuty)
  stopped : v.running = false → v.cycleTime = 0 ∧ v.appliedDuty = 0 ∧ v.drive = false
  fault : v.state = .fault → v.outputDuty = 0 ∧ v.position = 0 ∧ v.confirmTimer = none
  travel : v.position ≤ 60000

/-- Output duty and demand duty as R102 has them. -/
structure DutyRule (c : ValveSettings) (v : ValveChannel) : Prop where
  output : v.outputDuty = v.dutyNow c
  demand : DutyAllowed c v.demandDuty

/-- One channel goes from u to w as its rules allow: what the invariants say of it stays. -/
structure ChannelStep (c : ValveSettings) (u w : ValveChannel) : Prop where
  channel : ChannelKept u → ChannelKept w
  duty : DutyRule c u → DutyRule c w

section
variable {c : ValveSettings} {u v w : ValveChannel}

theorem ChannelStep.refl (c : ValveSettings) (v : ValveChannel) : ChannelStep c v v := ⟨id, id⟩

theorem ChannelStep.trans (h : ChannelStep c u v) (k : ChannelStep c v w) : ChannelStep c u w :=
  ⟨k.channel ∘ h.channel, k.duty ∘ h.duty⟩

theorem ChannelKept.cycle (h : ChannelKept v) : CycleKept v := ⟨h.running, h.stopped, h.fault, h.travel⟩

/-- A driven channel is not in FAULT. -/
theorem CycleKept.ne_fault (h : CycleKept v) (hduty : 0 < v.outputDuty) : v.state ≠ .fault := by
  intro hfault
  have := (h.fault hfault).1
  omega

theorem dutyAllowed_le (hrange : ValveInRange c) {d : Nat} (h : DutyAllowed c d) : d ≤ 63 := by
  have hstep := hrange.step
  have hduty := hrange.duty
  unfold DutyAllowed at h
  omega

/-- The hold duty is a duty that the channel allows. -/
theorem dutyAllowed_max (hrange : ValveInRange c) {d : Nat} (h : DutyAllowed c d) (held : Bool) :
    DutyAllowed c (max d (if held then c.maxDuty else 0)) := by
  have hstep := hrange.step
  unfold DutyAllowed at h ⊢
  cases held <;> simp only [Bool.false_eq_true, if_false, if_true] <;> omega

/-- Under settings in range R102's sentence is what `DutyRule` says. -/
theorem dutyKept_iff (hrange : ValveInRange c) : DutyKept c v ↔ DutyRule c v := by
  constructor
  · intro h
    exact ⟨h.output, h.demandAllowed⟩
  · intro h
    have houtput : v.outputDuty = if v.state = .fault then 0 else max v.demandDuty (if v.hold then c.maxDuty else 0) :=
      h.output
    have hallowed : DutyAllowed c v.outputDuty := by
      rw [houtput]
      split
      · exact .inl rfl
      · exact dutyAllowed_max hrange h.demand _
    exact ⟨houtput, h.demand, hallowed, dutyAllowed_le hrange h.demand, dutyAllowed_le hrange hallowed⟩

/-- The rule of the duties looks at the duties, the hold flag and FAULT alone. -/
theorem DutyRule.congr (h : DutyRule c v) (hdemand : w.demandDuty = v.demandDuty) (hhold : w.hold = v.hold)
    (houtput : w.outputDuty = v.outputDuty) (hfault : w.state = .fault ↔ v.state = .fault) : DutyRule c w where
  output := by
    have := h.output
    simp only [ValveChannel.dutyNow, ValveChannel.holdDuty] at this ⊢
    simp only [houtput, hdemand, hhold, hfault, this]
  demand := hdemand ▸ h.demand

theorem derive_dutyRule (h : DutyRule c v) (d : ValveSettings) : DutyRule c (v.derive d) := by
  have hduty := derive_duty v d
  simp only [ValveChannel.duty, Prod.mk.injEq] at hduty
  obtain ⟨hdemand, hhold, houtput, -⟩ := hduty
  exact h.congr hdemand hhold houtput (derive_fault_iff v d)

/-! ### Cycle, state and h -/

theorem undriven_cases (h : Nat) : undriven h = .closed ∨ undriven h = .closing := by
  unfold undriven
  split
  · exact .inl rfl
  · exact .inr rfl

/-- A kept channel that is OPENING or OPEN is driven (R105, R106). -/
theorem ChannelKept.driven_of_state (h : ChannelKept v) (hstate : v.state = .opening ∨ v.state = .opened) :
    0 < v.outputDuty := by
  by_contra hzero
  have hundriven := h.undriven (by rcases hstate with hs | hs <;> simp [hs]) (by omega)
  rcases undriven_cases v.position with hp | hp <;> rw [hp] at hundriven <;> rw [hundriven] at hstate <;>
    simp at hstate

/-- The derivation of the state makes a kept channel of one whose cycle and h are kept (R105, R106). -/
theorem derive_kept (h : CycleKept v) (c : ValveSettings) : ChannelKept (v.derive c) := by
  have hduty := derive_duty v c
  simp only [ValveChannel.duty, Prod.mk.injEq] at hduty
  obtain ⟨-, -, houtput, hrunning, htime, happlied, hdrive, -⟩ := hduty
  obtain ⟨-, hfault, hundriven, htimer, hswitch⟩ := derive_spec v c
  have htravel := h.travel
  refine ⟨?_, ?_, ?_, ?_, ?_, ?_⟩
  · rw [hrunning, houtput]
    exact h.running
  · rw [hrunning, htime, happlied, hdrive]
    exact h.stopped
  · intro hstate
    have hbefore := (derive_fault_iff v c).1 hstate
    rw [hfault hbefore]
    exact h.fault hbefore
  · intro hstate hzero
    have hbefore := mt (derive_fault_iff v c).2 hstate
    rw [hundriven hbefore (houtput.symm.trans hzero)]
    rfl
  · intro hpos
    rw [houtput] at hpos
    have hbefore := h.ne_fault hpos
    cases hc : c.confirm with
    | timer =>
      rw [htimer hbefore hpos hc]
      dsimp only
      split
      · exact .inr rfl
      · exact .inl rfl
    | switch =>
      rw [derive_of_switch v c hbefore hpos hc]
      split
      · exact .inr rfl
      · exact .inl rfl
  · by_cases hbefore : v.state = .fault
    · rw [hfault hbefore]
      exact htravel
    · rcases Nat.eq_zero_or_pos v.outputDuty with hzero | hpos
      · rw [hundriven hbefore hzero]
        exact htravel
      · cases hc : c.confirm with
        | timer =>
          rw [htimer hbefore hpos hc]
          exact htravel
        | switch =>
          rw [derive_of_switch v c hbefore hpos hc]
          split
          · exact le_rfl
          · exact htravel

theorem drivenAt_of_start (h : v.outputDuty = 0) {d : Nat} (hd : 0 < d) : v.drivenAt c d = { v.startCycle d with
    outputDuty := d, position := if c.openTime = 0 then Config.fullTravel else v.position } := if_pos ⟨h, hd⟩

theorem drivenAt_of_stop (h : 0 < v.outputDuty) : v.drivenAt c 0 = { v.stopCycle with
    outputDuty := 0, position := if c.closeTime = 0 then 0 else v.position } := by
  rw [ValveChannel.drivenAt, if_neg (by omega), if_pos ⟨h, rfl⟩]

theorem drivenAt_of_same {d : Nat} (h : 0 < v.outputDuty ↔ 0 < d) : v.drivenAt c d = { v with outputDuty := d } := by
  rw [ValveChannel.drivenAt, if_neg (by omega), if_neg (by omega)]

/-- A change of output duty keeps cycle and h; a channel in FAULT takes the output duty 0 alone. -/
theorem drivenAt_cycleKept (h : CycleKept v) (c : ValveSettings) {d : Nat} (hd : v.state = .fault → d = 0) :
    CycleKept (v.drivenAt c d) := by
  have hrunning := h.running
  have hstopped := h.stopped
  have hfault := h.fault
  have htravel := h.travel
  rcases Nat.eq_zero_or_pos v.outputDuty with hzero | hpos
  · rcases Nat.eq_zero_or_pos d with rfl | hstart
    · rw [drivenAt_of_same (by omega)]
      exact ⟨by simpa [hzero] using hrunning, hstopped, fun hs => ⟨rfl, (hfault hs).2⟩, htravel⟩
    · rw [drivenAt_of_start hzero hstart]
      refine ⟨(decide_eq_true hstart).symm, nofun, fun hs => absurd (hd hs) (by omega), ?_⟩
      dsimp only
      split
      · exact le_rfl
      · exact htravel
  · have hne : v.state ≠ .fault := h.ne_fault hpos
    rcases Nat.eq_zero_or_pos d with rfl | hstays
    · rw [drivenAt_of_stop hpos]
      refine ⟨rfl, fun _ => ⟨rfl, rfl, rfl⟩, fun hs => absurd hs hne, ?_⟩
      dsimp only
      split
      · exact Nat.zero_le _
      · exact htravel
    · rw [drivenAt_of_same (by omega)]
      refine ⟨?_, hstopped, fun hs => absurd hs hne, htravel⟩
      rw [hrunning, decide_eq_true hpos, decide_eq_true hstays]

theorem dutyNow_congr (hdemand : w.demandDuty = v.demandDuty) (hhold : w.hold = v.hold) (hstate : w.state = v.state) :
    w.dutyNow c = v.dutyNow c := by
  simp only [ValveChannel.dutyNow, ValveChannel.holdDuty, hdemand, hhold, hstate]

theorem dutyNow_of_fault (h : v.state = .fault) : v.dutyNow c = 0 := if_pos h

theorem redrive_kept (h : CycleKept v) (c : ValveSettings) : ChannelKept (v.redrive c) :=
  derive_kept (drivenAt_cycleKept h c dutyNow_of_fault) c

/-- The output duty formed again follows its rule, whatever it was. -/
theorem redrive_dutyRule (h : DutyAllowed c v.demandDuty) : DutyRule c (v.redrive c) := by
  obtain ⟨hdemand, hhold, -, hstate, houtput⟩ := drivenAt_frame v c (v.dutyNow c)
  exact derive_dutyRule ⟨houtput.trans (dutyNow_congr hdemand hhold hstate).symm, hdemand ▸ h⟩ c

theorem step_frame : (v.step c).duty = v.duty ∧ (v.step c).state = v.state ∧
    (v.step c).confirmTimer = v.confirmTimer := by
  unfold ValveChannel.step
  split <;> exact ⟨rfl, rfl, rfl⟩

theorem step_of_fault (h : v.state = .fault) : v.step c = v := if_pos h

theorem step_travel (h : v.position ≤ 60000) : (v.step c).position ≤ 60000 := by
  have hfull : Config.fullTravel = 60000 := rfl
  unfold ValveChannel.step
  split
  · exact h
  · dsimp only
    split_ifs <;> omega

theorem step_cycleKept (h : CycleKept v) (c : ValveSettings) : CycleKept (v.step c) := by
  by_cases hfault : v.state = .fault
  · rwa [step_of_fault hfault]
  · obtain ⟨hduty, hstate, htimer⟩ := step_frame (v := v) (c := c)
    simp only [ValveChannel.duty, Prod.mk.injEq] at hduty
    obtain ⟨-, -, houtput, hrunning, htime, happlied, hdrive, -⟩ := hduty
    refine ⟨?_, ?_, fun hs => absurd (hstate ▸ hs) hfault, step_travel h.travel⟩
    · rw [hrunning, houtput]
      exact h.running
    · rw [hrunning, htime, happlied, hdrive]
      exact h.stopped

/-! ### The operations of the driver -/

theorem enterFault_step (c : ValveSettings) (v : ValveChannel) : ChannelStep c v v.enterFault where
  channel _ := ⟨rfl, fun _ => ⟨rfl, rfl, rfl⟩, fun _ => ⟨rfl, rfl, rfl⟩, fun h => absurd rfl h, nofun, Nat.zero_le _⟩
  duty h := ⟨rfl, h.demand⟩

theorem advanceConfirm_step (c : ValveSettings) (v before : ValveChannel) :
    ChannelStep c v (v.advanceConfirm before) := by
  unfold ValveChannel.advanceConfirm
  split
  · next n _ htimer =>
    split
    · exact enterFault_step c v
    · refine ⟨fun h => ⟨h.running, h.stopped, fun hs => ?_, h.undriven, h.driven, h.travel⟩,
        fun h => h.congr rfl rfl rfl Iff.rfl⟩
      obtain ⟨-, -, hnone⟩ := h.fault hs
      rw [htimer] at hnone
      cases hnone
  · exact .refl c v

/-- The state derived after the position has moved (R104 to R106). -/
theorem derive_step (c d : ValveSettings) (v : ValveChannel) : ChannelStep c v (v.derive d) :=
  ⟨fun h => derive_kept h.cycle d, fun h => derive_dutyRule h d⟩

theorem stepped_step (c : ValveSettings) (v : ValveChannel) : ChannelStep c v ((v.step c).derive c) := by
  obtain ⟨hduty, hstate, -⟩ := step_frame (v := v) (c := c)
  simp only [ValveChannel.duty, Prod.mk.injEq] at hduty
  obtain ⟨hdemand, hhold, houtput, -⟩ := hduty
  exact ⟨fun h => derive_kept (step_cycleKept h.cycle c) c,
    fun h => derive_dutyRule (h.congr hdemand hhold houtput (by rw [hstate])) c⟩

/-- The hold flag written, the output duty formed again. -/
theorem held_step (c : ValveSettings) (v : ValveChannel) (held : Bool) :
    ChannelStep c v ({ v with hold := held }.redrive c) :=
  ⟨fun h => redrive_kept (v := { v with hold := held }) ⟨h.running, h.stopped, h.fault, h.travel⟩ c,
    fun h => redrive_dutyRule (v := { v with hold := held }) h.demand⟩

theorem update_step (c : ValveSettings) (v : ValveChannel) (held : Bool) : ChannelStep c v (v.update c held) :=
  ((held_step c v held).trans (stepped_step c _)).trans (advanceConfirm_step c _ v)

/-- A confirmed channel was OPENING, so it is driven (R106). -/
theorem confirmOpen_step (c : ValveSettings) (hstate : v.state = .opening) : ChannelStep c v v.confirmOpen where
  channel h := by
    have hdriven := h.driven_of_state (.inl hstate)
    exact ⟨h.running, h.stopped, nofun, fun _ hzero => absurd (show v.outputDuty = 0 from hzero) (by omega),
      fun _ => .inr rfl, le_rfl⟩
  duty h := h.congr rfl rfl rfl (by simp [ValveChannel.confirmOpen, hstate])

theorem cleared_step (c : ValveSettings) (v : ValveChannel) : ChannelStep c v (v.cleared c) where
  channel h := redrive_kept (v := { v with state := .closed, position := 0, confirmTimer := none })
    ⟨h.running, h.stopped, nofun, Nat.zero_le _⟩ c
  duty h := redrive_dutyRule (v := { v with state := .closed, position := 0, confirmTimer := none }) h.demand

theorem cycleStart_step (c : ValveSettings) (v : ValveChannel) :
    ChannelStep c v (if v.running then v.startCycle v.outputDuty else v) := by
  split
  · next hrunning =>
    exact ⟨fun h => ⟨hrunning.symm.trans h.running, nofun, h.fault, h.undriven, h.driven, h.travel⟩,
      fun h => h.congr rfl rfl rfl Iff.rfl⟩
  · exact .refl c v

/-- While the cycle runs its time and the drive line may take any value. -/
theorem running_step (c : ValveSettings) (hrunning : v.running = true) (time : Nat) (drive : Bool) :
    ChannelStep c v { v with cycleTime := time, drive := drive } :=
  ⟨fun h => ⟨h.running, fun hs => absurd (hrunning.symm.trans hs) (by decide), h.fault, h.undriven, h.driven, h.travel⟩,
    fun h => h.congr rfl rfl rfl Iff.rfl⟩

theorem endSwitch_step (c : ValveSettings) (v : ValveChannel) (closed : Bool) :
    ChannelStep c v { v with endSwitch := closed } :=
  ⟨fun h => ⟨h.running, h.stopped, h.fault, h.undriven, h.driven, h.travel⟩, fun h => h.congr rfl rfl rfl Iff.rfl⟩

theorem restart_step (c : ValveSettings) (v : ValveChannel) : ChannelStep c v v.restart := by
  by_cases hfault : v.state = .fault
  · rw [restart_of_fault hfault]
    refine ⟨fun h => ⟨h.running, h.stopped, h.fault, h.undriven, h.driven, h.travel⟩, fun h => ⟨?_, .inl rfl⟩⟩
    have hduty := h.output
    rw [dutyNow_of_fault hfault] at hduty
    rw [dutyNow_of_fault (show ({ v with demandDuty := 0, hold := false } : ValveChannel).state = .fault from hfault)]
    exact hduty
  · rw [restart_of_not_fault hfault]
    refine ⟨fun h => ⟨rfl, fun _ => ⟨rfl, rfl, rfl⟩, fun hs => absurd hs (undriven_ne_fault _), fun _ _ => rfl, nofun,
      h.travel⟩, fun h => ⟨?_, .inl rfl⟩⟩
    simp [ValveChannel.dutyNow, ValveChannel.holdDuty]

/-! ### Rewritten settings (R100, R101) -/

/-- A zone's demand gives a duty that the channel allows (R101). -/
theorem demandDuty_allowed (hrange : ValveInRange c) (d : Demand) : DutyAllowed c (c.demandDuty d) := by
  have hstep := hrange.step
  obtain ⟨hfree, hassigned⟩ := demandDuty_spec c d
  unfold DutyAllowed
  cases hz : c.zone with
  | none => exact .inl (hfree hz)
  | some z =>
    rw [hassigned z _ hz rfl]
    split
    · exact .inl rfl
    · exact .inr (by omega)

theorem recompute_kept (h : CycleKept v) (c : ValveSettings) (d : Demand) : ChannelKept (v.recompute c d) :=
  redrive_kept (v := { v with demandDuty := c.demandDuty d }) ⟨h.running, h.stopped, h.fault, h.travel⟩ c

theorem recompute_dutyRule (hrange : ValveInRange c) (v : ValveChannel) (d : Demand) :
    DutyRule c (v.recompute c d) :=
  redrive_dutyRule (v := { v with demandDuty := c.demandDuty d }) (demandDuty_allowed hrange d)

theorem openAtOnce_step (c d : ValveSettings) (v : ValveChannel) : ChannelStep c v (v.openAtOnce d) := by
  unfold ValveChannel.openAtOnce
  split
  · next hopens =>
    obtain ⟨-, -, hstate⟩ := hopens
    exact ⟨fun h => derive_kept (v := { v with position := Config.fullTravel })
        ⟨h.running, h.stopped, fun hs => absurd hs hstate, le_rfl⟩ d,
      fun h => derive_dutyRule (v := { v with position := Config.fullTravel }) (h.congr rfl rfl rfl Iff.rfl) d⟩
  · exact .refl c v

theorem closeAtOnce_step (c d : ValveSettings) (v : ValveChannel) : ChannelStep c v (v.closeAtOnce d) := by
  unfold ValveChannel.closeAtOnce
  split
  · next hcloses =>
    obtain ⟨-, -, hstate⟩ := hcloses
    exact ⟨fun h => derive_kept (v := { v with position := 0 })
        ⟨h.running, h.stopped, fun hs => absurd hs hstate, Nat.zero_le _⟩ d,
      fun h => derive_dutyRule (v := { v with position := 0 }) (h.congr rfl rfl rfl Iff.rfl) d⟩
  · exact .refl c v

end
end Sys2Proof.Machine

namespace Sys2Proof.Machine

/-! ## What a row keeps of the valve driver (R101, R102, R103, R111) -/

/-- Every channel's duties follow their rule under the settings in force (R102). -/
def DutiesRuled (s : State) : Prop := ∀ v, DutyRule (s.settings.valves.get v) (s.valves.channels.get v)

/-- Every valve channel's settings lie in their ranges. -/
def ValvesInRange (s : State) : Prop := ∀ v, ValveInRange (s.settings.valves.get v)

theorem SettingsKept.valvesInRange {s : State} (h : SettingsKept s) : ValvesInRange s :=
  ((settingsKept_iff s).1 h).1.valves

theorem dutiesKept_iff {s : State} (h : ValvesInRange s) : DutiesKept s ↔ DutiesRuled s :=
  forall_congr' fun v => dutyKept_iff (h v)

/-- Between s and t the valve settings stand still, and duties, channels and report stay as they have to be. -/
structure DriverMoves (s t : State) : Prop where
  settings : t.settings.valves = s.settings.valves
  duties : ValvesInRange s → DutiesRuled s → DutiesRuled t
  channels : ChannelsKept s → ChannelsKept t
  reports : ReportsCurrent s → ReportsCurrent t

theorem DriverMoves.refl (s : State) : DriverMoves s s := ⟨rfl, fun _ => id, id, id⟩

theorem DriverMoves.trans {s t u : State} (h : DriverMoves s t) (k : DriverMoves t u) : DriverMoves s u where
  settings := k.settings.trans h.settings
  duties hrange hs := k.duties (by simpa only [ValvesInRange, h.settings] using hrange) (h.duties hrange hs)
  channels := k.channels ∘ h.channels
  reports := k.reports ∘ h.reports

theorem computeReport_of_driver {s t : State} (hsettings : t.settings.valves = s.settings.valves)
    (hchannels : t.valves.channels = s.valves.channels) (hdemand : t.valves.demand = s.valves.demand) :
    computeReport t = computeReport s := by
  simp only [computeReport, zoneHasPath, hsettings, hchannels, hdemand]

section
variable {s t : State}

theorem DriverMoves.of_driver (h : t.driver = s.driver) : DriverMoves s t := by
  obtain ⟨hsettings, ⟨hchannels, hdemand, hreport⟩, hcopies⟩ := driver_eq_iff.1 h
  simp only [Firing.copies, Prod.mk.injEq] at hcopies
  obtain ⟨hcopy, htaken⟩ := hcopies
  refine ⟨hsettings, fun _ hs => ?_, fun hs => ?_, fun hs => ?_⟩
  · unfold DutiesRuled
    rwa [hsettings, hchannels]
  · unfold ChannelsKept
    rwa [hchannels]
  · unfold ReportsCurrent
    rwa [computeReport_of_driver hsettings hchannels hdemand, hreport, htaken, hcopy, hdemand]

/-! ### The channels of a state changed as they may -/

/-- The driver's channels are replaced by what their own steps make of them. -/
theorem setChannels_duties {channels : Tab 16 ValveChannel}
    (h : ∀ v, ChannelStep (s.settings.valves.get v) (s.valves.channels.get v) (channels.get v)) :
    (DutiesRuled s → DutiesRuled (setChannels channels s)) ∧ (ChannelsKept s → ChannelsKept (setChannels channels s)) :=
  ⟨fun hs v => (h v).duty (hs v), fun hs v => (h v).channel (hs v)⟩

theorem modify_steps (ch : Fin 16) {f : ValveChannel → ValveChannel}
    (h : ChannelStep (s.settings.valves.get ch) (s.valves.channels.get ch) (f (s.valves.channels.get ch)))
    (v : Fin 16) :
    ChannelStep (s.settings.valves.get v) (s.valves.channels.get v) ((s.valves.channels.modify ch f).get v) := by
  by_cases hv : v = ch
  · rw [hv, Tab.get_modify_self]
    exact h
  · rw [Tab.get_modify_ne _ _ hv]
    exact .refl _ _

/-- The path of a channel does not change: the report it gives stays (R111). -/
theorem setChannels_computeReport {channels : Tab 16 ValveChannel}
    (h : ∀ v, (channels.get v).state = (s.valves.channels.get v).state) :
    computeReport (setChannels channels s) = computeReport s := by
  simp only [computeReport, zoneHasPath, setChannels, h]
  rfl

/-- Channels changed as they may, no state among them. -/
theorem setChannels_moves {channels : Tab 16 ValveChannel}
    (h : ∀ v, ChannelStep (s.settings.valves.get v) (s.valves.channels.get v) (channels.get v))
    (hstate : ∀ v, (channels.get v).state = (s.valves.channels.get v).state) :
    DriverMoves s (setChannels channels s) where
  settings := rfl
  duties _ := (setChannels_duties h).1
  channels := (setChannels_duties h).2
  reports hs := by
    obtain ⟨hreport, hcopies⟩ := hs
    exact ⟨hreport.trans (setChannels_computeReport hstate).symm, hcopies⟩

theorem modValve_moves (ch : Fin 16) {f : ValveChannel → ValveChannel}
    (h : ChannelStep (s.settings.valves.get ch) (s.valves.channels.get ch) (f (s.valves.channels.get ch)))
    (hstate : (f (s.valves.channels.get ch)).state = (s.valves.channels.get ch).state) :
    DriverMoves s (modValve ch f s) := by
  refine setChannels_moves (modify_steps ch h) fun v => ?_
  by_cases hv : v = ch
  · rw [hv, Tab.get_modify_self]
    exact hstate
  · rw [Tab.get_modify_ne _ _ hv]

/-! ### The report handed on -/

/-- The controller holds the report that the driver last handed on, and its demand update (R94, R118). -/
def CopiesHeld (s : State) : Prop := s.firing.report = s.valves.report ∧ s.firing.demand = s.valves.demand

theorem ReportsCurrent.copies (h : ReportsCurrent s) : CopiesHeld s := h.2

theorem takeReport_copies (r : PathReport) (s : State) : (takeReport r s).firing.copies = (s.firing.demand, r) :=
  (memory_copies ((settle_memory _).trans (formHeating_settling _).memory)).trans rfl

/-- The hand-over of a report leaves the channels, and what the controller held of the report it still holds. -/
theorem handReport_settings (s : State) : (handReport s).settings = s.settings :=
  (handReport_keeps s) .settings (by decide)

theorem handReport_held (h : s.firing.report = s.valves.report) :
    (handReport s).firing.report = (handReport s).valves.report := by
  unfold handReport
  split
  · exact h
  · have hcopies := takeReport_copies (computeReport s) (setReport (computeReport s) s)
    simp only [Firing.copies, Prod.mk.injEq] at hcopies
    obtain ⟨-, -, hreport⟩ := (takeReport_reaches (computeReport s) (setReport (computeReport s) s)).2
    exact hcopies.2.trans hreport.symm

theorem handReport_current (h : CopiesHeld s) : ReportsCurrent (handReport s) := by
  obtain ⟨hreport, -, hdemand⟩ := handReport_report s
  exact ⟨hreport, handReport_held h.1, (handReport_demand s).trans (h.2.trans hdemand.symm)⟩

/-- Duties and channels carry over the hand-over of a report. -/
theorem handReport_carries (s : State) :
    (DutiesRuled s → DutiesRuled (handReport s)) ∧ (ChannelsKept s → ChannelsKept (handReport s)) := by
  obtain ⟨-, hchannels, -⟩ := handReport_report s
  unfold DutiesRuled ChannelsKept
  rw [hchannels, handReport_settings]
  exact ⟨id, id⟩

/-- Channels changed as they may, then the report handed on. -/
theorem handReport_moves {u : State} (hsettings : u.settings.valves = s.settings.valves)
    (hcopies : CopiesHeld s → CopiesHeld u) (hduties : ValvesInRange s → DutiesRuled s → DutiesRuled u)
    (hchannels : ChannelsKept s → ChannelsKept u) : DriverMoves s (handReport u) where
  settings := (congrArg Settings.valves (handReport_settings u)).trans hsettings
  duties hrange hs := (handReport_carries u).1 (hduties hrange hs)
  channels hs := (handReport_carries u).2 (hchannels hs)
  reports hs := handReport_current (hcopies hs.copies)

/-- One channel changed as it may, then the report handed on. -/
theorem handReport_modValve_moves (ch : Fin 16) {f : ValveChannel → ValveChannel}
    (h : ChannelStep (s.settings.valves.get ch) (s.valves.channels.get ch) (f (s.valves.channels.get ch))) :
    DriverMoves s (handReport (modValve ch f s)) :=
  have hsteps := setChannels_duties (modify_steps ch h)
  handReport_moves rfl id (fun _ => hsteps.1) hsteps.2

/-! ### The blocks of the driver -/

theorem postBoth_keeps (n : Notice) (s : State) : Keeps [.notices] s (postBoth n s) :=
  (post_keeps .text n s).trans (post_keeps .wire n _)

theorem reportFaults_keeps (first : List (Fin 16)) (faulted : ChannelSet) (s : State) :
    Keeps [.notices, .raised] s (reportFaults first faulted s) := by
  unfold reportFaults
  split
  · exact Keeps.refl _ _
  · exact ((raiseEach_keeps _ _ _).mono (by simp)).trans ((postBoth_keeps _ _).mono (by simp))

/-- Channels that enter FAULT, reported, and the report handed on (R108, R111). -/
theorem faultsThenReport_moves (order : Order) (faulted : ChannelSet) {channels : Tab 16 ValveChannel}
    (h : ∀ v, ChannelStep (s.settings.valves.get v) (s.valves.channels.get v) (channels.get v)) :
    DriverMoves s (faultsThenReport order faulted (setChannels channels s)) := by
  have hkeeps := reportFaults_keeps order.indices faulted (setChannels channels s)
  have hsettings : (reportFaults order.indices faulted (setChannels channels s)).settings = s.settings :=
    hkeeps .settings (by decide)
  have hvalves : (reportFaults order.indices faulted (setChannels channels s)).valves =
      (setChannels channels s).valves :=
    hkeeps .valves (by decide)
  have hfiring : (reportFaults order.indices faulted (setChannels channels s)).firing = s.firing :=
    hkeeps .firing (by decide)
  obtain ⟨hduties, hchannels⟩ := setChannels_duties h
  refine (handReport_moves (congrArg Settings.valves hsettings) ?_ ?_ ?_).trans
    (.of_driver (takeInTurns_driver _ order.turns))
  · unfold CopiesHeld
    rw [hvalves, hfiring]
    exact id
  · intro _ hs
    unfold DutiesRuled
    rw [hvalves, hsettings]
    exact hduties hs
  · intro hs
    unfold ChannelsKept
    rw [hvalves]
    exact hchannels hs

theorem valveUpdateBlock_moves (order : Order) (s : State) : DriverMoves s (valveUpdateBlock order s) := by
  refine faultsThenReport_moves order _ fun v => ?_
  rw [updatedChannels, Tab.get_ofFn]
  exact update_step _ _ _

theorem faultChannel_moves (ch : Fin 16) (s : State) : DriverMoves s (faultChannel ch s) :=
  (DriverMoves.of_driver (s := s) (t := { s with orders := s.orders.rest }) rfl).trans
    (faultsThenReport_moves (s := { s with orders := s.orders.rest }) s.orders.next (single 16 ch.val)
      (modify_steps ch (enterFault_step _ _)))

theorem confirmTimeoutBlock_moves (ch : Fin 16) (s : State) : DriverMoves s (confirmTimeoutBlock ch s) := by
  unfold confirmTimeoutBlock
  split
  · exact faultChannel_moves ch s
  · exact .refl s

theorem endSwitchBlock_moves (ch : Fin 16) (closed : Bool) (s : State) :
    DriverMoves s (endSwitchBlock ch closed s) := by
  unfold endSwitchBlock
  split
  · exact .refl s
  · split
    · next hstate => exact handReport_modValve_moves ch (confirmOpen_step _ hstate)
    · exact faultChannel_moves ch s
    all_goals exact .refl s

theorem setEndSwitch_moves (ch : Fin 16) (closed : Bool) (s : State) : DriverMoves s (setEndSwitch ch closed s) :=
  modValve_moves ch (endSwitch_step _ _ closed) rfl

theorem cycleStartBlock_moves (ch : Fin 16) (s : State) : DriverMoves s (cycleStartBlock ch s) := by
  refine modValve_moves ch (cycleStart_step _ _) ?_
  split <;> rfl

theorem driveLineOffBlock_moves (ch : Fin 16) (s : State) : DriverMoves s (driveLineOffBlock ch s) := by
  refine modValve_moves ch ?_ ?_
  · split
    · next h => exact running_step _ h.1 _ _
    · exact .refl _ _
  · split <;> rfl

theorem valveClearBlock_moves (channel : Int) (s : State) : DriverMoves s (valveClearBlock channel s).1 := by
  unfold valveClearBlock
  split
  · exact .refl s
  · split
    · exact handReport_modValve_moves _ (cleared_step _ _)
    · exact .refl s

theorem secondPasses_moves (s : State) : DriverMoves s (secondPasses s) := by
  have hsecond : ∀ v : Fin 16, (Tab.ofFn fun v => (s.valves.channels.get v).second).get v =
      (s.valves.channels.get v).second := fun v => Tab.get_ofFn _ v
  refine (setChannels_moves (channels := Tab.ofFn fun v => (s.valves.channels.get v).second) (fun v => ?_)
    fun v => ?_).trans (.of_driver rfl)
  · rw [hsecond]
    unfold ValveChannel.second
    split
    · next h => exact running_step _ h _ _
    · exact .refl _ _
  · rw [hsecond]
    unfold ValveChannel.second
    split <;> rfl

/-! ### The demand update handed on (R94, R101) -/

/-- The update reaches every channel: its output duty is formed again, whatever stood. -/
theorem applyDemand_moves (d : Demand) (s : State) :
    (ValvesInRange s → DutiesRuled (applyDemand d s)) ∧ (ChannelsKept s → ChannelsKept (applyDemand d s)) := by
  have hchannel : ∀ v, (applyDemand d s).valves.channels.get v =
      (s.valves.channels.get v).recompute (s.settings.valves.get v) d := fun v => Tab.get_ofFn _ v
  refine ⟨fun hrange v => ?_, fun hs v => ?_⟩ <;> rw [hchannel]
  · exact recompute_dutyRule (hrange v) _ d
  · exact recompute_kept (hs v).cycle _ d

theorem takeDemand_copies (stood : Option Int) (d : Demand) (s : State) :
    (takeDemand stood d s).firing.copies = (d, s.firing.report) :=
  (memory_copies ((settle_memory _).trans (formHeating_settling _).memory)).trans rfl

/-- The controller's part of the hand-over leaves the settings and the driver's channels, update and report. -/
theorem takeDemand_frame (stood : Option Int) (d : Demand) (s : State) :
    (takeDemand stood d s).settings = s.settings ∧ OnlyHoldWritten s.valves (takeDemand stood d s).valves :=
  ⟨(takeDemand_reaches stood d s).1 .settings (by decide), (takeDemand_reaches stood d s).2⟩

theorem takeDemand_carries (stood : Option Int) (d : Demand) (s : State) :
    (DutiesRuled s → DutiesRuled (takeDemand stood d s)) ∧ (ChannelsKept s → ChannelsKept (takeDemand stood d s)) ∧
      (ValvesInRange s → ValvesInRange (takeDemand stood d s)) := by
  obtain ⟨hsettings, hchannels, -⟩ := takeDemand_frame stood d s
  unfold DutiesRuled ChannelsKept ValvesInRange
  rw [hchannels, hsettings]
  exact ⟨id, id, id⟩

/-- What the controller and the driver hold after the hand-over, in every order. -/
theorem handDemand_current (order : PassOrder) (d : Demand) (h : ReportsCurrent s) :
    ReportsCurrent (handDemand order d s) := by
  have hcopied : ∀ stood u, (takeDemand stood d u).firing.demand = d ∧
      (takeDemand stood d u).firing.report = u.firing.report := by
    intro stood u
    have hcopies := takeDemand_copies stood d u
    simp only [Firing.copies, Prod.mk.injEq] at hcopies
    exact hcopies
  have hheld := h.2.1
  cases order
  · obtain ⟨hdemand, hreport⟩ := hcopied s.firing.heating s
    obtain ⟨-, -, -, hstays⟩ := takeDemand_frame s.firing.heating d s
    refine handReport_current (s := applyDemand d (takeDemand s.firing.heating d s)) ⟨?_, hdemand⟩
    exact hreport.trans (hheld.trans hstays.symm)
  · obtain ⟨hdemand, hreport⟩ := hcopied s.firing.heating (applyDemand d s)
    obtain ⟨-, -, hupdate, hstays⟩ := takeDemand_frame s.firing.heating d (applyDemand d s)
    exact handReport_current ⟨hreport.trans (hheld.trans hstays.symm), hdemand.trans hupdate.symm⟩
  · obtain ⟨hdemand, hreport⟩ := hcopied s.firing.heating (handReport (applyDemand d s))
    obtain ⟨hsettings, hchannels, hupdate, hstays⟩ :=
      takeDemand_frame s.firing.heating d (handReport (applyDemand d s))
    obtain ⟨hcomputed, -, hhanded⟩ := handReport_report (applyDemand d s)
    refine ⟨?_, ?_, ?_⟩
    · exact hstays.trans (hcomputed.trans (computeReport_congr hsettings hchannels hupdate).symm)
    · exact hreport.trans ((handReport_held (s := applyDemand d s) hheld).trans hstays.symm)
    · exact hdemand.trans (hupdate.trans hhanded).symm

theorem handDemand_moves (order : PassOrder) (d : Demand) (s : State) : DriverMoves s (handDemand order d s) where
  settings := congrArg Settings.valves ((handDemand_keeps s order d) .settings (by decide))
  duties hrange _ := by
    cases order
    · obtain ⟨-, -, hranges⟩ := takeDemand_carries s.firing.heating d s
      exact (handReport_carries _).1 ((applyDemand_moves d _).1 (hranges hrange))
    · exact (handReport_carries _).1 ((takeDemand_carries _ d _).1 ((applyDemand_moves d s).1 hrange))
    · exact (takeDemand_carries _ d _).1 ((handReport_carries _).1 ((applyDemand_moves d s).1 hrange))
  channels hs := by
    cases order
    · exact (handReport_carries _).2 ((applyDemand_moves d _).2 ((takeDemand_carries _ d s).2.1 hs))
    · exact (handReport_carries _).2 ((takeDemand_carries _ d _).2.1 ((applyDemand_moves d s).2 hs))
    · exact (takeDemand_carries _ d _).2.1 ((handReport_carries _).2 ((applyDemand_moves d s).2 hs))
  reports := handDemand_current order d

theorem passBlock_moves (order : Order) (s : State) : DriverMoves s (passBlock order s) := by
  have hcomputed : (takeRaised (zonesComputed s)).driver = s.driver :=
    (takeInTurns_driver _ []).trans ((zonesComputed_keeps s).driver (by decide))
  have hcalls : ∀ u, ((List.finRange 16).foldl (callEvent s.regulator.zones (computedRegulator s).zones) u).driver =
      u.driver :=
    foldl_driver (fun u z => (callEvent_keeps u _ _ z).driver (by decide)) _
  rw [passBlock_eq]
  exact (((DriverMoves.of_driver hcomputed).trans (handDemand_moves order.pass (passDemand s) _)).trans
    (.of_driver (hcalls (demandHanded order s)))).trans (.of_driver (takeInTurns_driver _ order.turns))

end
end Sys2Proof.Machine

namespace Sys2Proof.Machine

/-! ## Every row keeps the valve driver (R102, R111) -/

section
variable {s t : State}

theorem Keeps.driverMoves {l : List Part} (h : Keeps l s t)
    (hl : ∀ part ∈ [Part.settings, .valves, .firing], part ∉ l) :
    DriverMoves s t := .of_driver (h.driver hl)

theorem withMatrix_moves {block : State → State} (hb : ∀ u, DriverMoves u (block u)) (s : State) :
    DriverMoves s (withMatrix block s) :=
  ((DriverMoves.of_driver (s := s) (t := nothingRaised s) rfl).trans (hb _)).trans
    ((eventsTaken_of_block s _).driverMoves (by decide))

theorem event_moves {block : State → State} (h : event block s = .next t) (hb : ∀ u, DriverMoves u (block u)) :
    DriverMoves s t := by
  rcases (event_eq_next_iff block s t).1 h with ⟨-, rfl⟩ | ⟨-, rfl⟩
  · exact withMatrix_moves hb s
  · exact .refl _

theorem lineEvent_moves {level block : State → State} (h : lineEvent level block s = .next t)
    (hl : DriverMoves s (level s)) (hb : ∀ u, DriverMoves u (block u)) : DriverMoves s t := by
  rcases (lineEvent_eq_next_iff level block s t).1 h with ⟨-, rfl⟩ | ⟨-, rfl⟩
  · exact hl.trans (withMatrix_moves hb _)
  · exact hl

theorem command_moves {c : Instr} {p : Port} {block : State → State × Response} (h : command c p block s = .next t)
    (hb : ∀ u, DriverMoves u (block u).1) : DriverMoves s t := by
  rcases (command_eq_next_iff c p block s t).1 h with ⟨-, rfl⟩ | ⟨-, rfl⟩
  · exact (withMatrix_moves (block := fun u => (block u).1) hb s).trans
      ((deliver_keeps _ _ _ _).driverMoves (by decide))
  · exact .refl _

/-- From s to t the settings stay in range, and the invariants of the driver's records stay. -/
structure DriverStep (s t : State) : Prop where
  data : DataKept s t
  duties : SettingsKept s → DutiesKept s → DutiesKept t
  channels : ChannelsKept s → ChannelsKept t
  reports : ReportsCurrent s → ReportsCurrent t

theorem DriverStep.refl (s : State) : DriverStep s s := ⟨.refl s, fun _ => id, id, id⟩

theorem DriverStep.trans {u : State} (h : DriverStep s t) (k : DriverStep t u) : DriverStep s u :=
  ⟨h.data.trans k.data, fun hsettings hs => k.duties (h.data.1 hsettings) (h.duties hsettings hs),
    k.channels ∘ h.channels, k.reports ∘ h.reports⟩

theorem DriverMoves.step (h : DriverMoves s t) (hdata : DataKept s t) : DriverStep s t where
  data := hdata
  duties hsettings hs :=
    (dutiesKept_iff (hdata.1 hsettings).valvesInRange).2
      (h.duties hsettings.valvesInRange ((dutiesKept_iff hsettings.valvesInRange).1 hs))
  channels := h.channels
  reports := h.reports

/-! ### A written setting of a valve channel (R100, R101, R104) -/

theorem write_valves_ne {v w : Fin 16} {q : Param} (hq : q.OfValve v) (hw : w ≠ v) (c : Settings) (value : Int) :
    (q.write c value).valves.get w = c.valves.get w := by
  rcases hq with rfl | rfl | rfl | rfl | rfl | rfl <;> exact Tab.get_modify_ne _ _ hw

/-- The rule of the duties looks at the minimum and maximum duty alone. -/
theorem DutyRule.of_settings {c d : ValveSettings} {v : ValveChannel} (h : DutyRule c v)
    (hmin : d.minDuty = c.minDuty) (hmax : d.maxDuty = c.maxDuty) : DutyRule d v where
  output := by
    have := h.output
    simpa only [ValveChannel.dutyNow, ValveChannel.holdDuty, hmax] using this
  demand := by
    have := h.demand
    simpa only [DutyAllowed, hmin, hmax] using this

/-- A channel under a written setting (R100 to R106): it is kept, and under settings in range its duties follow their
rule. -/
theorem rewrite_step {v : Fin 16} {q : Param} (hq : q.OfValve v) (d : Demand) (c : Settings) (value : Int)
    (u : ValveChannel) :
    (ChannelKept u → ChannelKept (q.rewrite d u ((q.write c value).valves.get v))) ∧
      (ValveInRange ((q.write c value).valves.get v) → DutyRule (c.valves.get v) u →
        DutyRule ((q.write c value).valves.get v) (q.rewrite d u ((q.write c value).valves.get v))) := by
  have htimed : ∀ f : ValveSettings → ValveSettings, (∀ x, (f x).minDuty = x.minDuty) →
      (∀ x, (f x).maxDuty = x.maxDuty) → DutyRule (c.valves.get v) u → DutyRule ((c.valves.modify v f).get v) u := by
    intro f hmin hmax hu
    rw [Tab.get_modify_self]
    exact hu.of_settings (hmin _) (hmax _)
  rcases hq with rfl | rfl | rfl | rfl | rfl | rfl
  · exact ⟨fun hu => recompute_kept hu.cycle _ d, fun hrange _ => recompute_dutyRule hrange u d⟩
  · exact ⟨fun hu => recompute_kept hu.cycle _ d, fun hrange _ => recompute_dutyRule hrange u d⟩
  · exact ⟨fun hu => recompute_kept hu.cycle _ d, fun hrange _ => recompute_dutyRule hrange u d⟩
  · have hopens := openAtOnce_step ((Param.write c value (.valveOpen v)).valves.get v)
      ((Param.write c value (.valveOpen v)).valves.get v) u
    exact ⟨hopens.channel, fun _ hu => hopens.duty (htimed _ (fun _ => rfl) (fun _ => rfl) hu)⟩
  · have hcloses := closeAtOnce_step ((Param.write c value (.valveClose v)).valves.get v)
      ((Param.write c value (.valveClose v)).valves.get v) u
    exact ⟨hcloses.channel, fun _ hu => hcloses.duty (htimed _ (fun _ => rfl) (fun _ => rfl) hu)⟩
  · have hderives := derive_step ((Param.write c value (.confirm v)).valves.get v)
      ((Param.write c value (.confirm v)).valves.get v) u
    exact ⟨hderives.channel, fun _ hu => hderives.duty (htimed _ (fun _ => rfl) (fun _ => rfl) hu)⟩

/-- The record and the driver after a written setting of a valve channel. -/
theorem settingWritten_carries {v : Fin 16} {q : Param} (hq : q.OfValve v) (value : Int) (s : State) :
    (ValvesInRange (settingWritten q value s) → DutiesRuled s → DutiesRuled (settingWritten q value s)) ∧
      (ChannelsKept s → ChannelsKept (settingWritten q value s)) ∧
      (ReportsCurrent s → ReportsCurrent (settingWritten q value s)) := by
  have hsettings : (settingWritten q value s).settings = q.write s.settings value := settingWritten_settings value
  obtain ⟨-, -, hself, hothers⟩ := settingWritten_valves hq (t := settingWritten q value s) (Keeps.refl _ _)
  rw [hsettings] at hself
  refine ⟨fun hrange hs w => ?_, fun hs w => ?_, fun hs => ?_⟩
  · have hwritten := hrange w
    have hduty := hs w
    rw [hsettings] at hwritten ⊢
    by_cases hw : w = v
    · subst hw
      rw [hself]
      exact (rewrite_step hq _ _ value _).2 hwritten hduty
    · rw [hothers w hw, write_valves_ne hq hw]
      exact hduty
  · by_cases hw : w = v
    · subst hw
      rw [hself]
      exact (rewrite_step hq _ _ value _).1 (hs w)
    · rw [hothers w hw]
      exact hs w
  · unfold settingWritten
    rw [act_eq_rewriteValve hq]
    exact handReport_current hs.copies

/-- A written setting of the other blocks leaves the driver and its settings (R100, R118). -/
theorem settingWritten_driver {q : Param} (hq : ∀ v, ¬q.OfValve v) (value : Int) (s : State) :
    (settingWritten q value s).driver = s.driver := by
  have hwritten : (q.write s.settings value).valves = s.settings.valves → (q.act
      (setSettings (q.write s.settings value) (nothingRaised s))).driver =
      (setSettings (q.write s.settings value) (nothingRaised s)).driver →
      (settingWritten q value s).driver = s.driver := by
    intro hvalves hact
    refine hact.trans ?_
    show ((q.write s.settings value).valves, _) = _
    rw [hvalves]
    rfl
  cases q with
  | enabled | base | frost => exact hwritten rfl ((resolve_keeps _).driver (by decide))
  | edge | filter => exact hwritten rfl ((modChannel_keeps _ _ _).driver (by decide))
  | valveZone v => exact absurd (.inl rfl) (hq v)
  | minDuty v => exact absurd (.inr (.inl rfl)) (hq v)
  | maxDuty v => exact absurd (.inr (.inr (.inl rfl))) (hq v)
  | valveOpen v => exact absurd (.inr (.inr (.inr (.inl rfl)))) (hq v)
  | valveClose v => exact absurd (.inr (.inr (.inr (.inr (.inl rfl))))) (hq v)
  | confirm v => exact absurd (.inr (.inr (.inr (.inr (.inr rfl))))) (hq v)
  | highLimit => exact hwritten rfl ((testHighLimit_driver _).trans (formHeating_driver _))
  | fmin | fmax => exact hwritten rfl (formHeating_driver _)
  | dhwTarget => exact hwritten rfl (formFlow_driver _)
  | dhwMode =>
    refine hwritten rfl ((deriveCall_driver _).trans ?_)
    split <;> rfl
  | dhwPriority => exact hwritten rfl (ite_driver (endPriority_driver _))
  | dhwMaxPriority => exact hwritten rfl (ite_driver (endPriority_driver _))
  | dhwOpenTime => exact hwritten rfl (ite_driver ((settle_driver _).trans (modFiring_driver _ rfl)))
  | _ => exact hwritten rfl rfl

/-- PARAM SET (R100, R101, R180). -/
theorem paramSet_step {p : Port} {group idx field value : Int}
    (h : exec (.paramSet p group idx field value) s = .next t) :
    DriverStep s t := by
  have hdata := exec_dataKept h
  cases hp : s.powered with
  | false =>
    rcases (command_eq_next_iff _ p _ s t).1 h with ⟨hpowered, -⟩ | ⟨-, rfl⟩
    · exact absurd (hp.symm.trans hpowered) (by decide)
    · exact .refl _
  | true =>
    cases hq : paramOf group idx field with
    | none =>
      refine (command_moves h fun u => ?_).step hdata
      rw [paramSetBlock_of_none value hq]
      exact .refl u
    | some q =>
      obtain ⟨u, hu, -, -, hafter⟩ := paramSet_written p value hp hq
      cases hu.symm.trans h
      have hrest : DriverMoves (settingWritten q value s) t := hafter.driverMoves (by decide)
      by_cases hvalve : ∃ v, q.OfValve v
      · obtain ⟨v, hv⟩ := hvalve
        obtain ⟨hduties, hchannels, hreports⟩ := settingWritten_carries hv value s
        refine ⟨hdata, fun hsettings hs => ?_, hrest.channels ∘ hchannels, hrest.reports ∘ hreports⟩
        have hrange : ValvesInRange t := (hdata.1 hsettings).valvesInRange
        have hwritten : ValvesInRange (settingWritten q value s) := by
          unfold ValvesInRange at hrange ⊢
          rwa [hrest.settings] at hrange
        exact (dutiesKept_iff hrange).2 (hrest.duties hwritten
          (hduties hwritten ((dutiesKept_iff hsettings.valvesInRange).1 hs)))
      · exact ((DriverMoves.of_driver (settingWritten_driver (not_exists.1 hvalve) value s)).trans hrest).step hdata

/-! ### Rows that start and stop the driver (R114, R115, R142, R143) -/

/-- A driver whose channels are as power-up gives them, and a report that is the empty one, which those give. -/
structure DriverBlank (t : State) : Prop where
  channels : ∀ v, ∃ closed, t.valves.channels.get v = blankValve closed
  demand : t.valves.demand = blankDemand
  report : t.valves.report = blankReport
  copies : t.firing.copies = (blankDemand, blankReport)

/-- Whatever stood before, channels at rest are kept, under any settings. -/
theorem DriverBlank.step (h : DriverBlank t) (hdata : DataKept s t) : DriverStep s t where
  data := hdata
  duties _ _ v := by
    obtain ⟨closed, hv⟩ := h.channels v
    rw [hv]
    exact blankValve_dutyKept _ closed
  channels _ v := by
    obtain ⟨closed, hv⟩ := h.channels v
    rw [hv]
    exact blankValve_channelKept closed
  reports _ := by
    have hclosed : ∀ v, (t.valves.channels.get v).state.passes = false := fun v => by
      obtain ⟨closed, hv⟩ := h.channels v
      rw [hv]
      rfl
    have hcopies := h.copies
    simp only [Firing.copies, Prod.mk.injEq] at hcopies
    exact ⟨h.report.trans (computeReport_of_closed hclosed).symm, hcopies.2.trans h.report.symm,
      hcopies.1.trans h.demand.symm⟩

theorem DriverBlank.of_blank {channels : Tab 16 ValveChannel} (hvalves : t.valves = blankValves channels)
    (hcopies : t.firing.copies = (blankDemand, blankReport)) : DriverBlank t where
  channels v := by
    rw [hvalves]
    exact ⟨_, Tab.get_ofFn _ v⟩
  demand := by rw [hvalves]; rfl
  report := by rw [hvalves]; rfl
  copies := hcopies

theorem Started.driverBlank (h : Started s t) : DriverBlank t :=
  .of_blank h.inputs.2 (by rw [h.firing]; rfl)

theorem losePower_driverBlank (s : State) : DriverBlank (withMatrix losePower s) := by
  have htaken := eventsTaken_of_block s (losePower (nothingRaised s))
  have hvalves : (withMatrix losePower s).valves = (losePower (nothingRaised s)).valves := htaken .valves (by decide)
  have hfiring : (withMatrix losePower s).firing = (losePower (nothingRaised s)).firing := htaken .firing (by decide)
  exact .of_blank hvalves (by rw [hfiring]; rfl)

/-- SOFT RESET restarts every channel; the report is formed anew and the controller's copies with it. -/
theorem softReset_moves (p : Port) (s : State) : DriverMoves s (softReset p s) := by
  obtain ⟨hchannels, hdemand, hreport, hmemory⟩ := softReset_control p s
  have hsettings : (softReset p s).settings = s.settings := softReset_keeps p s .settings (by decide)
  refine ⟨congrArg Settings.valves hsettings, fun _ hs v => ?_, fun hs v => ?_, fun _ => ⟨hreport, ?_⟩⟩
  · rw [hchannels, hsettings]
    exact (restart_step _ _).duty (hs v)
  · rw [hchannels]
    exact (restart_step (s.settings.valves.get v) _).channel (hs v)
  · simp only [Firing.memory, Firing.memoryAfterReset, Prod.mk.injEq] at hmemory
    obtain ⟨-, -, -, -, hcopy, hhanded⟩ := hmemory
    exact ⟨hhanded, hcopy.trans hdemand.symm⟩

/-- Every row keeps the driver's invariants. -/
theorem exec_driverStep {i : Instr} (h : exec i s = .next t) : DriverStep s t := by
  have hdata := exec_dataKept h
  cases hi : isOuter i with
  | true => exact (DriverMoves.of_driver (driver_of_plant (exec_plant hi h))).step hdata
  | false =>
    cases i with
    | powerUp =>
      obtain ⟨u, hu⟩ := exists_started s
      cases (hu.row .powerUp (.inl rfl)).symm.trans h
      exact hu.driverBlank.step hdata
    | externalReset =>
      rcases (event_eq_next_iff startPart s t).1 h with ⟨hp, -⟩ | ⟨-, rfl⟩
      · obtain ⟨u, hu⟩ := exists_started s
        cases (hu.row .externalReset (.inr ⟨rfl, hp⟩)).symm.trans h
        exact hu.driverBlank.step hdata
      · exact .refl _
    | powerLoss =>
      rcases (event_eq_next_iff losePower s t).1 h with ⟨-, rfl⟩ | ⟨-, rfl⟩
      · exact (losePower_driverBlank s).step hdata
      · exact .refl _
    | softReset p =>
      cases hp : s.powered with
      | true =>
        cases (exec_softReset p hp).symm.trans h
        exact (softReset_moves p s).step hdata
      | false =>
        rcases (event_eq_next_iff _ s t).1 h with ⟨hpowered, -⟩ | ⟨-, rfl⟩
        · exact absurd (hp.symm.trans hpowered) (by decide)
        · exact .refl _
    | paramSet => exact paramSet_step h
    | pass => exact (event_moves h fun u => ((DriverMoves.of_driver (s := u)
        (t := { u with orders := u.orders.rest }) rfl).trans (passBlock_moves u.orders.next _))).step hdata
    | valveUpdate => exact (event_moves h fun u => ((DriverMoves.of_driver (s := u)
        (t := { u with orders := u.orders.rest }) rfl).trans (valveUpdateBlock_moves u.orders.next _))).step hdata
    | confirmTimeout ch => exact (event_moves h (confirmTimeoutBlock_moves ch)).step hdata
    | cycleStart ch => exact (event_moves h (cycleStartBlock_moves ch)).step hdata
    | driveLineOff ch => exact (event_moves h (driveLineOffBlock_moves ch)).step hdata
    | valveClear p channel => exact (command_moves h (valveClearBlock_moves channel)).step hdata
    | endSwitchEdge ch closed =>
      refine (lineEvent_moves h (setEndSwitch_moves ch closed s) fun u => ?_).step hdata
      split
      · exact .refl u
      · exact endSwitchBlock_moves ch closed u
    | secondBoundary => exact (event_moves h fun u => .of_driver (secondBoundaryBlock_driver u)).step hdata
    | windowExpiry => exact (event_moves h fun u => .of_driver (expireWindow_driver _ u.orders.next)).step hdata
    | clockSet => exact (command_moves h fun u => .of_driver (clockSetBlock_driver u _ _ _ _)).step hdata
    | pointAdd => exact (command_moves h fun u => .of_driver (pointAddBlock_driver u _ _ _ _ _ _ _)).step hdata
    | pointDel => exact (command_moves h fun u => .of_driver (pointDelBlock_driver u _ _ _ _ _ _)).step hdata
    | listClear => exact (command_moves h fun u => .of_driver (listClearBlock_driver u _ _ _ _)).step hdata
    | bankCopy => exact (command_moves h fun u => .of_driver (bankCopyBlock_driver u _ _ _ _)).step hdata
    | bankLoad => exact (command_moves h fun u => .of_driver (bankLoadBlock_driver u _ _)).step hdata
    | bankSelect => exact (command_moves h fun u => .of_driver (bankSelectBlock_driver u _ _)).step hdata
    | bankTimed => exact (command_moves h fun u => .of_driver (bankTimedBlock_driver u _ _ _ _)).step hdata
    | bankCancel => exact (command_moves h fun u => .of_driver (bankCancelBlock_driver u _)).step hdata
    | inhibit => exact (command_moves h fun u => .of_driver (inhibitBlock_driver u _ _)).step hdata
    | lockoutClear => exact (command_moves h fun u => .of_driver (lockoutClearBlock_driver u _)).step hdata
    | dhwBoost => exact (command_moves h fun u => .of_driver (dhwBoostBlock_driver u _)).step hdata
    | flameEdge asserted =>
      exact (lineEvent_moves h (.of_driver rfl) fun u => .of_driver
        (onEdge_driver u (block := flameBlock asserted) (fun _ => ite_driver rfl) _ _)).step hdata
    | boilerFaultEdge asserted =>
      exact (lineEvent_moves h (.of_driver rfl) fun u => .of_driver
        (onEdge_driver u (block := faultBlock asserted) (fun _ => rfl) _ _)).step hdata
    | interlockEdge closed =>
      exact (lineEvent_moves h (.of_driver rfl) fun u => .of_driver (onEdge_driver u settle_driver _ _)).step hdata
    | hotWaterRequestEdge asserted =>
      exact (lineEvent_moves h (.of_driver rfl) fun u => .of_driver
        (onEdge_driver u (fun v => requestBlock_driver v asserted) _ _)).step hdata
    | minOnExpiry | minOffExpiry | diverterOpen =>
      exact (event_moves h fun u => .of_driver (ite_driver ((settle_driver _).trans
        (modFiring_driver u rfl)))).step hdata
    | overrunExpiry =>
      exact (event_moves h fun u => .of_driver (ite_driver ((endOverrun_driver _).trans
        (modFiring_driver u rfl)))).step hdata
    | pathWaitExpiry | flameWaitExpiry =>
      exact (event_moves h fun _ => .of_driver (ite_driver rfl)).step hdata
    | faultPersistenceExpiry =>
      exact (event_moves h fun u => .of_driver (ite_driver ((lockOut_driver _ _).trans
        (modFiring_driver u rfl)))).step hdata
    | timedCallExpiry =>
      exact (event_moves h fun u => .of_driver (ite_driver ((deriveCall_driver _).trans
        (modFiring_driver u rfl)))).step hdata
    | priorityExpiry => exact (event_moves h fun u => .of_driver (ite_driver (endPriority_driver u))).step hdata
    | _ => cases hi

/-- Settles O55: every row keeps the driver's invariants, so the rows of a second do one after the other; a second moves
the cycle times of running cycles alone. -/
theorem stepsKeepValveDriver : Obligations.StepsKeepValveDriver := by
  intro s t h
  have hstep : DriverStep s t :=
    step_rel DriverStep.refl DriverStep.trans exec_driverStep
      (fun s rest => (DriverMoves.of_driver (s := s) (t := { s with pending := rest }) rfl).step (.of_data rfl))
      (fun s => (secondPasses_moves s).step (.of_data rfl)) h
  exact ⟨hstep.duties, hstep.channels, hstep.reports⟩

end
end Sys2Proof.Machine

namespace Sys2Proof.Machine

/-! ## The drive cycle (R103) -/

section
variable (v : Fin 16) (f : ValveChannel → ValveChannel) (s : State)

theorem modValve_self : (modValve v f s).valves.channels.get v = f (s.valves.channels.get v) :=
  Tab.get_modify_self _ _ _

theorem modValve_ne {w : Fin 16} (hw : w ≠ v) : (modValve v f s).valves.channels.get w = s.valves.channels.get w :=
  Tab.get_modify_ne _ _ hw

/-- A row that changes one channel alone raises nothing, so the matrix does nothing. -/
theorem event_modValve (hp : s.powered = true) : event (modValve v f) s = .next (modValve v f s) :=
  (event_powered _ s hp).trans (congrArg _ (withMatrix_of_quiet rfl))

end

theorem startCycle_of_running {v : ValveChannel} (h : v.running = true) (duty : Nat) :
    v.startCycle duty = { v with cycleTime := 0, appliedDuty := duty, drive := true } := by
  cases v
  subst h
  rfl

/-- Settles O38: both rows change their channel alone, and while its cycle runs they do what R103 says of the moment. -/
theorem driveCyclesFollowAppliedDuty : Obligations.DriveCyclesFollowAppliedDuty := by
  intro v s hp hrunning
  refine ⟨⟨_, event_modValve v _ s hp, modValve_keeps s v _, ?_, fun w => modValve_ne v _ s, rfl, rfl, rfl⟩,
    fun hdrive hduty => ⟨_, event_modValve v _ s hp, modValve_keeps s v _, ?_, fun w => modValve_ne v _ s, rfl, rfl,
      rfl⟩⟩
  · rw [modValve_self, if_pos hrunning, startCycle_of_running hrunning]
  · rw [modValve_self, if_pos ⟨hrunning, hdrive, hduty⟩]

/-! ## VALVE CLEAR (R109) -/

section
variable (v : ValveChannel) (c : ValveSettings)

/-- The output duty of a channel that is not in FAULT (R102). -/
def ValveChannel.dutyDue (v : ValveChannel) (c : ValveSettings) : Nat :=
  max v.demandDuty (if v.hold then c.maxDuty else 0)

variable {v c}

theorem dutyNow_of_not_fault (h : v.state ≠ .fault) : v.dutyNow c = v.dutyDue c := if_neg h

/-- A channel taken out of FAULT with no duty stands CLOSED. -/
theorem cleared_of_zero (houtput : v.outputDuty = 0) (hdue : v.dutyDue c = 0) :
    v.cleared c = { v with state := .closed, position := 0, confirmTimer := none } := by
  let u : ValveChannel := { v with state := .closed, position := 0, confirmTimer := none }
  have hduty : u.dutyNow c = 0 := (dutyNow_of_not_fault (v := u) nofun).trans hdue
  show (u.drivenAt c (u.dutyNow c)).derive c = u
  rw [hduty, drivenAt_of_same (by simp [u, houtput])]
  rw [derive_of_undriven { u with outputDuty := 0 } c nofun rfl]
  simp [u, undriven, houtput]

/-- A channel that starts at once with a duty, with h at 0 or, under an open time of 0, at 60,000 (R103, R104). -/
def ValveChannel.startedAt (v : ValveChannel) (c : ValveSettings) (duty : Nat) : ValveChannel :=
  { v with
    state := .closed, confirmTimer := none, running := true, cycleTime := 0, appliedDuty := duty, drive := true
    outputDuty := duty, position := if c.openTime = 0 then 60000 else 0 }

theorem startedAt_ne_fault (v : ValveChannel) (c : ValveSettings) (duty : Nat) :
    (v.startedAt c duty).state ≠ .fault := nofun

theorem cleared_of_pos (houtput : v.outputDuty = 0) (hdue : 0 < v.dutyDue c) :
    v.cleared c = (v.startedAt c (v.dutyDue c)).derive c := by
  let u : ValveChannel := { v with state := .closed, position := 0, confirmTimer := none }
  have hduty : u.dutyNow c = v.dutyDue c := dutyNow_of_not_fault (v := u) nofun
  show (u.drivenAt c (u.dutyNow c)).derive c = _
  rw [hduty, drivenAt_of_start (v := u) houtput hdue]
  rfl

/-- What stays of a channel that VALVE CLEAR takes out of FAULT, and its output duty (R102, R109). -/
theorem cleared_frame (houtput : v.outputDuty = 0) :
    (v.cleared c).demandDuty = v.demandDuty ∧ (v.cleared c).hold = v.hold ∧ (v.cleared c).endSwitch = v.endSwitch ∧
      (v.cleared c).outputDuty = v.dutyDue c := by
  rcases Nat.eq_zero_or_pos (v.dutyDue c) with hzero | hpos
  · rw [cleared_of_zero houtput hzero]
    exact ⟨rfl, rfl, rfl, houtput.trans hzero.symm⟩
  · rw [cleared_of_pos houtput hpos]
    have hduty := derive_duty (v.startedAt c (v.dutyDue c)) c
    simp only [ValveChannel.duty, Prod.mk.injEq] at hduty
    obtain ⟨hdemand, hhold, hout, -, -, -, -, hswitch⟩ := hduty
    exact ⟨hdemand, hhold, hswitch, hout⟩

/-- The cycle of a channel that VALVE CLEAR drives starts at once (R103). -/
theorem cleared_cycle (houtput : v.outputDuty = 0) (hdue : 0 < v.dutyDue c) :
    (v.cleared c).drive = true ∧ (v.cleared c).running = true ∧ (v.cleared c).cycleTime = 0 ∧
      (v.cleared c).appliedDuty = v.dutyDue c := by
  rw [cleared_of_pos houtput hdue]
  have hduty := derive_duty (v.startedAt c (v.dutyDue c)) c
  simp only [ValveChannel.duty, Prod.mk.injEq] at hduty
  obtain ⟨-, -, -, hrunning, htime, happlied, hdrive, -⟩ := hduty
  exact ⟨hdrive, hrunning, htime, happlied⟩

/-- The state that it has then, under each confirmation (R105, R106). -/
theorem cleared_state (houtput : v.outputDuty = 0) (hdue : 0 < v.dutyDue c) :
    (c.confirm = .switch → v.endSwitch = true → (v.cleared c).state = .opened ∧ (v.cleared c).position = 60000 ∧
      (v.cleared c).confirmTimer = none) ∧
    (c.confirm = .switch → v.endSwitch = false → (v.cleared c).state = .opening ∧
      (0 < c.openTime → (v.cleared c).position = 0 ∧ (v.cleared c).confirmTimer = none) ∧
      (c.openTime = 0 → (v.cleared c).position = 60000 ∧ (v.cleared c).confirmTimer = some 0)) ∧
    (c.confirm = .timer → (v.cleared c).confirmTimer = none ∧
      (0 < c.openTime → (v.cleared c).state = .opening ∧ (v.cleared c).position = 0) ∧
      (c.openTime = 0 → (v.cleared c).state = .opened ∧ (v.cleared c).position = 60000)) := by
  rw [cleared_of_pos houtput hdue]
  refine ⟨fun hc hswitch => ?_, fun hc hswitch => ?_, fun hc => ?_⟩
  · rw [derive_of_switch (v.startedAt c (v.dutyDue c)) c (startedAt_ne_fault _ _ _) hdue hc,
      if_pos (show (v.startedAt c _).endSwitch = true from hswitch)]
    exact ⟨rfl, rfl, rfl⟩
  · rw [derive_of_switch (v.startedAt c (v.dutyDue c)) c (startedAt_ne_fault _ _ _) hdue hc,
      if_neg (by simp [ValveChannel.startedAt, hswitch])]
    refine ⟨rfl, fun h => ?_, fun h => ?_⟩
    · have hne : c.openTime ≠ 0 := by omega
      simp [ValveChannel.waitForSwitch, ValveChannel.startedAt, hne, Config.fullTravel]
    · simp [ValveChannel.waitForSwitch, ValveChannel.startedAt, h, Config.fullTravel]
  · rw [derive_of_timer (v.startedAt c (v.dutyDue c)) c (startedAt_ne_fault _ _ _) hdue hc]
    refine ⟨rfl, fun h => ?_, fun h => ?_⟩
    · have hne : c.openTime ≠ 0 := by omega
      simp [ValveChannel.startedAt, hne, Config.fullTravel]
    · simp [ValveChannel.startedAt, h, Config.fullTravel]

end

/-- Settles O37: the block is VALVE CLEAR's own change of the channel and the hand-over of the report; a channel that is
not in FAULT and a number that is no channel's end in the response alone. -/
theorem valveClearRestartsChannel : Obligations.ValveClearRestartsChannel := by
  intro p v s hp
  refine ⟨fun hfault houtput hdrive => ?_, fun hstate => ?_, fun n hn => ?_⟩
  · let f : ValveChannel → ValveChannel := fun x => x.cleared (s.settings.valves.get v)
    let u := handReport (modValve v f (nothingRaised s))
    have hblock : valveClearBlock v.val (nothingRaised s) = (u, .ok [num 1]) := by
      simp only [valveClearBlock, index_val]
      exact if_pos hfault
    have hkeeps : Keeps (.raised :: [.valves, .firing]) (nothingRaised s) u :=
      ((modValve_keeps _ v f).mono (by simp)).trans ((handReport_keeps _).mono (by decide))
    obtain ⟨t, ht, hrow, hanswered, hafter⟩ := command_of_block (.valveClear p v.val) p hp hblock hkeeps
    obtain ⟨hreport, hchannels, -⟩ := handReport_report (modValve v f (nothingRaised s))
    have hvalves : t.valves = u.valves := hafter .valves (by decide)
    have hfiring : t.firing = u.firing := hafter .firing (by decide)
    have hsettings : t.settings = u.settings := hafter .settings (by decide)
    have hself : t.valves.channels.get v = (s.valves.channels.get v).cleared (s.settings.valves.get v) := by
      rw [hvalves, hchannels]
      exact modValve_self v f _
    refine ⟨t, ht, hrow.mono (by decide), hanswered, fun w hw => ?_, fun hheld => ⟨?_, ?_⟩, ?_⟩
    · rw [hvalves, hchannels]
      exact modValve_ne v f _ hw
    · rw [computeReport_congr hsettings (congrArg Valves.channels hvalves) (congrArg Valves.demand hvalves), hvalves]
      exact hreport
    · rw [hvalves, hfiring]
      exact handReport_held hheld
    · rintro w c rfl rfl
      rw [hself]
      obtain ⟨hdemand, hhold, hswitch, hduty⟩ := cleared_frame (c := s.settings.valves.get v) houtput
      rw [hdemand, hhold, hswitch, hduty]
      refine ⟨rfl, rfl, rfl, rfl, fun hzero => ?_, fun hpos => ?_⟩
      · rw [cleared_of_zero houtput hzero]
        exact ⟨rfl, rfl, hdrive, rfl⟩
      · obtain ⟨hline, hrunning, htime, happlied⟩ := cleared_cycle houtput hpos
        exact ⟨hline, hrunning, htime, happlied, cleared_state houtput hpos⟩
  · have hblock : valveClearBlock v.val (nothingRaised s) = (nothingRaised s, .ok [num 0]) := by
      simp only [valveClearBlock, index_val]
      exact if_neg hstate
    obtain ⟨t, ht, hrow, hanswered, -⟩ :=
      command_of_keeps (l := []) (.valveClear p v.val) p hp hblock (Keeps.refl _ _) (by simp)
    exact ⟨t, ht, hrow.mono (by simp), hanswered⟩
  · refine refused_powered (.valveClear p n) p _ .range s hp ?_
    have hnone : index 16 n = none := (index_eq_none_iff 16 n).2 (by omega)
    simp only [valveClearBlock, hnone]

end Sys2Proof.Machine

namespace Sys2Proof.Machine

/-! ## Faults reported (R108) -/

section
variable (first : List (Fin 16)) (p : Fin 16 → Bool) (s : State)

/-- One VALVE_FAULT for each channel of the set, behind what was raised before. -/
theorem reportFaults_raised : (reportFaults first (setOf p) s).raised =
    s.raised ++ (arranged first (setOf p)).map fun v => ⟨.valveFault, v⟩ := by
  unfold reportFaults
  split
  · next hzero =>
    have hnone : arranged first (setOf p) = [] := by
      refine List.Perm.eq_nil ((arranged_perm first p).trans (.of_eq ?_))
      simp [(setOf_eq_zero_iff p).1 hzero]
    rw [hnone, List.map_nil, List.append_nil]
  · exact raiseEach_raised s _ _

theorem reportFaults_notices (port : Port) : (reportFaults first (setOf p) s).notices.of port =
    if setOf p = 0 then s.notices.of port else (s.notices.of port).take (.valveFault (setOf p)) := by
  unfold reportFaults
  split
  · rfl
  · rw [postBoth_notices_of, raiseEach_keeps _ _ _ .notices (by decide)]

/-- The channels of the set are posted to both ports (R173). -/
theorem reportFaults_posts : ScopePosted s (reportFaults first (setOf p) s) 7 PortNotices.valveFault p := by
  intro port
  rw [reportFaults_notices]
  refine ⟨fun hnone => ?_, fun hsome => ?_⟩
  · rw [if_pos ((setOf_eq_zero_iff p).2 hnone)]
    exact ⟨rfl, rfl⟩
  · have hne : setOf p ≠ 0 := fun hzero => by
      obtain ⟨v, hv⟩ := hsome
      exact Bool.false_ne_true (((setOf_eq_zero_iff p).1 hzero v).symm.trans hv)
    have hmerge : ((s.notices.of port).take (.valveFault (setOf p))).valveFault =
        mergeScope ((s.notices.of port).kinds.getLsbD 7) (s.notices.of port).valveFault (setOf p) := rfl
    rw [if_neg hne]
    refine ⟨PortNotices.take_kinds_getLsbD _ _ _, fun v => ?_⟩
    rw [hmerge, mergeScope_getLsbD, getLsbD_setOf]

end

/-! ## A row that sets channels, reports faults and hands on the report (R108, R111) -/

/-- What a row leaves that has replaced the driver's channels, with the channels of p in FAULT by it. -/
structure FaultsHanded (channels : Tab 16 ValveChannel) (p : Fin 16 → Bool) (s t : State) : Prop where
  keeps : Keeps [.valves, .firing, .links, .notices, .orders] s t
  channels : t.valves.channels = channels
  demand : t.valves.demand = s.valves.demand
  report : t.valves.report = computeReport t
  held : s.firing.report = s.valves.report → t.firing.report = t.valves.report
  events : EventsTaken s t .valveFault p
  posted : ScopePosted s t 7 PortNotices.valveFault p

section
variable (channels : Tab 16 ValveChannel) (p : Fin 16 → Bool) (s : State)

/-- The row's state with its channels replaced and their faults reported. -/
def faultsReported : State :=
  reportFaults s.orders.next.indices (setOf p) (setChannels channels (orderTaken s))

/-- The row's state at its end. -/
def faultsHanded : State :=
  eventsTaken s (faultsThenReport s.orders.next (setOf p) (setChannels channels (orderTaken s)))

theorem setChannels_keeps : Keeps [.valves] s (setChannels channels s) := by
  intro part hpart
  cases part <;> first | rfl | (simp at hpart)

theorem faultsReported_keeps : Keeps [.raised, .orders, .valves, .notices] s (faultsReported channels p s) :=
  (((orderTaken_keeps s).mono (by simp)).trans ((setChannels_keeps channels _).mono (by simp))).trans
    ((reportFaults_keeps _ _ _).mono (by simp))

theorem faultsReported_valves : (faultsReported channels p s).valves = { s.valves with channels := channels } :=
  reportFaults_keeps s.orders.next.indices (setOf p) (setChannels channels (orderTaken s)) .valves (by decide)

/-- Behind the hand-over the matrix alone has something to do. -/
theorem faultsHanded_of_report :
    Keeps [.links, .raised] (handReport (faultsReported channels p s)) (faultsHanded channels p s) :=
  (takeInTurns_keeps _ _).trans (eventsTaken_of_block s _)

theorem faultsHanded_events : EventsTaken s (faultsHanded channels p s) .valveFault p := by
  obtain ⟨own, hraised, hown⟩ := (handReport_passage (faultsReported channels p s)).events
  have hparameters : parametersOf .valveFault (handReport (faultsReported channels p s)).raised =
      arranged s.orders.next.indices (setOf p) := by
    have hreported : (faultsReported channels p s).raised =
        (arranged s.orders.next.indices (setOf p)).map fun v => ⟨.valveFault, v⟩ := reportFaults_raised _ _ _
    rw [hraised, parametersOf_append, parametersOf_of_block hown (by decide), hreported, parametersOf_map_self,
      List.append_nil]
  have hkeeps := faultsReported_keeps channels p s
  have hhanded := handReport_keeps (faultsReported channels p s)
  refine (takeInTurns_eventsTaken s.orders.next.turns (s := handReport (faultsReported channels p s)) ?_).congr
    ((hhanded .links (by decide)).trans (hkeeps .links (by decide))).symm
    ((hhanded .settings (by decide)).trans (hkeeps .settings (by decide))).symm rfl
  rw [hparameters]
  exact arranged_perm _ p

theorem faultsHanded_posted : ScopePosted s (faultsHanded channels p s) 7 PortNotices.valveFault p := by
  have hnotices : (faultsHanded channels p s).notices = (faultsReported channels p s).notices :=
    (faultsHanded_of_report channels p s .notices (by decide)).trans (handReport_keeps _ .notices (by decide))
  intro port
  rw [hnotices]
  exact reportFaults_posts s.orders.next.indices p (setChannels channels (orderTaken s)) port

theorem faultsHanded_spec : FaultsHanded channels p s (faultsHanded channels p s) := by
  have hkeeps := faultsReported_keeps channels p s
  have hbefore := faultsReported_valves channels p s
  have hafter := faultsHanded_of_report channels p s
  have hvalves : (faultsHanded channels p s).valves = (handReport (faultsReported channels p s)).valves :=
    hafter .valves (by decide)
  have hfiring : (faultsHanded channels p s).firing = (handReport (faultsReported channels p s)).firing :=
    hafter .firing (by decide)
  obtain ⟨hreport, hchannels, hdemand⟩ := handReport_report (faultsReported channels p s)
  exact {
    keeps := ((eventsTaken_keeps (l := [.valves, .firing, .links, .notices, .orders])
      (((orderTaken_keeps (nothingRaised s)).mono (by simp)).trans
        (((setChannels_keeps channels _).mono (by simp)).trans (((reportFaults_keeps _ _ _).mono (by simp)).trans
          (((handReport_keeps _).mono (by decide)).trans ((takeInTurns_keeps _ _).mono (by simp))))))).mono (by simp))
    channels := by rw [hvalves, hchannels, hbefore]
    demand := by rw [hvalves, hdemand, hbefore]
    report := by
      rw [hvalves, hreport]
      exact (computeReport_congr (hafter .settings (by decide)) (congrArg Valves.channels hvalves)
        (congrArg Valves.demand hvalves)).symm
    held := fun hheld => by
      rw [hvalves, hfiring]
      refine handReport_held ?_
      rw [hbefore, hkeeps .firing (by decide)]
      exact hheld
    events := faultsHanded_events channels p s
    posted := faultsHanded_posted channels p s }

end
end Sys2Proof.Machine

namespace Sys2Proof.Machine

/-! ## End switches and the confirm timer (R106 to R108) -/

/-- A set of one channel. -/
theorem single_eq_setOf (v : Fin 16) : single 16 v.val = setOf fun u => decide (u = v) := by
  refine set_ext fun i => ?_
  rw [getLsbD_single _ _ v.isLt, getLsbD_setOf]
  simp only [Fin.ext_iff]

section
variable (v : Fin 16) (s : State)

theorem endSwitchBlock_of_opening (hc : (s.settings.valves.get v).confirm = .switch)
    (hstate : (s.valves.channels.get v).state = .opening) :
    endSwitchBlock v true s = handReport (modValve v ValveChannel.confirmOpen s) := by
  simp only [endSwitchBlock, hc, hstate]

theorem endSwitchBlock_of_opened (hc : (s.settings.valves.get v).confirm = .switch)
    (hstate : (s.valves.channels.get v).state = .opened) : endSwitchBlock v false s = faultChannel v s := by
  simp only [endSwitchBlock, hc, hstate]

/-- An edge on a TIMER channel, and on a channel that is CLOSED, CLOSING or in FAULT, is recorded alone (R107). -/
theorem endSwitchBlock_of_rest (closed : Bool) (h : (s.settings.valves.get v).confirm = .timer ∨
    (s.valves.channels.get v).state = .closed ∨ (s.valves.channels.get v).state = .closing ∨
    (s.valves.channels.get v).state = .fault) : endSwitchBlock v closed s = s := by
  cases hc : (s.settings.valves.get v).confirm with
  | timer => simp only [endSwitchBlock, hc]
  | switch =>
    rcases h with h | h | h | h
    · exact absurd (hc.symm.trans h) nofun
    all_goals simp only [endSwitchBlock, hc, h]

/-- A level that is new takes the row to the end-switch block. -/
theorem exec_endSwitchEdge (closed : Bool) (hp : s.powered = true)
    (hnew : (s.valves.channels.get v).endSwitch = !closed) : exec (.endSwitchEdge v closed) s =
      .next (withMatrix (endSwitchBlock v closed) (setEndSwitch v closed s)) := by
  refine (lineEvent_powered _ _ s hp).trans ?_
  rw [if_neg (by rw [hnew]; cases closed <;> decide)]

theorem setEndSwitch_keeps (closed : Bool) : Keeps [.valves] s (setEndSwitch v closed s) := modValve_keeps s v _

theorem setEndSwitch_self (closed : Bool) : (setEndSwitch v closed s).valves.channels.get v =
    { s.valves.channels.get v with endSwitch := closed } := modValve_self v _ s

/-- A channel enters FAULT in a row of its own. -/
theorem withMatrix_faultChannel :
    FaultsHanded (s.valves.channels.modify v ValveChannel.enterFault) (fun u => decide (u = v)) s
      (withMatrix (faultChannel v) s) := by
  have hrow : withMatrix (faultChannel v) s =
      faultsHanded (s.valves.channels.modify v ValveChannel.enterFault) (fun u => decide (u = v)) s := by
    unfold faultsHanded
    rw [← single_eq_setOf]
    rfl
  rw [hrow]
  exact faultsHanded_spec _ _ s

/-- An edge that a channel does not act on is recorded, and nothing else happens (R107). -/
theorem exec_endSwitchEdge_of_rest (closed : Bool) (hp : s.powered = true)
    (h : (s.settings.valves.get v).confirm = .timer ∨ (s.valves.channels.get v).state = .closed ∨
      (s.valves.channels.get v).state = .closing ∨ (s.valves.channels.get v).state = .fault) :
    exec (.endSwitchEdge v closed) s = .next (setEndSwitch v closed s) := by
  have hself : (nothingRaised (setEndSwitch v closed s)).valves.channels.get v =
      { s.valves.channels.get v with endSwitch := closed } := setEndSwitch_self v s closed
  have hblock : (if (s.valves.channels.get v).endSwitch = closed then id else endSwitchBlock v closed)
      (nothingRaised (setEndSwitch v closed s)) = nothingRaised (setEndSwitch v closed s) := by
    split
    · rfl
    · refine endSwitchBlock_of_rest v _ closed ?_
      rw [hself]
      exact h
  refine (lineEvent_powered _ _ s hp).trans ?_
  rw [withMatrix_of_quiet (by rw [hblock]; rfl), hblock]
  rfl

/-- An OPEN channel whose switch opens enters FAULT (R107). -/
theorem exec_endSwitchEdge_of_opened (hp : s.powered = true) (hc : (s.settings.valves.get v).confirm = .switch)
    (hstate : (s.valves.channels.get v).state = .opened) (hswitch : (s.valves.channels.get v).endSwitch = true) :
    exec (.endSwitchEdge v false) s = .next (withMatrix (faultChannel v) (setEndSwitch v false s)) := by
  have hself : (nothingRaised (setEndSwitch v false s)).valves.channels.get v =
      { s.valves.channels.get v with endSwitch := false } := setEndSwitch_self v s false
  have hblock : endSwitchBlock v false (nothingRaised (setEndSwitch v false s)) =
      faultChannel v (nothingRaised (setEndSwitch v false s)) :=
    endSwitchBlock_of_opened v _ hc (by rw [hself]; exact hstate)
  rw [exec_endSwitchEdge v s false hp hswitch, withMatrix, hblock]
  rfl

/-- A confirming channel enters FAULT at the timeout's row (R106). -/
theorem exec_confirmTimeout (hp : s.powered = true) (hc : (s.settings.valves.get v).confirm = .switch)
    (hstate : (s.valves.channels.get v).state = .opening)
    (htimer : (s.valves.channels.get v).confirmTimer.isSome = true) :
    exec (.confirmTimeout v) s = .next (withMatrix (faultChannel v) s) := by
  have hblock : confirmTimeoutBlock v (nothingRaised s) = faultChannel v (nothingRaised s) :=
    if_pos (by simp [confirming, hc, hstate, htimer])
  refine (event_powered (confirmTimeoutBlock v) s hp).trans ?_
  rw [withMatrix, hblock]
  rfl

end

/-- What a row leaves of a channel that enters FAULT, and of the others (R108). -/
theorem FaultsHanded.faulted {v : Fin 16} {s t : State} {p : Fin 16 → Bool}
    (h : FaultsHanded (s.valves.channels.modify v ValveChannel.enterFault) p s t) :
    t.valves.channels.get v = (s.valves.channels.get v).enterFault ∧
      ∀ w, w ≠ v → t.valves.channels.get w = s.valves.channels.get w := by
  rw [h.channels]
  exact ⟨Tab.get_modify_self _ _ _, fun w hw => Tab.get_modify_ne _ _ hw⟩

/-- Settles O36: each row is its block's change of one channel; where the channel enters FAULT, that is reported and the
report handed on. -/
theorem endSwitchesConfirmAndFault : Obligations.EndSwitchesConfirmAndFault := by
  intro v s hp
  refine ⟨fun hc hstate hswitch => ?_, fun closed hrest => ?_, fun i hc hi => ?_⟩
  · let x := nothingRaised (setEndSwitch v true s)
    have hself : x.valves.channels.get v = { s.valves.channels.get v with endSwitch := true } :=
      setEndSwitch_self v s true
    have hblock : endSwitchBlock v true x = handReport (modValve v ValveChannel.confirmOpen x) :=
      endSwitchBlock_of_opening v x hc (by rw [hself]; exact hstate)
    have hkeeps : Keeps (.raised :: [.valves, .firing]) x (endSwitchBlock v true x) := by
      rw [hblock]
      exact ((modValve_keeps x v _).mono (by simp)).trans ((handReport_keeps _).mono (by decide))
    have hafter := eventsTaken_of_block (setEndSwitch v true s) (endSwitchBlock v true x)
    have hvalves : (withMatrix (endSwitchBlock v true) (setEndSwitch v true s)).valves =
        (handReport (modValve v ValveChannel.confirmOpen x)).valves :=
      (hafter .valves (by decide)).trans (congrArg State.valves hblock)
    have hsettings : (withMatrix (endSwitchBlock v true) (setEndSwitch v true s)).settings =
        (handReport (modValve v ValveChannel.confirmOpen x)).settings :=
      (hafter .settings (by decide)).trans (congrArg State.settings hblock)
    obtain ⟨hreport, hchannels, -⟩ := handReport_report (modValve v ValveChannel.confirmOpen x)
    refine ⟨_, exec_endSwitchEdge v s true hp hswitch,
      ((setEndSwitch_keeps v s true).mono (by simp)).trans ((eventsTaken_keeps hkeeps).mono (by simp)), ?_, ?_,
      fun w hw => ?_⟩
    · rw [hvalves, hchannels, modValve_self, hself]
      rfl
    · rw [computeReport_congr hsettings (congrArg Valves.channels hvalves) (congrArg Valves.demand hvalves), hvalves]
      exact hreport
    · rw [hvalves, hchannels, modValve_ne v _ x hw]
      exact modValve_ne v _ s hw
  · exact ⟨_, exec_endSwitchEdge_of_rest v s closed hp hrest, setEndSwitch_keeps v s closed,
      setEndSwitch_self v s closed, fun w => modValve_ne v _ s, rfl, rfl, rfl⟩
  · rcases hi with ⟨rfl, hstate, htimer⟩ | ⟨rfl, hstate, hswitch⟩
    · have hrest := withMatrix_faultChannel v s
      obtain ⟨hself, hothers⟩ := hrest.faulted
      refine ⟨_, exec_confirmTimeout v s hp hc hstate htimer, hrest.keeps, ?_, hothers, hrest.report, hrest.events,
        hrest.posted⟩
      rintro w rfl
      rw [hself]
      exact ⟨rfl, rfl, rfl, rfl, rfl, rfl, rfl, rfl, rfl, rfl⟩
    · have hrest := withMatrix_faultChannel v (setEndSwitch v false s)
      obtain ⟨hself, hothers⟩ := hrest.faulted
      refine ⟨_, exec_endSwitchEdge_of_opened v s hp hc hstate hswitch,
        ((setEndSwitch_keeps v s false).mono (by simp)).trans hrest.keeps, ?_, fun w hw => ?_, hrest.report,
        hrest.events, hrest.posted⟩
      · rintro w rfl
        rw [hself, setEndSwitch_self]
        exact ⟨rfl, rfl, rfl, rfl, rfl, rfl, rfl, rfl, rfl, rfl⟩
      · exact (hothers w hw).trans (modValve_ne v _ s hw)

end Sys2Proof.Machine

namespace Sys2Proof.Machine

/-! ## One channel through one update (R103 to R106, R110) -/

/-- The hold flag written and the output duty formed again, with its cycle (R103, R110). -/
def ValveChannel.heldAt (v : ValveChannel) (c : ValveSettings) (held : Bool) : ValveChannel :=
  { v with hold := held }.drivenAt c ({ v with hold := held }.dutyNow c)

/-- The channel with h stepped and its state derived, before the confirm timer advances (R104 to R106). -/
def ValveChannel.moved (v : ValveChannel) (c : ValveSettings) (held : Bool) : ValveChannel :=
  (((v.heldAt c held).derive c).step c).derive c

/-- h after one update of a driven channel (R104). -/
def openedBy (c : ValveSettings) (h : Nat) : Nat :=
  if c.openTime = 0 then 60000 else min 60000 (h + travelStep c.openTime)

/-- h after one update of a channel that is not driven (R104). -/
def closedBy (c : ValveSettings) (h : Nat) : Nat := if c.closeTime = 0 then 0 else h - travelStep c.closeTime

section
variable (v : ValveChannel) (c : ValveSettings) (held : Bool)

theorem update_eq : v.update c held = (v.moved c held).advanceConfirm v := rfl

theorem heldAt_frame : (v.heldAt c held).demandDuty = v.demandDuty ∧ (v.heldAt c held).hold = held ∧
    (v.heldAt c held).endSwitch = v.endSwitch ∧ (v.heldAt c held).state = v.state ∧
    (v.heldAt c held).outputDuty = { v with hold := held }.dutyNow c := drivenAt_frame { v with hold := held } c _

theorem heldAt_state : (v.heldAt c held).state = v.state := by
  obtain ⟨-, -, -, hstate, -⟩ := heldAt_frame v c held
  exact hstate

theorem heldAt_endSwitch : (v.heldAt c held).endSwitch = v.endSwitch := by
  obtain ⟨-, -, hswitch, -⟩ := heldAt_frame v c held
  exact hswitch

theorem heldAt_outputDuty : (v.heldAt c held).outputDuty = { v with hold := held }.dutyNow c := by
  obtain ⟨-, -, -, -, houtput⟩ := heldAt_frame v c held
  exact houtput

theorem drivenAt_confirmTimer (d : Nat) : (v.drivenAt c d).confirmTimer = v.confirmTimer := by
  unfold ValveChannel.drivenAt
  split_ifs <;> rfl

theorem moved_duty : (v.moved c held).duty = (v.heldAt c held).duty :=
  (derive_duty _ c).trans (step_frame.1.trans (derive_duty _ c))

/-! ### The confirm timer (R106) -/

theorem advanceConfirm_of_none {before : ValveChannel} (h : before.confirmTimer = none ∨ v.confirmTimer = none) :
    v.advanceConfirm before = v := by
  unfold ValveChannel.advanceConfirm
  split
  · next hbefore hafter => rcases h with h | h <;> simp_all
  · rfl

theorem advanceConfirm_of_some {before : ValveChannel} {m n : Nat} (hbefore : before.confirmTimer = some m)
    (h : v.confirmTimer = some n) :
    v.advanceConfirm before = if 120 ≤ n + 1 then v.enterFault else { v with confirmTimer := some (n + 1) } := by
  rw [ValveChannel.advanceConfirm, hbefore, h]
  rfl

theorem advanceConfirm_frame (before : ValveChannel) : (v.advanceConfirm before).hold = v.hold ∧
    (v.advanceConfirm before).demandDuty = v.demandDuty ∧ (v.advanceConfirm before).endSwitch = v.endSwitch := by
  unfold ValveChannel.advanceConfirm
  split
  · split <;> exact ⟨rfl, rfl, rfl⟩
  · exact ⟨rfl, rfl, rfl⟩

/-- A channel that does not enter FAULT keeps duty and cycle as its confirm timer advances. -/
theorem advanceConfirm_duty (before : ValveChannel) (h : (v.advanceConfirm before).state ≠ .fault) :
    (v.advanceConfirm before).duty = v.duty := by
  unfold ValveChannel.advanceConfirm at h ⊢
  split at h
  · split at h
    · next hlimit => exact absurd rfl h
    · next hlimit => rw [if_neg hlimit]; rfl
  · rfl

/-- What an update leaves of every channel (R110). -/
theorem update_frame : (v.update c held).hold = held ∧ (v.update c held).demandDuty = v.demandDuty ∧
    (v.update c held).endSwitch = v.endSwitch := by
  obtain ⟨hhold, hdemand, hswitch⟩ := advanceConfirm_frame (v.moved c held) v
  have hduty := moved_duty v c held
  simp only [ValveChannel.duty, Prod.mk.injEq] at hduty
  obtain ⟨hdemand', hhold', -, -, -, -, -, hswitch'⟩ := hduty
  obtain ⟨hdemand'', hhold'', hswitch'', -, -⟩ := heldAt_frame v c held
  exact ⟨hhold.trans (hhold'.trans hhold''), hdemand.trans (hdemand'.trans hdemand''),
    hswitch.trans (hswitch'.trans hswitch'')⟩

variable {v c held}

/-- A channel in FAULT takes the hold flag alone (R108, R110). -/
theorem update_of_fault (h : v.state = .fault) (hduty : v.outputDuty = 0) (htimer : v.confirmTimer = none) :
    v.update c held = { v with hold := held } := by
  let u : ValveChannel := { v with hold := held }
  have hu : u.state = .fault := h
  have hheld : v.heldAt c held = u := by
    show u.drivenAt c (u.dutyNow c) = u
    rw [dutyNow_of_fault hu, drivenAt_of_same (by simp [u, hduty]), ← hduty]
  have hmoved : v.moved c held = u := by
    rw [ValveChannel.moved, hheld, derive_of_fault u c hu, step_of_fault hu, derive_of_fault u c hu]
  rw [update_eq, hmoved, advanceConfirm_of_none u (.inl htimer)]

/-! ### A channel that is not in FAULT -/

theorem step_of_not_fault (h : v.state ≠ .fault) : v.step c =
    { v with position := if 0 < v.outputDuty then openedBy c v.position else closedBy c v.position } := if_neg h

theorem heldAt_output (h : v.state ≠ .fault) : (v.heldAt c held).outputDuty = { v with hold := held }.dutyDue c :=
  (heldAt_outputDuty v c held).trans (dutyNow_of_not_fault (v := { v with hold := held }) h)

theorem heldAt_ne_fault (h : v.state ≠ .fault) : (v.heldAt c held).state ≠ .fault := by
  rwa [heldAt_state v c held]

/-- Where an open time is set, h moves by the update's step alone as the channel starts (R104). -/
theorem openedBy_heldAt (hdue : 0 < (v.heldAt c held).outputDuty) :
    openedBy c (v.heldAt c held).position = openedBy c v.position := by
  unfold openedBy
  split
  · rfl
  · next hopen =>
    rw [heldAt_outputDuty v c held] at hdue
    have hposition : (v.heldAt c held).position = v.position := by
      unfold ValveChannel.heldAt
      rcases Nat.eq_zero_or_pos v.outputDuty with hzero | hpos
      · rw [drivenAt_of_start (v := { v with hold := held }) hzero hdue]
        exact if_neg hopen
      · rw [drivenAt_of_same (v := { v with hold := held }) ⟨fun _ => hdue, fun _ => hpos⟩]
    rw [hposition]

/-- Where a close time is set, h moves by the update's step alone as the channel stops (R104). -/
theorem closedBy_heldAt (hdue : (v.heldAt c held).outputDuty = 0) :
    closedBy c (v.heldAt c held).position = closedBy c v.position := by
  unfold closedBy
  split
  · rfl
  · next hclose =>
    rw [heldAt_outputDuty v c held] at hdue
    have hposition : (v.heldAt c held).position = v.position := by
      unfold ValveChannel.heldAt
      rw [hdue]
      rcases Nat.eq_zero_or_pos v.outputDuty with hzero | hpos
      · rw [drivenAt_of_same (v := { v with hold := held }) (by simp [hzero])]
      · rw [drivenAt_of_stop (v := { v with hold := held }) hpos]
        exact if_neg hclose
    rw [hposition]

/-- A channel without duty: h falls, and the state follows h (R104, R105). -/
theorem moved_of_undriven (h : v.state ≠ .fault) (hdue : { v with hold := held }.dutyDue c = 0) :
    v.moved c held = { v.heldAt c held with
      position := closedBy c v.position, state := undriven (closedBy c v.position), confirmTimer := none } := by
  have houtput : (v.heldAt c held).outputDuty = 0 := (heldAt_output h).trans hdue
  rw [ValveChannel.moved, derive_of_undriven _ c (heldAt_ne_fault h) houtput,
    step_of_not_fault (undriven_ne_fault _)]
  dsimp only
  rw [if_neg (by omega), closedBy_heldAt houtput]
  exact derive_of_undriven _ c (undriven_ne_fault _) houtput

/-- A driven TIMER channel: h rises, and the channel is OPEN with h at 60,000 (R104, R105). -/
theorem moved_of_timer (h : v.state ≠ .fault) (hdue : 0 < { v with hold := held }.dutyDue c)
    (hc : c.confirm = .timer) :
    v.moved c held = { v.heldAt c held with
      position := openedBy c v.position
      state := if openedBy c v.position = 60000 then .opened else .opening
      confirmTimer := none } := by
  have houtput : 0 < (v.heldAt c held).outputDuty := (heldAt_output h).symm ▸ hdue
  have hstate : ∀ q : Nat, (if q = Config.fullTravel then ValveState.opened else .opening) ≠ .fault := by
    intro q
    split <;> nofun
  rw [ValveChannel.moved, derive_of_timer _ c (heldAt_ne_fault h) houtput hc, step_of_not_fault (hstate _)]
  dsimp only
  rw [if_pos houtput, openedBy_heldAt houtput]
  exact derive_of_timer _ c (hstate _) houtput hc

/-- A driven SWITCH channel whose switch is closed is OPEN (R106). -/
theorem moved_of_switch_closed (h : v.state ≠ .fault) (hdue : 0 < { v with hold := held }.dutyDue c)
    (hc : c.confirm = .switch) (hswitch : v.endSwitch = true) :
    v.moved c held = (v.heldAt c held).confirmOpen := by
  have houtput : 0 < (v.heldAt c held).outputDuty := (heldAt_output h).symm ▸ hdue
  have hclosed : (v.heldAt c held).endSwitch = true := (heldAt_endSwitch v c held).trans hswitch
  have hopened : ∀ x : ValveChannel, x.confirmOpen.state ≠ .fault := fun x => nofun
  rw [ValveChannel.moved, derive_of_switch _ c (heldAt_ne_fault h) houtput hc, if_pos hclosed,
    step_of_not_fault (hopened _)]
  refine (derive_of_switch _ c ?_ ?_ hc).trans (if_pos hclosed)
  · exact hopened (v.heldAt c held)
  · exact houtput

/-- A driven SWITCH channel whose switch is open waits for it, and its confirm timer starts or runs on with h at
60,000 (R106). -/
theorem moved_of_switch_open (h : v.state ≠ .fault) (hdue : 0 < { v with hold := held }.dutyDue c)
    (hc : c.confirm = .switch) (hswitch : v.endSwitch = false) :
    v.moved c held = { v.heldAt c held with
      position := openedBy c v.position
      state := .opening
      confirmTimer := if openedBy c v.position = 60000 then
        some (((v.heldAt c held).waitForSwitch.confirmTimer).getD 0) else none } := by
  have houtput : 0 < (v.heldAt c held).outputDuty := (heldAt_output h).symm ▸ hdue
  have hopen : ¬(v.heldAt c held).endSwitch = true := by
    rw [heldAt_endSwitch v c held, hswitch]
    decide
  have hwaits : ∀ x : ValveChannel, x.waitForSwitch.state ≠ .fault := fun x => nofun
  rw [ValveChannel.moved, derive_of_switch _ c (heldAt_ne_fault h) houtput hc, if_neg hopen,
    step_of_not_fault (hwaits _)]
  have hposition : (if 0 < (v.heldAt c held).waitForSwitch.outputDuty then
      openedBy c (v.heldAt c held).waitForSwitch.position else closedBy c (v.heldAt c held).waitForSwitch.position) =
      openedBy c v.position := (if_pos houtput).trans (openedBy_heldAt houtput)
  rw [hposition]
  refine (derive_of_switch _ c ?_ ?_ hc).trans (if_neg hopen)
  · exact hwaits (v.heldAt c held)
  · exact houtput

/-- A timer that does not run starts at 0 (R106). -/
theorem waitForSwitch_timer_of_none (h : v.confirmTimer = none) : v.waitForSwitch.confirmTimer.getD 0 = 0 := by
  unfold ValveChannel.waitForSwitch
  dsimp only
  split_ifs <;> simp [h]

theorem waitForSwitch_timer_of_some {n : Nat} (hstate : v.state = .opening) (hposition : v.position = 60000)
    (h : v.confirmTimer = some n) : v.waitForSwitch.confirmTimer = some n := by
  have hfull : v.position = Config.fullTravel := hposition
  simp [ValveChannel.waitForSwitch, hstate, hfull, h]

theorem heldAt_position_full (h : v.position = 60000) (hdue : 0 < (v.heldAt c held).outputDuty) :
    (v.heldAt c held).position = 60000 := by
  rw [heldAt_outputDuty v c held] at hdue
  unfold ValveChannel.heldAt
  rcases Nat.eq_zero_or_pos v.outputDuty with hzero | hpos
  · rw [drivenAt_of_start (v := { v with hold := held }) hzero hdue]
    dsimp only
    split
    · rfl
    · exact h
  · rw [drivenAt_of_same (v := { v with hold := held }) ⟨fun _ => hdue, fun _ => hpos⟩]
    exact h

theorem openedBy_full : openedBy c 60000 = 60000 := by
  unfold openedBy
  split <;> omega

/-! ### The steps of h (R104) -/

/-- The step is the least k with n·k at or above 60,000. -/
theorem travelStep_eq {n k : Nat} (hlow : n * k < 60000 + n) (hhigh : 60000 ≤ n * k) : travelStep n = k := by
  have hn : 0 < n := by
    by_contra hzero
    have : n = 0 := by omega
    subst this
    omega
  show (60000 + n - 1) / n = k
  refine Nat.div_eq_of_lt_le ?_ ?_
  · rw [Nat.mul_comm]
    omega
  · rw [Nat.add_mul, Nat.mul_comm]
    omega

theorem openedBy_eq {h0 h : Nat} (hh : c.openTime = 0 ∧ h = 60000 ∨ 0 < c.openTime ∧
    ∃ k, c.openTime * k < 60000 + c.openTime ∧ 60000 ≤ c.openTime * k ∧ h = min 60000 (h0 + k)) :
    openedBy c h0 = h := by
  unfold openedBy
  rcases hh with ⟨hzero, rfl⟩ | ⟨hpos, k, hlow, hhigh, rfl⟩
  · exact if_pos hzero
  · rw [if_neg (by omega), travelStep_eq hlow hhigh]

theorem closedBy_of_pos (hpos : 0 < c.closeTime) {h0 k : Nat} (hlow : c.closeTime * k < 60000 + c.closeTime)
    (hhigh : 60000 ≤ c.closeTime * k) : closedBy c h0 = h0 - k := by
  rw [closedBy, if_neg (by omega), travelStep_eq hlow hhigh]

end
end Sys2Proof.Machine

namespace Sys2Proof.Machine

/-! ## What an update makes of a channel (R103 to R106, R110) -/

section
variable {v : ValveChannel} {c : ValveSettings} {held : Bool} (h : v.state ≠ .fault)
include h

/-- Output duty and cycle of a channel that does not enter FAULT (R102, R103). -/
theorem update_cycle (hstays : (v.update c held).state ≠ .fault) {duty : Nat}
    (hduty : duty = { v with hold := held }.dutyDue c) :
    (v.update c held).outputDuty = duty ∧
    (v.outputDuty = 0 → 0 < duty → (v.update c held).running = true ∧ (v.update c held).cycleTime = 0 ∧
      (v.update c held).appliedDuty = duty ∧ (v.update c held).drive = true) ∧
    (0 < v.outputDuty → duty = 0 → (v.update c held).running = false ∧ (v.update c held).cycleTime = 0 ∧
      (v.update c held).appliedDuty = 0 ∧ (v.update c held).drive = false) ∧
    ((0 < v.outputDuty ↔ 0 < duty) → (v.update c held).running = v.running ∧
      (v.update c held).cycleTime = v.cycleTime ∧ (v.update c held).appliedDuty = v.appliedDuty ∧
      (v.update c held).drive = v.drive) := by
  have hframe := (advanceConfirm_duty (v.moved c held) v hstays).trans (moved_duty v c held)
  simp only [ValveChannel.duty, Prod.mk.injEq] at hframe
  obtain ⟨-, -, houtput, hrunning, htime, happlied, hdrive, -⟩ := hframe
  have hnow : { v with hold := held }.dutyNow c = duty := (dutyNow_of_not_fault (v := { v with hold := held }) h).trans
    hduty.symm
  have hheld : v.heldAt c held = { v with hold := held }.drivenAt c duty := by rw [ValveChannel.heldAt, hnow]
  rw [update_eq, houtput, hrunning, htime, happlied, hdrive, heldAt_outputDuty v c held, hnow, hheld]
  refine ⟨rfl, fun hzero hpos => ?_, fun hpos hzero => ?_, fun hsame => ?_⟩
  · rw [drivenAt_of_start (v := { v with hold := held }) hzero hpos]
    exact ⟨rfl, rfl, rfl, rfl⟩
  · rw [hzero, drivenAt_of_stop (v := { v with hold := held }) hpos]
    exact ⟨rfl, rfl, rfl, rfl⟩
  · rw [drivenAt_of_same (v := { v with hold := held }) hsame]
    exact ⟨rfl, rfl, rfl, rfl⟩

/-- A channel without duty is CLOSED with h at 0, and CLOSING otherwise (R104, R105). -/
theorem update_of_undriven (hdue : { v with hold := held }.dutyDue c = 0) :
    (v.update c held).confirmTimer = none ∧ (v.update c held).position = closedBy c v.position ∧
      (v.update c held).state = undriven (closedBy c v.position) := by
  rw [update_eq, moved_of_undriven h hdue, advanceConfirm_of_none _ (.inr rfl)]
  exact ⟨rfl, rfl, rfl⟩

variable (hdue : 0 < { v with hold := held }.dutyDue c)
include hdue

/-- A driven SWITCH channel whose switch is closed is OPEN (R106). -/
theorem update_of_switch_closed (hc : c.confirm = .switch) (hswitch : v.endSwitch = true) :
    (v.update c held).state = .opened ∧ (v.update c held).position = 60000 ∧
      (v.update c held).confirmTimer = none := by
  rw [update_eq, moved_of_switch_closed h hdue hc hswitch, advanceConfirm_of_none _ (.inr rfl)]
  exact ⟨rfl, rfl, rfl⟩

/-- A driven TIMER channel is OPEN with h at 60,000, and OPENING otherwise (R105). -/
theorem update_of_timer (hc : c.confirm = .timer) :
    (v.update c held).position = openedBy c v.position ∧ (v.update c held).confirmTimer = none ∧
      (v.update c held).state = (if openedBy c v.position = 60000 then .opened else .opening) := by
  rw [update_eq, moved_of_timer h hdue hc, advanceConfirm_of_none _ (.inr rfl)]
  exact ⟨rfl, rfl, rfl⟩

variable (hc : c.confirm = .switch) (hswitch : v.endSwitch = false)
include hc hswitch

/-- A driven SWITCH channel on its way waits for its switch with no timer (R106). -/
theorem update_of_travelling (hopen : openedBy c v.position ≠ 60000) :
    (v.update c held).state = .opening ∧ (v.update c held).position = openedBy c v.position ∧
      (v.update c held).confirmTimer = none := by
  have hmoved := moved_of_switch_open h hdue hc hswitch
  rw [if_neg hopen] at hmoved
  rw [update_eq, hmoved, advanceConfirm_of_none _ (.inr rfl)]
  exact ⟨rfl, rfl, rfl⟩

/-- The confirm timer starts at 0 as h stands at 60,000 (R106). -/
theorem update_starts_timer (hopen : openedBy c v.position = 60000) (htimer : v.confirmTimer = none) :
    (v.update c held).state = .opening ∧ (v.update c held).position = 60000 ∧
      (v.update c held).confirmTimer = some 0 := by
  have hmoved := moved_of_switch_open h hdue hc hswitch
  rw [if_pos hopen, hopen, waitForSwitch_timer_of_none (v := v.heldAt c held)
    ((drivenAt_confirmTimer { v with hold := held } c _).trans htimer)] at hmoved
  rw [update_eq, hmoved, advanceConfirm_of_none _ (.inl htimer)]
  exact ⟨rfl, rfl, rfl⟩

/-- A running confirm timer advances by one, and takes the channel into FAULT at 120 (R106, R108). -/
theorem update_runs_timer {n : Nat} (hstate : v.state = .opening) (hposition : v.position = 60000)
    (htimer : v.confirmTimer = some n) :
    (n < 119 → (v.update c held).state = .opening ∧ (v.update c held).position = 60000 ∧
      (v.update c held).confirmTimer = some (n + 1)) ∧
    (119 ≤ n → (v.update c held).state = .fault ∧ (v.update c held).position = 0 ∧
      (v.update c held).confirmTimer = none ∧ (v.update c held).outputDuty = 0 ∧ (v.update c held).running = false ∧
      (v.update c held).cycleTime = 0 ∧ (v.update c held).appliedDuty = 0 ∧ (v.update c held).drive = false) := by
  have houtput : 0 < (v.heldAt c held).outputDuty := (heldAt_output h).symm ▸ hdue
  have hmoved := moved_of_switch_open h hdue hc hswitch
  have hruns : (v.heldAt c held).waitForSwitch.confirmTimer = some n :=
    waitForSwitch_timer_of_some ((heldAt_state v c held).trans hstate)
      (heldAt_position_full hposition houtput) ((drivenAt_confirmTimer { v with hold := held } c _).trans htimer)
  have hfull : openedBy c v.position = 60000 := by rw [hposition, openedBy_full]
  rw [if_pos hfull, hfull, hruns] at hmoved
  rw [update_eq, hmoved, advanceConfirm_of_some _ htimer rfl]
  refine ⟨fun hn => ?_, fun hn => ?_⟩
  · rw [Option.getD_some, if_neg (by omega)]
    exact ⟨rfl, rfl, rfl⟩
  · rw [Option.getD_some, if_pos (by omega)]
    exact ⟨rfl, rfl, rfl, rfl, rfl, rfl, rfl, rfl⟩

end

/-! ## The row of an update -/

/-- The channels that enter FAULT in an update (R106). -/
def failsNow (s : State) (v : Fin 16) : Bool :=
  decide ((s.valves.channels.get v).state ≠ .fault) && decide (((updatedChannels s).get v).state = .fault)

theorem exec_valveUpdate {s : State} (hp : s.powered = true) :
    exec .valveUpdate s = .next (faultsHanded (updatedChannels s) (failsNow s) s) :=
  event_powered (withOrder valveUpdateBlock) s hp

theorem updatedChannels_get (s : State) (v : Fin 16) : (updatedChannels s).get v =
    (s.valves.channels.get v).update (s.settings.valves.get v) (s.valves.latestHold.getLsbD v.val) := Tab.get_ofFn _ v

/-- The report names the channels that are OPEN or CLOSING (R111). -/
theorem computeReport_path (s : State) (v : Fin 16) : (computeReport s).path.getLsbD v.val =
    decide ((s.valves.channels.get v).state = .opened ∨ (s.valves.channels.get v).state = .closing) := by
  have hpath : (computeReport s).path = setOf fun v => (s.valves.channels.get v).state.passes := rfl
  rw [hpath, getLsbD_setOf]
  cases (s.valves.channels.get v).state <;> rfl

/-- Settles O35: every channel is its own update's, by its cases, and the row reports the faults and hands on the
report. -/
theorem valveUpdateStepsAndReports : Obligations.ValveUpdateStepsAndReports := by
  intro s hp hheld
  have hrow := faultsHanded_spec (updatedChannels s) (failsNow s) s
  refine ⟨_, exec_valveUpdate hp, hrow.keeps, hrow.demand, fun v => ?_, hrow.report, hrow.held hheld,
    fun failed hfailed => ?_, ?_⟩
  · rw [hrow.report, computeReport_path]
  · have hsame : failed = failsNow s := funext fun v => by rw [hfailed, failsNow, hrow.channels]
    rw [hsame]
    exact ⟨hrow.events, hrow.posted⟩
  · rintro v c u w h0 duty rfl rfl rfl rfl hduty
    rw [hrow.channels, updatedChannels_get]
    generalize s.settings.valves.get v = c at *
    generalize s.valves.channels.get v = u at *
    generalize s.valves.latestHold.getLsbD v.val = held at *
    have hdue : duty = { u with hold := held }.dutyDue c := hduty
    obtain ⟨hhold, hdemand, hswitch⟩ := update_frame u c held
    refine ⟨hhold, hdemand, hswitch, fun hfault => update_of_fault hfault, fun h hstays => update_cycle h hstays hdue,
      fun h hzero => ?_, fun h hpos => update_of_switch_closed h (hdue ▸ hpos), fun h hpos hwaits k hk => ?_⟩
    · obtain ⟨htimer, hposition, hstate⟩ := update_of_undriven h (hdue.symm.trans hzero)
      rw [hposition]
      exact ⟨htimer, hstate, fun hclose => if_pos hclose, fun hclose k hlow hhigh => closedBy_of_pos hclose hlow hhigh⟩
    · have hopened : openedBy c u.position = k := openedBy_eq hk
      have hopen : c.confirm = .switch → u.endSwitch = false := fun hc => hwaits.resolve_left (by rw [hc]; nofun)
      have hdriven : 0 < { u with hold := held }.dutyDue c := hdue ▸ hpos
      refine ⟨fun hc => ?_, fun hc hk => ?_, fun hc hk htimer => ?_, fun n hc hstate hposition htimer => ?_⟩
      · rw [← hopened]
        exact update_of_timer h hdriven hc
      · rw [← hopened]
        exact update_of_travelling h hdriven hc (hopen hc) (by rwa [hopened])
      · exact update_starts_timer h hdriven hc (hopen hc) (hopened.trans hk) htimer
      · exact update_runs_timer h hdriven hc (hopen hc) hstate hposition htimer

end Sys2Proof.Machine

namespace Sys2Proof.Machine

/-! ## The hold set that is fixed (R129) -/

theorem holdable_iff (x : ValveState) : x.holdable = true ↔ x = .opening ∨ x = .opened ∨ x = .closing := by
  cases x <;> simp [ValveState.holdable]

theorem not_holdable_iff (x : ValveState) : x.holdable = false ↔ x = .closed ∨ x = .fault := by
  cases x <;> simp [ValveState.holdable]

/-- The channels of a hold set fixed now are those that R129 names. -/
theorem holdSetNow_fixed (s : State) :
    FixedHold s.settings.firing.fallbackChannel s.valves.channels s.firing.diverter (holdSetNow s).channels := by
  intro v
  have hnone : holdableChannels s = 0 ↔
      ∀ w, (s.valves.channels.get w).state = .closed ∨ (s.valves.channels.get w).state = .fault :=
    (setOf_eq_zero_iff _).trans (forall_congr' fun w => not_holdable_iff _)
  have hmember : (holdableChannels s).getLsbD v.val = decide ((s.valves.channels.get v).state = .opening ∨
      (s.valves.channels.get v).state = .opened ∨ (s.valves.channels.get v).state = .closing) := by
    rw [holdableChannels, getLsbD_setOf, Bool.eq_iff_iff, holdable_iff, decide_eq_true_eq]
  have hchannels : (holdSetNow s).channels =
      if holdableChannels s = 0 ∧ s.firing.diverter = false then single 16 s.settings.firing.fallbackChannel.val
      else holdableChannels s := rfl
  rw [← hmember, hchannels]
  by_cases hempty : holdableChannels s = 0
  · rw [hempty, decide_eq_true (hnone.1 hempty)]
    cases s.firing.diverter with
    | true => simp
    | false =>
      rw [if_pos ⟨rfl, rfl⟩, getLsbD_single _ _ s.settings.firing.fallbackChannel.isLt]
      simp [Fin.ext_iff]
  · rw [if_neg (fun h => hempty h.1), decide_eq_false (mt hnone.2 hempty)]
    simp

/-! ## The controller at SOFT RESET, state by state (R143) -/

section
variable (s : State)

theorem formFlow_of_not_firing (h : s.firing.state ≠ .firing) : formFlow s = s := if_neg h

/-- What the clearing and the retaking of the hot-water call leave of the controller outside FIRING. -/
def Firing.standing (f : Firing) : FiringState × Bool × Bool × Option Nat × Option Nat × Option Lockout ×
    Option HoldSet × Option Int × Int :=
  (f.state, f.pump, f.burner, f.minOff, f.overrun, f.lockout, f.hold, f.flowTarget, f.code)

theorem setDiverter_standing : (setDiverter s).firing.standing = s.firing.standing := by
  unfold setDiverter
  dsimp only
  split <;> rfl

variable {s}

theorem startCall_standing (h : s.firing.state ≠ .firing) : (startCall s).firing.standing = s.firing.standing := by
  rw [startCall, formFlow_of_not_firing _ (by rw [setDiverter_state]; exact h), setDiverter_standing]
  rfl

theorem endCall_standing (h : s.firing.state ≠ .firing) : (endCall s).firing.standing = s.firing.standing := by
  rw [endCall, formFlow_of_not_firing _ (by rw [setDiverter_state]; exact h), setDiverter_standing]
  rfl

/-- The hot-water call cleared and taken again (R143). -/
def callRetaken (s : State) : State := retakeCall (clearCall s)

theorem callRetaken_standing (h : s.firing.state ≠ .firing) :
    (callRetaken s).firing.standing = s.firing.standing := by
  have hcleared : (clearCall s).firing.standing = s.firing.standing := by
    unfold clearCall
    dsimp only
    split
    · exact endCall_standing (s := callForgotten s) h
    · exact setDiverter_standing (callForgotten s)
  unfold callRetaken retakeCall
  split
  · exact (startCall_standing (by rw [clearCall_state]; exact h)).trans hcleared
  · exact hcleared

theorem formFlow_valves (s : State) : (formFlow s).valves = s.valves := formFlow_keeps s .valves (by decide)

theorem callRetaken_valves (s : State) : (callRetaken s).valves = s.valves := by
  have hdiverter : ∀ u : State, (formFlow (setDiverter u)).valves = u.valves := fun u =>
    (formFlow_valves _).trans (setDiverter_hold u).2
  have hcleared : (clearCall s).valves = s.valves := by
    unfold clearCall
    dsimp only
    split
    · exact hdiverter _
    · exact (setDiverter_hold (callForgotten s)).2
  unfold callRetaken retakeCall
  split
  · exact (hdiverter _).trans hcleared
  · exact hcleared

theorem restartController_eq (s : State) : restartController s = callRetaken (restartFiring (clearFiring s)) := rfl

/-- A hold set of before the reset does not have the diverter (R143). -/
theorem dropHeldDiverter_held (s : State) : (dropHeldDiverter s).firing.diverterHeld = false := by
  have hold : (dropHeldDiverter s).firing.hold = s.firing.hold.map HoldSet.withoutDiverter := rfl
  rw [Firing.diverterHeld, hold]
  cases s.firing.hold <;> rfl

theorem restartFiring_of_firing (h : s.firing.state = .firing) : restartFiring s = runOn (dropHeldDiverter s) := by
  have hstate : (dropHeldDiverter s).firing.state = .firing := h
  rw [restartFiring, restartStates, hstate]
  rfl

theorem restartFiring_of_lockout (h : s.firing.state = .lockout) : restartFiring s =
    if s.firing.pump && !s.settings.firing.bypass then fixHold (dropHeldDiverter s) else dropHeldDiverter s := by
  have hstate : (dropHeldDiverter s).firing.state = .lockout := h
  rw [restartFiring, restartStates, hstate]
  rfl

theorem restartFiring_of_rest (h : s.firing.state = .idle ∨ s.firing.state = .waitPath ∨ s.firing.state = .blocked ∨
    s.firing.state = .overrun) : restartFiring s = idleAgain (dropHeldDiverter s) := by
  rcases h with h | h | h | h
  all_goals
    have hstate : (dropHeldDiverter s).firing.state = s.firing.state := rfl
    rw [restartFiring, restartStates, hstate, h]
    rfl

/-- The run-on as it begins, before its hold set is fixed (R128). -/
def runningOn (s : State) : State :=
  modFiring (fun f => { f with state := .overrun, overrun := startTimer (leaveFiring s).settings.firing.overrun })
    (leaveFiring s)

theorem runningOn_grounds (s : State) : (runningOn s).firing.grounds = s.firing.grounds := setBurner_grounds false s

theorem runningOn_settings (s : State) : (runningOn s).settings = s.settings :=
  (leaveFiring_reaches s).1 .settings (by decide)

theorem runningOn_valves (s : State) : (runningOn s).valves = s.valves := by
  unfold runningOn leaveFiring setBurner
  split <;> rfl

/-- The run-on's hold set is fixed where there is no bypass (R129). -/
theorem runOn_eq (s : State) : runOn s =
    if s.settings.firing.bypass then runningOn s else fixHold (runningOn s) := by
  have hsettings : (leaveFiring s).settings = s.settings := (leaveFiring_reaches s).1 .settings (by decide)
  rw [← hsettings]
  rfl

end
end Sys2Proof.Machine

namespace Sys2Proof.Machine

/-! ## The hold set and the diverter across SOFT RESET (R129, R139, R143) -/

/-- The hold set stays or is released, and the diverter line follows the call and the hold set as before. -/
structure HoldDropped (s t : State) : Prop where
  hold : t.firing.hold = s.firing.hold ∨ t.firing.hold = none
  follows : s.firing.DiverterFollows → t.firing.DiverterFollows

section
variable {s t u : State}

theorem HoldDropped.of_grounds (h : t.firing.grounds = s.firing.grounds) : HoldDropped s t := by
  refine ⟨.inl ?_, fun hs => hs.congr h⟩
  simp only [Firing.grounds, Prod.mk.injEq] at h
  obtain ⟨-, -, -, -, -, -, -, -, hhold⟩ := h
  exact hhold

theorem HoldDropped.refl (s : State) : HoldDropped s s := .of_grounds rfl

theorem HoldDropped.trans (h : HoldDropped s t) (k : HoldDropped t u) : HoldDropped s u where
  hold := by
    rcases k.hold with hk | hk
    · rw [hk]
      exact h.hold
    · exact .inr hk
  follows := k.follows ∘ h.follows

theorem releaseHold_dropped (s : State) : HoldDropped s (releaseHold s) :=
  ⟨.inr (releaseHold_hold s).1, fun _ => setDiverter_follows _⟩

theorem releaseAnyHold_dropped (s : State) : HoldDropped s (releaseAnyHold s) := by
  unfold releaseAnyHold
  split
  · exact releaseHold_dropped s
  · exact .refl s

theorem releaseAnyHold_hold (s : State) : (releaseAnyHold s).firing.hold = none := by
  unfold releaseAnyHold
  split
  · exact (releaseHold_hold s).1
  · next hnone => simpa using hnone

theorem enterFiring_dropped (s : State) : HoldDropped s (enterFiring s) := by
  obtain ⟨u, hu, hgrounds⟩ := exists_entered s
  rw [hu]
  exact (HoldDropped.of_grounds hgrounds).trans (releaseAnyHold_dropped u)

theorem select_dropped (s : State) : HoldDropped s (select s) := by
  unfold select
  split
  · exact enterFiring_dropped s
  · exact .of_grounds rfl

theorem selectQuiet_dropped (s : State) : HoldDropped s (selectQuiet s) := by
  unfold selectQuiet
  split
  · exact select_dropped s
  · exact select_dropped s
  · exact select_dropped s
  all_goals exact .refl s

theorem endOverrun_dropped (s : State) : HoldDropped s (endOverrun s) := by
  have hended : HoldDropped s (runOnEnded s) :=
    ((HoldDropped.of_grounds (setPump_grounds false s)).trans (releaseHold_dropped _)).trans (.of_grounds rfl)
  rw [endOverrun_eq]
  split
  · exact enterFiring_dropped s
  · exact hended.trans (selectQuiet_dropped _)

/-- Where FIRING need not be left, no hold set is fixed. -/
theorem settle_dropped (h : s.firing.state = .firing → mustStop s = false) : HoldDropped s (settle s) := by
  unfold settle
  split
  · exact select_dropped s
  · exact select_dropped s
  · exact select_dropped s
  · split
    · exact enterFiring_dropped s
    · exact .refl s
  · next hfiring =>
    rw [if_neg (by simp [h hfiring])]
    exact .refl s
  · exact .refl s

theorem settleReport_dropped (s : State) : HoldDropped (reported s) (settleReport s) := by
  rw [settleReport_eq]
  split
  · exact endOverrun_dropped _
  · exact .refl _

/-! ### The hold set that the reset fixes -/

theorem HoldInForce.congr {channels : ChannelSet → Prop} {diverter : Bool} (h : HoldInForce s channels diverter)
    (hhold : t.firing.hold = s.firing.hold) (hlatest : t.valves.latestHold = s.valves.latestHold) :
    HoldInForce t channels diverter := by
  unfold HoldInForce
  rw [hhold, hlatest]
  exact h

theorem fixHold_inForce (s : State) : HoldInForce (fixHold s)
    (FixedHold s.settings.firing.fallbackChannel s.valves.channels s.firing.diverter) s.firing.diverter :=
  ⟨holdSetNow s, rfl, rfl, holdSetNow_fixed s, rfl⟩

/-- The states in which the reset fixes a hold set (R143). -/
def FixesHold (s : State) : Prop :=
  s.settings.firing.bypass = false ∧
    (s.firing.state = .firing ∨ (s.firing.state = .lockout ∧ s.firing.pump = true))

theorem restartFiring_fixes (h : FixesHold s) : ∃ y, y.settings = s.settings ∧ y.valves = s.valves ∧
    y.firing.diverter = s.firing.diverter ∧ restartFiring s = fixHold y := by
  obtain ⟨hbypass, hfiring | ⟨hlockout, hpump⟩⟩ := h
  · refine ⟨runningOn (dropHeldDiverter s), runningOn_settings _, runningOn_valves _, ?_, ?_⟩
    · have hgrounds := runningOn_grounds (dropHeldDiverter s)
      simp only [Firing.grounds, Prod.mk.injEq] at hgrounds
      obtain ⟨-, -, -, -, -, -, -, hdiverter, -⟩ := hgrounds
      exact hdiverter
    · rw [restartFiring_of_firing hfiring, runOn_eq]
      exact if_neg (by simp [dropHeldDiverter, modFiring, hbypass])
  · refine ⟨dropHeldDiverter s, rfl, rfl, rfl, ?_⟩
    rw [restartFiring_of_lockout hlockout, if_pos (by simp [hpump, hbypass])]

/-- In the other states no hold set has the diverter afterwards. -/
theorem restartFiring_free (h : ¬FixesHold s) : (restartFiring s).firing.diverterHeld = false := by
  have hrest : s.firing.state = .idle ∨ s.firing.state = .waitPath ∨ s.firing.state = .blocked ∨
      s.firing.state = .overrun → (restartFiring s).firing.diverterHeld = false := by
    intro hstate
    have hnone : (idleAgain (dropHeldDiverter s)).firing.hold = none := releaseAnyHold_hold _
    rw [restartFiring_of_rest hstate, Firing.diverterHeld, hnone]
    rfl
  cases hstate : s.firing.state with
  | firing =>
    have hbypass : s.settings.firing.bypass = true := by
      by_contra hne
      exact h ⟨by simpa using hne, .inl hstate⟩
    have hgrounds := runningOn_grounds (dropHeldDiverter s)
    simp only [Firing.grounds, Prod.mk.injEq] at hgrounds
    obtain ⟨-, -, -, -, -, -, -, -, hhold⟩ := hgrounds
    rw [restartFiring_of_firing hstate, runOn_eq,
      if_pos (show (dropHeldDiverter s).settings.firing.bypass = true from hbypass), Firing.diverterHeld, hhold]
    exact dropHeldDiverter_held s
  | lockout =>
    have hquiet : ¬(s.firing.pump && !s.settings.firing.bypass) = true := by
      intro hfixes
      simp only [Bool.and_eq_true, Bool.not_eq_true'] at hfixes
      exact h ⟨hfixes.2, .inr ⟨hstate, hfixes.1⟩⟩
    rw [restartFiring_of_lockout hstate, if_neg hquiet]
    exact dropHeldDiverter_held s
  | idle => exact hrest (.inl hstate)
  | waitPath => exact hrest (.inr (.inl hstate))
  | blocked => exact hrest (.inr (.inr (.inl hstate)))
  | overrun => exact hrest (.inr (.inr (.inr hstate)))

theorem restartFiring_ne_firing (s : State) : (restartFiring s).firing.state ≠ .firing := by
  obtain ⟨-, -, hleft⟩ := restartStates_spec (dropHeldDiverter s)
  exact hleft

theorem restartController_standing (s : State) :
    (restartController s).firing.standing = (restartFiring (clearFiring s)).firing.standing :=
  callRetaken_standing (restartFiring_ne_firing _)

theorem restartController_hold (s : State) :
    (restartController s).firing.hold = (restartFiring (clearFiring s)).firing.hold := by
  have h := restartController_standing s
  simp only [Firing.standing, Prod.mk.injEq] at h
  obtain ⟨-, -, -, -, -, -, hhold, -⟩ := h
  exact hhold

theorem restartController_inForce (h : FixesHold s) : HoldInForce (restartController s)
    (FixedHold s.settings.firing.fallbackChannel s.valves.channels s.firing.diverter) s.firing.diverter := by
  obtain ⟨y, hsettings, hvalves, hdiverter, hy⟩ := restartFiring_fixes (s := clearFiring s) h
  have hfixed := fixHold_inForce y
  rw [hsettings, hvalves, hdiverter, ← hy] at hfixed
  exact hfixed.congr (restartController_hold s)
    (congrArg Valves.latestHold (callRetaken_valves (restartFiring (clearFiring s))))

theorem restartController_free (h : ¬FixesHold s) : (restartController s).firing.diverterHeld = false := by
  rw [Firing.diverterHeld, restartController_hold]
  exact restartFiring_free (s := clearFiring s) h

/-! ### The controller with the driver around it -/

/-- x is the controller restarted from y, a state as s with the channels that x or s has. -/
structure RestartedFrom (s y x : State) : Prop where
  firing : y.firing = s.firing
  settings : y.settings = s.settings
  channels : y.valves.channels = s.valves.channels ∨ y.valves.channels = x.valves.channels
  controller : x.firing = (restartController y).firing
  latest : x.valves.latestHold = (restartController y).valves.latestHold

theorem bothRestarted_from (driverFirst : Bool) (s : State) :
    ∃ y, RestartedFrom s y (bothRestarted driverFirst s) := by
  cases driverFirst
  · exact ⟨s, rfl, rfl, .inl rfl, rfl, rfl⟩
  · obtain ⟨hchannels, -, -⟩ := (restartController_reaches (restartDriver s)).2
    exact ⟨restartDriver s, rfl, rfl, .inr hchannels.symm, rfl, rfl⟩

/-- The controller and the driver restarted, with the order that a soft reset of s takes. -/
def controlRestarted (s : State) : State := bothRestarted s.orders.next.driverFirst (restartBegun s)

theorem controlRestarted_from (s : State) : ∃ y, RestartedFrom s y (controlRestarted s) := by
  obtain ⟨y, hfiring, hsettings, hchannels, hcontroller, hlatest⟩ :=
    bothRestarted_from s.orders.next.driverFirst (restartBegun s)
  exact ⟨y, hfiring, hsettings, hchannels, hcontroller, hlatest⟩

/-- What the matrix and the ports do afterwards leaves the controller and the driver. -/
theorem softReset_firing (p : Port) (s : State) :
    (softReset p s).firing = (settle (settleReport (controlRestarted s))).firing ∧
      (softReset p s).valves = (settle (settleReport (controlRestarted s))).valves :=
  have htaken := takeAroundReset_keeps (restartControlled s) s.orders.next.matrixAt
  ⟨htaken .firing (by decide), htaken .valves (by decide)⟩

theorem controlRestarted_controller (s : State) : ControllerRestarted (restartBegun s) (controlRestarted s) :=
  bothRestarted_restarted _ _

/-- The demand that the restarted controller holds is blank. -/
theorem controlRestarted_calling (s : State) : (controlRestarted s).firing.demand.calling = 0 := by
  have hmemory := (controlRestarted_controller s).memory
  simp only [Firing.memory, Firing.memoryAfterReset, Prod.mk.injEq] at hmemory
  obtain ⟨-, -, -, -, hcopy, -⟩ := hmemory
  exact congrArg Demand.calling hcopy

/-- At the end the hold set is the one of the restart or released, and the diverter line follows. -/
theorem softReset_dropped (s : State) :
    HoldDropped (reported (controlRestarted s)) (settle (settleReport (controlRestarted s))) := by
  obtain ⟨-, -, hfollows, hleft⟩ := controlRestarted_controller s
  refine (settleReport_dropped _).trans (settle_dropped ?_)
  rw [settleReport_eq]
  split
  · exact endOverrun_mustStop hfollows (controlRestarted_calling s)
  · exact fun hfiring => absurd hfiring hleft

theorem softReset_follows (p : Port) (s : State) : (softReset p s).firing.DiverterFollows := by
  rw [(softReset_firing p s).1]
  exact (softReset_dropped s).follows (controlRestarted_controller s).follows

/-- A hold set that has the diverter afterwards was fixed by the reset. -/
theorem softReset_held (p : Port) (h : (softReset p s).firing.diverterHeld = true) :
    FixesHold s ∧ s.firing.diverter = true := by
  obtain ⟨y, hy⟩ := controlRestarted_from s
  have hfixes : FixesHold y ↔ FixesHold s := by rw [FixesHold, hy.firing, hy.settings, ← FixesHold]
  have hreported : (reported (controlRestarted s)).firing.hold = (restartController y).firing.hold := by
    rw [← hy.controller]
    rfl
  have hhold : (softReset p s).firing.hold = (restartController y).firing.hold := by
    rw [(softReset_firing p s).1]
    rcases (softReset_dropped s).hold with hkept | hnone
    · exact hkept.trans hreported
    · rw [(softReset_firing p s).1, Firing.diverterHeld, hnone] at h
      cases h
  rw [Firing.diverterHeld, hhold] at h
  by_cases hy' : FixesHold y
  · obtain ⟨set, hset, -, -, hdiverter⟩ := restartController_inForce hy'
    rw [hset] at h
    exact ⟨hfixes.1 hy', by rw [← hy.firing, ← hdiverter]; exact h⟩
  · exact absurd ((restartController_free hy').symm.trans h) (by decide)

end
end Sys2Proof.Machine

namespace Sys2Proof.Machine

/-! ## The firing state across SOFT RESET (R143) -/

section
variable {s : State}

/-- Where neither the run-on ends nor the state settles into another one, the restarted controller stands. -/
theorem softReset_of_still (p : Port)
    (hover : ¬((controlRestarted s).firing.state = .overrun ∧ (controlRestarted s).firing.overrun.isNone = true))
    (hsettle : settle (reported (controlRestarted s)) = reported (controlRestarted s)) :
    (softReset p s).firing = (reported (controlRestarted s)).firing ∧
      (softReset p s).valves = (reported (controlRestarted s)).valves := by
  have hreport : settleReport (controlRestarted s) = reported (controlRestarted s) := by
    rw [settleReport_eq]
    exact if_neg hover
  obtain ⟨hfiring, hvalves⟩ := softReset_firing p s
  rw [hfiring, hvalves, hreport, hsettle]
  exact ⟨rfl, rfl⟩

/-- A hold set that the reset fixes is in force after it, with the channels of before or of after the driver's reset. -/
theorem softReset_inForce (p : Port) (h : FixesHold s)
    (hfiring : (softReset p s).firing = (reported (controlRestarted s)).firing)
    (hvalves : (softReset p s).valves = (reported (controlRestarted s)).valves) :
    HoldInForce (softReset p s) (fun set =>
      FixedHold s.settings.firing.fallbackChannel s.valves.channels s.firing.diverter set ∨
        FixedHold s.settings.firing.fallbackChannel (softReset p s).valves.channels s.firing.diverter set)
      s.firing.diverter := by
  obtain ⟨y, hy⟩ := controlRestarted_from s
  have hfixes : FixesHold y := by rwa [FixesHold, hy.firing, hy.settings, ← FixesHold]
  obtain ⟨set, hset, hlatest, hchannels, hdiverter⟩ := restartController_inForce hfixes
  rw [hy.firing, hy.settings] at hchannels
  refine ⟨set, ?_, ?_, ?_, hdiverter.trans (by rw [hy.firing])⟩
  · rw [hfiring, ← hset, ← hy.controller]
    rfl
  · rw [hvalves, ← hlatest, ← hy.latest]
    rfl
  · rcases hy.channels with hbefore | hafter
    · exact .inl (hbefore ▸ hchannels)
    · refine .inr ?_
      have hsame : (softReset p s).valves.channels = y.valves.channels := by
        rw [hvalves, hafter]
        rfl
      rw [hsame]
      exact hchannels

/-- What the restarted controller shows, from what the state machine's own restart shows. -/
theorem controlRestarted_standing (s : State) : ∃ y, y.firing = s.firing ∧ y.settings = s.settings ∧
    (controlRestarted s).firing.standing = (restartFiring (clearFiring y)).firing.standing := by
  obtain ⟨y, hy⟩ := controlRestarted_from s
  exact ⟨y, hy.firing, hy.settings, by rw [hy.controller]; exact restartController_standing y⟩

theorem selection_ne_firing_of_minOff {n : Nat} (h : s.firing.minOff = some n) : selection s ≠ .firing := by
  intro hselected
  obtain ⟨-, -, hpermitted⟩ := (selection_eq_firing_iff s).1 hselected
  simp [permitted, h] at hpermitted

theorem runOn_targets (s : State) : (runOn s).firing.flowTarget = none ∧ (runOn s).firing.code = 0 := by
  rw [runOn_eq]
  split <;> exact ⟨rfl, rfl⟩

/-- FIRING goes to OVERRUN with the burner OFF, the pump as it was and both timers started (R126 to R128, R143). -/
theorem controlRestarted_of_firing (h : s.firing.state = .firing) :
    (controlRestarted s).firing.state = .overrun ∧ (controlRestarted s).firing.pump = s.firing.pump ∧
      (controlRestarted s).firing.burner = false ∧
      (controlRestarted s).firing.minOff = startTimer s.settings.firing.minOff ∧
      (controlRestarted s).firing.overrun = startTimer s.settings.firing.overrun ∧
      (controlRestarted s).firing.flowTarget = none ∧ (controlRestarted s).firing.code = 0 := by
  obtain ⟨y, hfiring, hsettings, hstanding⟩ := controlRestarted_standing s
  obtain ⟨-, houtputs, hoverrun⟩ := runOn_shows (s := dropHeldDiverter (clearFiring y))
  obtain ⟨htarget, hcode⟩ := runOn_targets (dropHeldDiverter (clearFiring y))
  have hstate : (clearFiring y).firing.state = .firing := (congrArg Firing.state hfiring).trans h
  rw [restartFiring_of_firing hstate] at hstanding
  simp only [Firing.outputs, Prod.mk.injEq] at houtputs
  obtain ⟨hburner, hpump, -, hover, -, -, -, hminOff⟩ := houtputs
  simp only [Firing.standing, Prod.mk.injEq] at hstanding
  obtain ⟨hstate', hpump', hburner', hminOff', hoverrun', -, -, htarget', hcode'⟩ := hstanding
  rw [← hsettings, ← hfiring]
  exact ⟨hstate'.trans hover, hpump'.trans hpump, hburner'.trans hburner, hminOff'.trans hminOff,
    hoverrun'.trans hoverrun, htarget'.trans htarget, hcode'.trans hcode⟩

/-- LOCKOUT stays with its record, its pump and its timer (R143). -/
theorem controlRestarted_of_lockout (h : s.firing.state = .lockout) :
    (controlRestarted s).firing.state = .lockout ∧ (controlRestarted s).firing.lockout = s.firing.lockout ∧
      (controlRestarted s).firing.pump = s.firing.pump ∧ (controlRestarted s).firing.minOff = s.firing.minOff := by
  obtain ⟨y, hfiring, -, hstanding⟩ := controlRestarted_standing s
  have hlockout : (clearFiring y).firing.state = .lockout := (congrArg Firing.state hfiring).trans h
  have hkept : (restartFiring (clearFiring y)).firing.outputs = y.firing.outputs := by
    rw [restartFiring_of_lockout hlockout]
    split <;> rfl
  rw [hfiring] at hkept
  simp only [Firing.outputs, Prod.mk.injEq] at hkept
  obtain ⟨-, hpump, -, hstate, hrecord, -, -, hminOff⟩ := hkept
  simp only [Firing.standing, Prod.mk.injEq] at hstanding
  obtain ⟨hstate', hpump', -, hminOff', -, hrecord', -⟩ := hstanding
  exact ⟨(hstate'.trans hstate).trans h, hrecord'.trans hrecord, hpump'.trans hpump, hminOff'.trans hminOff⟩

/-- The other states go to IDLE with the pump OFF and no hold set (R143). -/
theorem controlRestarted_of_rest (h : s.firing.state = .idle ∨ s.firing.state = .waitPath ∨
    s.firing.state = .blocked ∨ s.firing.state = .overrun) :
    (controlRestarted s).firing.state = .idle ∧ (controlRestarted s).firing.pump = false ∧
      (controlRestarted s).firing.hold = none ∧ (controlRestarted s).firing.minOff = s.firing.minOff := by
  obtain ⟨y, hfiring, -, hstanding⟩ := controlRestarted_standing s
  have hrest : restartFiring (clearFiring y) = idleAgain (dropHeldDiverter (clearFiring y)) := by
    refine restartFiring_of_rest ?_
    have hstate : (clearFiring y).firing.state = s.firing.state :=
      (show (clearFiring y).firing.state = y.firing.state from rfl).trans (congrArg Firing.state hfiring)
    rwa [hstate]
  have hsilent := (releaseAnyHold_silent (setPump false (modFiring (fun f => { f with state := .idle, overrun := none })
    (dropHeldDiverter (clearFiring y))))).outputs
  rw [show releaseAnyHold _ = restartFiring (clearFiring y) from hrest.symm] at hsilent
  simp only [Firing.outputs, (setPump_spec _ false).1, Prod.mk.injEq] at hsilent
  obtain ⟨-, hpump, -, hstate, -, -, -, hminOff⟩ := hsilent
  have hnone : (restartFiring (clearFiring y)).firing.hold = none := by
    rw [hrest]
    exact releaseAnyHold_hold _
  simp only [Firing.standing, Prod.mk.injEq] at hstanding
  obtain ⟨hstate', hpump', -, hminOff', -, -, hhold', -⟩ := hstanding
  rw [← hfiring]
  exact ⟨hstate'.trans hstate, hpump'.trans hpump, hhold'.trans hnone, hminOff'.trans hminOff⟩

/-- With the mode OFF no call is taken again (R137, R143). -/
theorem controlRestarted_call (h : s.settings.hotWater.mode = .off) : (controlRestarted s).firing.call = false := by
  have hcleared : ∀ u : State, u.settings.hotWater.mode = .off → (callRetaken u).firing.call = false := by
    intro u hu
    have hkeeps : (clearCall u).settings = u.settings := (clearCall_reaches u).1 .settings (by decide)
    have hunwanted : callWanted (clearCall u) = false := by simp [callWanted, hkeeps, hu]
    have hcall : (clearCall u).firing.call = false := by
      have hdiverter : ∀ w : State, (setDiverter w).firing.call = w.firing.call := fun w => by
        unfold setDiverter
        dsimp only
        split <;> rfl
      have hflow : ∀ w : State, (formFlow w).firing.call = w.firing.call := fun w => by
        have hgrounds := formFlow_grounds w
        simp only [Firing.grounds, Prod.mk.injEq] at hgrounds
        obtain ⟨-, -, hcall, -⟩ := hgrounds
        exact hcall
      unfold clearCall
      dsimp only
      split
      · exact (hflow _).trans (hdiverter _)
      · next hnone => exact (hdiverter _).trans (by simpa using hnone)
    rw [callRetaken, retakeCall, if_neg (by simp [hunwanted])]
    exact hcall
  obtain ⟨y, hy⟩ := controlRestarted_from s
  rw [hy.controller, restartController_eq]
  refine hcleared _ ?_
  have hsettings : (restartFiring (clearFiring y)).settings = y.settings :=
    (restartStates_reaches (dropHeldDiverter (clearFiring y))).1 .settings (by decide)
  rw [hsettings, hy.settings]
  exact h

/-- Without a call and without demand the selection is IDLE (R122). -/
theorem selection_of_no_call (hcalling : s.firing.demand.calling = 0) (hcall : s.firing.call = false) :
    selection s = .idle := by
  simp [selection, Firing.anyCall, Firing.heatingCall, Firing.heatingZones, Firing.zoneDemand, hcalling, hcall]

end

/-- Settles O10: what the reset makes of the controller in each state stands, as neither the run-on's end nor the
selection moves it; the diverter line follows the call and the hold set at the end. -/
theorem softResetRestartsController : Obligations.SoftResetRestartsController := by
  intro p s hp
  have hrow := exec_softReset p hp
  have hfollows : (softReset p s).firing.diverter =
      ((softReset p s).firing.call || (softReset p s).firing.diverterHeld) := softReset_follows p s
  refine ⟨⟨_, hrow, fun hon => ?_⟩, fun hlockout => ⟨_, hrow, ?_⟩, fun hfiring hminOff hoverrun => ⟨_, hrow, ?_⟩,
    fun hrest hmode => ⟨_, hrow, ?_⟩⟩
  · rw [hfollows, Bool.or_eq_true] at hon
    refine hon.imp_right fun hheld => ?_
    obtain ⟨⟨hbypass, -⟩, hdiverter⟩ := softReset_held p hheld
    refine ⟨hbypass, hdiverter, ?_⟩
    unfold Firing.diverterHeld at hheld
    cases hhold : (softReset p s).firing.hold with
    | none => rw [hhold] at hheld; cases hheld
    | some set => rw [hhold] at hheld; exact ⟨set, rfl, hheld⟩
  · obtain ⟨hstate, hrecord, hpump, hminOff⟩ := controlRestarted_of_lockout hlockout
    have hsettle : settle (reported (controlRestarted s)) = reported (controlRestarted s) := by
      have hreported : (reported (controlRestarted s)).firing.state = .lockout := hstate
      rw [settle, hreported]
    obtain ⟨hcontroller, hdriver⟩ := softReset_of_still p (by simp [hstate]) hsettle
    refine ⟨?_, ?_, ?_, ?_, fun hon hbypass =>
      softReset_inForce p ⟨hbypass, .inr ⟨hlockout, hon⟩⟩ hcontroller hdriver, fun hfree => ?_⟩
    · rw [hcontroller]; exact hstate
    · rw [hcontroller]; exact hrecord
    · rw [hcontroller]; exact hpump
    · rw [hcontroller]; exact hminOff
    · have hnotHeld : (softReset p s).firing.diverterHeld = false := by
        by_contra hheld
        obtain ⟨⟨hbypass, hstates⟩, -⟩ := softReset_held p (by simpa using hheld)
        rcases hstates with hfiring | ⟨-, hon⟩
        · exact absurd (hlockout.symm.trans hfiring) (by decide)
        · rcases hfree with hoff | hset
          · exact absurd (hon.symm.trans hoff) (by decide)
          · exact absurd (hbypass.symm.trans hset) (by decide)
      rw [hfollows, hnotHeld, Bool.or_false]
  · obtain ⟨hstate, hpump, hburner, htimer, hrunOn, htarget, hcode⟩ := controlRestarted_of_firing hfiring
    rw [startTimer, if_neg (by omega)] at htimer hrunOn
    have hsettle : settle (reported (controlRestarted s)) = reported (controlRestarted s) := by
      have hreported : (reported (controlRestarted s)).firing.state = .overrun := hstate
      have hbarred : selection (reported (controlRestarted s)) ≠ .firing := selection_ne_firing_of_minOff htimer
      rw [settle, hreported]
      exact if_neg hbarred
    obtain ⟨hcontroller, hdriver⟩ := softReset_of_still p (by simp [hrunOn]) hsettle
    refine ⟨?_, ?_, ?_, ?_, ?_, ?_, ?_, fun hbypass =>
      softReset_inForce p ⟨hbypass, .inl hfiring⟩ hcontroller hdriver⟩
    all_goals rw [hcontroller]
    exacts [hstate, hburner, hpump, htimer, hrunOn, htarget, hcode]
  · obtain ⟨hstate, hpump, hhold, hminOff⟩ := controlRestarted_of_rest hrest
    have hcall := controlRestarted_call hmode
    have hidle : selection (reported (controlRestarted s)) = .idle :=
      selection_of_no_call (controlRestarted_calling s) hcall
    have hsettled : settle (reported (controlRestarted s)) = enterQuiet .idle (reported (controlRestarted s)) := by
      have hreported : (reported (controlRestarted s)).firing.state = .idle := hstate
      rw [settle, hreported]
      show select _ = _
      rw [select, hidle, if_neg (by decide)]
    have hreport : settleReport (controlRestarted s) = reported (controlRestarted s) := by
      rw [settleReport_eq]
      exact if_neg (by simp [reported, modFiring, setReport, hstate])
    have hcontroller : (softReset p s).firing = (enterQuiet .idle (reported (controlRestarted s))).firing := by
      rw [(softReset_firing p s).1, hreport, hsettled]
    have hnone : (softReset p s).firing.hold = none := by rw [hcontroller]; exact hhold
    have hquiet : (softReset p s).firing.call = false := by rw [hcontroller]; exact hcall
    refine ⟨?_, ?_, hnone, hquiet, ?_, ?_⟩
    · rw [hcontroller]; rfl
    · rw [hcontroller]; exact hpump
    · rw [hfollows, hquiet, Firing.diverterHeld, hnone]; rfl
    · rw [hcontroller]; exact hminOff

end Sys2Proof.Machine

namespace Sys2Proof.Machine

/-! ## What a settling state leaves of the hot-water call (R137, R139) -/

/-- The call stays, and while it has the diverter so do the diverter line and the hot-water path. -/
structure CallStands (s t : State) : Prop where
  call : t.firing.call = s.firing.call
  path : s.firing.call = true → s.firing.diverter = true →
    t.firing.diverter = true ∧ t.firing.dhwPath = s.firing.dhwPath

section
variable {s t u : State}

theorem CallStands.of_grounds (h : t.firing.grounds = s.firing.grounds) : CallStands s t := by
  simp only [Firing.grounds, Prod.mk.injEq] at h
  obtain ⟨-, -, hcall, hpath, -, -, -, hdiverter, -⟩ := h
  exact ⟨hcall, fun _ hon => ⟨hdiverter.trans hon, hpath⟩⟩

theorem CallStands.refl (s : State) : CallStands s s := .of_grounds rfl

theorem CallStands.trans (h : CallStands s t) (k : CallStands t u) : CallStands s u where
  call := k.call.trans h.call
  path hcall hon := by
    obtain ⟨hdiverter, hpath⟩ := h.path hcall hon
    obtain ⟨hdiverter', hpath'⟩ := k.path (h.call.trans hcall) hdiverter
    exact ⟨hdiverter', hpath'.trans hpath⟩

variable (s)

theorem setDiverter_stands : CallStands s (setDiverter s) := by
  unfold setDiverter
  dsimp only
  split
  · exact .refl s
  · next hne => exact ⟨rfl, fun hcall hon => absurd (by simp [hcall, hon]) hne⟩

theorem releaseHold_stands : CallStands s (releaseHold s) :=
  CallStands.trans (t := writeHold 0 (modFiring (fun f => { f with hold := none }) s))
    ⟨rfl, fun _ hon => ⟨hon, rfl⟩⟩ (setDiverter_stands _)

theorem releaseAnyHold_stands : CallStands s (releaseAnyHold s) := by
  unfold releaseAnyHold
  split
  · exact releaseHold_stands s
  · exact .refl s

theorem enterFiring_stands : CallStands s (enterFiring s) := by
  obtain ⟨u, hu, hgrounds⟩ := exists_entered s
  rw [hu]
  exact (CallStands.of_grounds hgrounds).trans (releaseAnyHold_stands u)

theorem select_stands : CallStands s (select s) := by
  unfold select
  split
  · exact enterFiring_stands s
  · exact .of_grounds rfl

theorem selectQuiet_stands : CallStands s (selectQuiet s) := by
  unfold selectQuiet
  split
  · exact select_stands s
  · exact select_stands s
  · exact select_stands s
  all_goals exact .refl s

theorem endOverrun_stands : CallStands s (endOverrun s) := by
  have hended : CallStands s (runOnEnded s) :=
    ((CallStands.of_grounds (setPump_grounds false s)).trans (releaseHold_stands _)).trans (.of_grounds rfl)
  rw [endOverrun_eq]
  split
  · exact enterFiring_stands s
  · exact hended.trans (selectQuiet_stands _)

theorem enterOverrun_stands : CallStands s (enterOverrun s) := by
  have hstarted : CallStands s (startOverrun s) := by
    unfold startOverrun
    dsimp only
    split <;> exact ⟨rfl, fun _ hon => ⟨hon, rfl⟩⟩
  unfold enterOverrun
  split
  · exact hstarted.trans (endOverrun_stands _)
  · exact hstarted

theorem settle_stands : CallStands s (settle s) := by
  unfold settle
  split
  · exact select_stands s
  · exact select_stands s
  · exact select_stands s
  · split
    · exact enterFiring_stands s
    · exact .refl s
  · split
    · have hleft : CallStands s (leaveFiring s) := .of_grounds (setBurner_grounds false s)
      exact hleft.trans (enterOverrun_stands _)
    · exact .refl s
  · exact .refl s

/-! ## The hot-water call as it is derived (R137) -/

theorem startCall_call : (startCall s).firing.call = true :=
  ((CallStands.of_grounds (formFlow_grounds _)).call).trans (setDiverter_stands _).call

theorem endCall_call : (endCall s).firing.call = false :=
  ((CallStands.of_grounds (formFlow_grounds _)).call).trans (setDiverter_stands _).call

/-- After its derivation the call is what its causes have it. -/
theorem deriveCall_call : (deriveCall s).firing.call = callWanted s := by
  unfold deriveCall
  split
  · next h =>
    obtain ⟨hwanted, -⟩ := Bool.and_eq_true _ _ ▸ h
    rw [(settle_stands _).call, startCall_call, hwanted]
  · next hstart =>
    split
    · next h =>
      obtain ⟨hwanted, -⟩ := Bool.and_eq_true _ _ ▸ h
      rw [(settle_stands _).call, endCall_call]
      simpa using hwanted
    · next hend =>
      cases hwanted : callWanted s <;> cases hcall : s.firing.call <;> simp_all

theorem deriveCall_timedCall : (deriveCall s).firing.timedCall = s.firing.timedCall := by
  have hpassage : ∀ u v : State, Settling u v → (settle v).firing.timedCall = u.firing.timedCall := by
    intro u v h
    have hmemory := (settle_memory v).trans h.memory
    simp only [Firing.memory, Prod.mk.injEq] at hmemory
    obtain ⟨-, -, -, htimed, -⟩ := hmemory
    exact htimed
  unfold deriveCall
  split
  · exact hpassage s _ (startCall_settling s)
  · split
    · exact hpassage s _ (endCall_settling s)
    · rfl

/-- The causes of the call, mode by mode (R137). -/
theorem callWanted_eq : callWanted s = (decide (s.settings.hotWater.mode ≠ .off) && (s.firing.timedCall.isSome ||
    (s.inputs.request && (decide (s.settings.hotWater.mode = .follow) ||
      (decide (s.settings.hotWater.mode = .gate) && s.firing.schedule))))) := by
  unfold callWanted ownCondition
  cases s.settings.hotWater.mode <;> cases s.inputs.request <;> cases s.firing.timedCall <;> simp

end
end Sys2Proof.Machine

namespace Sys2Proof.Machine

/-! ## A written setting and the block that owns it (R180) -/

/-- The state with the setting written, before the owning block acts. -/
def writtenWith (q : Param) (value : Int) (s : State) : State :=
  setSettings (q.write s.settings value) (nothingRaised s)

/-- What PARAM SET leaves of the settings, the controller, the driver and the notices, and its response. -/
structure ParamWritten (p : Port) (q : Param) (value : Int) (s t : State) : Prop where
  keeps : Keeps (responseParts ++ .settings :: q.parts) s t
  answered : t.answered = some (p, writtenResponse s.settings (q.write s.settings value) q)
  settings : t.settings = q.write s.settings value
  firing : t.firing = (q.act (writtenWith q value s)).firing
  valves : t.valves = (q.act (writtenWith q value s)).valves
  notices : t.notices = (q.act (writtenWith q value s)).notices

section
variable {p : Port} {q : Param} {value : Int} {s t : State}

theorem exists_paramWritten {group idx field : Int} (hp : s.powered = true) (hq : paramOf group idx field = some q) :
    ∃ t, exec (.paramSet p group idx field value) s = .next t ∧ ParamWritten p q value s t := by
  obtain ⟨t, ht, hkeeps, hanswered, hafter⟩ := paramSet_written p value hp hq
  exact ⟨t, ht, hkeeps, hanswered, (hafter .settings (by decide)).trans (settingWritten_settings value),
    hafter .firing (by decide), hafter .valves (by decide), hafter .notices (by decide)⟩

/-- The response of a setting that can move one other (R180). -/
theorem writtenResponse_of_single {before after : Settings} {r : Param} (h : movable q = [r]) :
    writtenResponse before after q = .ok (if r.read before = r.read after then [num (q.read after), num 0]
      else [num (q.read after), num 1] ++ movedFields after r) := by
  by_cases hr : r.read before = r.read after
  · simp [writtenResponse, movedParams, h, hr, num, count]
  · simp [writtenResponse, movedParams, h, hr, num, count]

/-- The response of a setting that moves no other (R180). -/
theorem writtenResponse_of_none {before after : Settings} (h : movable q = []) :
    writtenResponse before after q = .ok [num (q.read after), num 0] := by
  simp [writtenResponse, movedParams, h, num, count]

theorem clampNat_of_le {n d : Nat} (h : d ≤ n) : clampNat 0 n d = d := by
  rw [clampNat, clamp_of_mem (by omega) (by omega)]
  rfl

/-! ### Minimum and maximum duty (R100) -/

theorem paramOf_minDuty (v : Fin 16) : paramOf 3 v.val 1 = some (.minDuty v) := by
  show (index 16 v.val).bind (fun v => valveParam v 1) = _
  rw [index_val]
  rfl

theorem paramOf_maxDuty (v : Fin 16) : paramOf 3 v.val 2 = some (.maxDuty v) := by
  show (index 16 v.val).bind (fun v => valveParam v 2) = _
  rw [index_val]
  rfl

theorem write_minDuty (v : Fin 16) {d : Nat} (hd : d ≤ 63) (c : Settings) :
    ((Param.write c d (.minDuty v)).valves.get v) = (c.valves.get v).writeMin d :=
  (Tab.get_modify_self _ _ _).trans (congrArg _ (clampNat_of_le hd))

theorem write_maxDuty (v : Fin 16) {d : Nat} (hd : d ≤ 63) (c : Settings) :
    ((Param.write c d (.maxDuty v)).valves.get v) = (c.valves.get v).writeMax d :=
  (Tab.get_modify_self _ _ _).trans (congrArg _ (clampNat_of_le hd))

/-- The response of a written minimum duty names the maximum duty where it moved (R100). -/
theorem minDuty_response (v : Fin 16) {d : Nat} (hd : d ≤ 63) (c : Settings) :
    ((c.valves.get v).maxDuty < d → writtenResponse c (Param.write c d (.minDuty v)) (.minDuty v) =
      .ok [.word d, .word 1, .word 3, .word v.val, .word 2, .word d]) ∧
    (d ≤ (c.valves.get v).maxDuty → writtenResponse c (Param.write c d (.minDuty v)) (.minDuty v) =
      .ok [.word d, .word 0]) := by
  have hmin : (Param.minDuty v).read (Param.write c d (.minDuty v)) = d :=
    congrArg (fun x => (x.minDuty : Int)) (write_minDuty v hd c)
  have hmax : (Param.maxDuty v).read (Param.write c d (.minDuty v)) = (max (c.valves.get v).maxDuty d : Nat) :=
    congrArg (fun x => (x.maxDuty : Int)) (write_minDuty v hd c)
  have hbefore : (Param.maxDuty v).read c = (c.valves.get v).maxDuty := rfl
  rw [writtenResponse_of_single (r := .maxDuty v) rfl, hmin, hmax, hbefore]
  refine ⟨fun hlt => ?_, fun hle => ?_⟩
  · rw [if_neg (by omega), movedFields, hmax, max_eq_right hlt.le]
    rfl
  · rw [if_pos (by omega)]
    rfl

/-- The response of a written maximum duty names the minimum duty where it moved (R100). -/
theorem maxDuty_response (v : Fin 16) {d : Nat} (hd : d ≤ 63) (c : Settings) :
    (d < (c.valves.get v).minDuty → writtenResponse c (Param.write c d (.maxDuty v)) (.maxDuty v) =
      .ok [.word d, .word 1, .word 3, .word v.val, .word 1, .word d]) ∧
    ((c.valves.get v).minDuty ≤ d → writtenResponse c (Param.write c d (.maxDuty v)) (.maxDuty v) =
      .ok [.word d, .word 0]) := by
  have hmax : (Param.maxDuty v).read (Param.write c d (.maxDuty v)) = d :=
    congrArg (fun x => (x.maxDuty : Int)) (write_maxDuty v hd c)
  have hmin : (Param.minDuty v).read (Param.write c d (.maxDuty v)) = (min (c.valves.get v).minDuty d : Nat) :=
    congrArg (fun x => (x.minDuty : Int)) (write_maxDuty v hd c)
  have hbefore : (Param.minDuty v).read c = (c.valves.get v).minDuty := rfl
  rw [writtenResponse_of_single (r := .minDuty v) rfl, hmax, hmin, hbefore]
  refine ⟨fun hlt => ?_, fun hle => ?_⟩
  · rw [if_neg (by omega), movedFields, hmin, min_eq_right hlt.le]
    rfl
  · rw [if_pos (by omega)]
    rfl

/-! ### The high limit (R117, R132) -/

/-- The flow above a written high limit: the controller is in LOCKOUT, with a fresh record where it enters it (R134). -/
theorem testHighLimit_of_trips (h : trips s = true) : (testHighLimit s).firing.state = .lockout ∧
    (s.firing.state ≠ .lockout →
      (testHighLimit s).firing.lockout = some ⟨true, false, s.clock.now, s.firing.flow⟩) := by
  by_cases hs : s.firing.state = .lockout
  · rw [(testHighLimit_shows hs).1]
    exact ⟨hs, fun hne => absurd hs hne⟩
  · have hentered : testHighLimit s = enterLockout .highLimit s := (if_pos h).trans (if_neg hs)
    obtain ⟨-, ⟨m, houtputs⟩, -⟩ := enterLockout_shows h
    rw [hentered]
    simp only [Firing.outputs, Prod.mk.injEq] at houtputs
    obtain ⟨-, -, -, hstate, hrecord, -⟩ := houtputs
    exact ⟨hstate, fun _ => hrecord⟩

theorem testHighLimit_of_cool (h : trips s = false) : testHighLimit s = s := if_neg (by simp [h])

/-- The targets formed again leave what the high limit is tested by, and the clock (R130). -/
theorem formHeating_frame (s : State) : (formHeating s).firing.outputs = s.firing.outputs ∧
    (formHeating s).settings = s.settings ∧ (formHeating s).clock = s.clock ∧ (formHeating s).notices = s.notices :=
  ⟨(formHeating_silent s).outputs, formHeating_keeps s .settings (by decide), formHeating_keeps s .clock (by decide),
    formHeating_keeps s .notices (by decide)⟩

/-- The high limit written with its targets formed again, tested against the flow (R132). -/
theorem highLimit_tested (hlow : 6000 ≤ value) (hhigh : value ≤ 9500) (s : State) :
    (∀ f, s.firing.flow = some f → s.firing.flowStatus ≠ .invalid → value < f →
      ((Param.highLimit).act (writtenWith .highLimit value s)).firing.state = .lockout ∧
      (s.firing.state ≠ .lockout → ((Param.highLimit).act (writtenWith .highLimit value s)).firing.lockout =
        some ⟨true, false, s.clock.now, some f⟩)) ∧
    (∀ f, s.firing.flow = some f → f ≤ value →
      ((Param.highLimit).act (writtenWith .highLimit value s)).firing.state = s.firing.state ∧
      ((Param.highLimit).act (writtenWith .highLimit value s)).notices = s.notices) := by
  obtain ⟨houtputs, hsettings, hclock, hnotices⟩ := formHeating_frame (writtenWith .highLimit value s)
  have hact : (Param.highLimit).act (writtenWith .highLimit value s) =
      testHighLimit (formHeating (writtenWith .highLimit value s)) := rfl
  have hlimit : (formHeating (writtenWith .highLimit value s)).settings.firing.highLimit = value := by
    rw [hsettings]
    exact clamp_of_mem hlow hhigh
  simp only [Firing.outputs, Prod.mk.injEq] at houtputs
  obtain ⟨-, -, -, hstate, -, hflow, hstatus, -⟩ := houtputs
  rw [hact]
  refine ⟨fun f hf hknown hover => ?_, fun f hf hunder => ?_⟩
  · have htrips : trips (formHeating (writtenWith .highLimit value s)) = true := by
      refine (trips_iff _).2 ⟨hstatus ▸ hknown, f, hflow.trans hf, ?_⟩
      rw [hlimit]
      exact hover
    obtain ⟨hentered, hrecord⟩ := testHighLimit_of_trips htrips
    refine ⟨hentered, fun hne => (hrecord (hstate ▸ hne)).trans ?_⟩
    rw [hclock, hflow.trans hf]
    rfl
  · have hcool : trips (formHeating (writtenWith .highLimit value s)) = false := by
      refine Bool.eq_false_iff.2 fun htrips => ?_
      obtain ⟨-, x, hx, hover⟩ := (trips_iff _).1 htrips
      have hsame : some f = some x := (hflow.trans hf).symm.trans hx
      cases hsame
      rw [hlimit] at hover
      omega
    rw [testHighLimit_of_cool hcool]
    exact ⟨hstate, hnotices⟩

/-! ### The targets (R130, R131) -/

theorem formHeating_of_not_firing (h : s.firing.state ≠ .firing) : formHeating s = s := if_neg h

/-- The heating target of a FIRING controller under its rate ceiling, which stays (R130). -/
theorem formHeating_of_firing {c : Int} (h : s.firing.state = .firing) (hceiling : s.firing.ceiling = some c) :
    (formHeating s).firing.ceiling = some c ∧ (formHeating s).firing.heating =
      some (heatingUnder s.settings.firing (some c) (computedTarget s.settings.firing s.firing.umax)) := by
  have hformed : ∀ u : State, (formFlow u).firing.ceiling = u.firing.ceiling ∧
      (formFlow u).firing.heating = u.firing.heating := fun u => by
    unfold formFlow
    split
    · split
      · exact ⟨rfl, rfl⟩
      · exact ⟨rfl, rfl⟩
    · exact ⟨rfl, rfl⟩
  rw [formHeating, if_pos h, ← hceiling]
  exact hformed _

/-- The ceiling bounds the target from above where Fmin leaves it room (R130). -/
theorem heatingUnder_some (c : FiringSettings) (limit computed : Int) : heatingUnder c (some limit) computed =
    if computed ≤ limit then computed else if limit < c.fmin then c.fmin else limit := by
  unfold heatingUnder
  dsimp only
  split_ifs <;> omega

/-- The flow target and the code of a FIRING controller (R131). -/
theorem formFlow_of_firing {h target : Int} (hstate : s.firing.state = .firing) (hheating : s.firing.heating = some h)
    (htarget : target = if s.firing.call = false then h
      else if s.firing.priority.isSome then s.settings.hotWater.target else max h s.settings.hotWater.target) :
    (formFlow s).firing = { s.firing with
      flowTarget := some target, code := clamp 0 16383 (divRound ((target - 2000) * 16383) 7000) } := by
  have hflow : flowTargetOf s.settings.hotWater.target h s.firing.call s.firing.priority = target := by
    rw [htarget]
    unfold flowTargetOf
    cases s.firing.call <;> cases s.firing.priority <;> rfl
  rw [formFlow, if_pos hstate, hheating]
  dsimp only
  rw [hflow]
  rfl

/-! ### The hot-water settings (R137, R139, R140) -/

theorem endPriority_call (s : State) : (endPriority s).firing.priority = none ∧
    (endPriority s).firing.call = s.firing.call := by
  unfold endPriority formFlow
  split
  · split <;> exact ⟨rfl, rfl⟩
  · exact ⟨rfl, rfl⟩

/-- A written priority: SHARED ends a running period (R140). -/
theorem priorityWritten_spec (s : State) :
    (s.settings.hotWater.absolute = true → (priorityWritten s).firing = s.firing) ∧
    (s.settings.hotWater.absolute = false →
      (priorityWritten s).firing.priority = none ∧ (priorityWritten s).firing.call = s.firing.call) ∧
    (s.firing.priority = none → (priorityWritten s).firing = s.firing) := by
  have hnone : s.firing.priority = none → priorityWritten s = s := fun h => if_neg (by simp [h])
  refine ⟨fun habsolute => ?_, fun hshared => ?_, fun h => congrArg State.firing (hnone h)⟩
  · rw [priorityWritten, if_neg (by simp [habsolute])]
  · cases hpriority : s.firing.priority with
    | none =>
      rw [hnone hpriority]
      exact ⟨hpriority, rfl⟩
    | some n =>
      rw [priorityWritten, if_pos (by simp [hshared, hpriority])]
      exact endPriority_call s

/-- A written max priority time ends a period that has reached it, and no other (R140). -/
theorem maxPriorityWritten_spec {n : Nat} (h : s.firing.priority = some n) :
    (s.settings.hotWater.maxPriority ≠ 0 → s.settings.hotWater.maxPriority * 60 ≤ n →
      (maxPriorityWritten s).firing.priority = none ∧ (maxPriorityWritten s).firing.call = s.firing.call) ∧
    (s.settings.hotWater.maxPriority = 0 ∨ n < s.settings.hotWater.maxPriority * 60 →
      (maxPriorityWritten s).firing = s.firing) := by
  have hover : priorityOver s = (decide (s.settings.hotWater.maxPriority ≠ 0) &&
      decide (s.settings.hotWater.maxPriority * 60 ≤ n)) := by rw [priorityOver, h]
  rw [maxPriorityWritten, hover]
  refine ⟨fun hset hreached => ?_, fun hstays => ?_⟩
  · rw [if_pos (by simp [hset, hreached])]
    exact endPriority_call s
  · rw [if_neg (by simp only [Bool.and_eq_true, decide_eq_true_eq]; omega)]

/-- The call under a written mode, which stops a timed call where it is OFF (R137). -/
theorem modeWritten_call (s : State) :
    (s.settings.hotWater.mode = .off → (modeWritten s).firing.timedCall = none ∧ (modeWritten s).firing.call = false) ∧
    (s.settings.hotWater.mode ≠ .off → (modeWritten s).firing.timedCall = s.firing.timedCall ∧
      (modeWritten s).firing.call = callWanted s) := by
  refine ⟨fun hoff => ?_, fun hon => ?_⟩
  · rw [modeWritten, if_pos hoff, deriveCall_timedCall, deriveCall_call]
    exact ⟨rfl, by simp [callWanted, hoff]⟩
  · rw [modeWritten, if_neg hon, deriveCall_timedCall, deriveCall_call]
    exact ⟨rfl, rfl⟩

theorem modeWritten_valves (s : State) : OnlyHoldWritten s.valves (modeWritten s).valves := by
  unfold modeWritten
  refine OnlyHoldWritten.trans ?_ (deriveCall_reaches _).2
  split <;> exact OnlyHoldWritten.refl _

theorem openTimeWritten_valves (s : State) : OnlyHoldWritten s.valves (openTimeWritten s).valves := by
  unfold openTimeWritten
  split
  · exact (settle_reaches (modFiring (fun f => { f with dhwPath := true }) s)).2
  · exact OnlyHoldWritten.refl _

/-- An open time already reached gives the hot-water path, and in WAIT_PATH a permitted FIRING with it (R122, R139). -/
theorem openTimeWritten_of_due (hon : s.firing.diverter = true) (hpath : s.firing.dhwPath = false)
    (htime : s.settings.hotWater.openTime ≤ s.firing.diverterOn) (hcall : s.firing.call = true) :
    (openTimeWritten s).firing.dhwPath = true ∧ (openTimeWritten s).firing.diverter = true ∧
      (s.firing.state = .waitPath → permitted s = true →
        (openTimeWritten s).firing.state = .firing ∧ (openTimeWritten s).firing.burner = true) := by
  let u : State := modFiring (fun f => { f with dhwPath := true }) s
  have hwritten : openTimeWritten s = settle u := if_pos (by simp [pathDue, hon, hpath, htime])
  obtain ⟨hstays, hgiven⟩ := (settle_stands u).path hcall hon
  rw [hwritten]
  refine ⟨hgiven, hstays, fun hwait hpermitted => ?_⟩
  have hselected : selection u = .firing :=
    (selection_eq_firing_iff u).2 ⟨by simp [u, Firing.anyCall, hcall], by simp [u, Firing.pathExists], hpermitted⟩
  have hentered : settle u = enterFiring u := by
    have hstate : u.firing.state = .waitPath := hwait
    rw [settle, hstate]
    show select u = _
    rw [select, if_pos hselected]
  obtain ⟨-, houtputs⟩ := enterFiring_shows u
  rw [hentered]
  simp only [Firing.outputs, Prod.mk.injEq] at houtputs
  obtain ⟨hburner, -, -, hstate, -⟩ := houtputs
  exact ⟨hstate, hburner⟩

theorem openTimeWritten_of_not_due (h : s.firing.diverter = false ∨ s.firing.dhwPath = true ∨
    s.firing.diverterOn < s.settings.hotWater.openTime) : openTimeWritten s = s := by
  refine if_neg ?_
  simp only [pathDue, Bool.and_eq_true, Bool.not_eq_true', decide_eq_true_eq]
  rintro ⟨⟨hon, hpath⟩, htime⟩
  rcases h with h | h | h
  · simp [h] at hon
  · simp [h] at hpath
  · omega

end
end Sys2Proof.Machine

namespace Sys2Proof.Machine

section
variable {p : Port} {s : State} (hp : s.powered = true)
include hp

/-- Fmin and Fmax of a FIRING controller form its heating target again (R117, R130). -/
theorem paramSet_targets {q : Param} {group idx field value : Int} (hq : paramOf group idx field = some q)
    (hact : ∀ u, q.act u = formHeating u) (hparts : q.parts = [.firing]) :
    ∃ t, exec (.paramSet p group idx field value) s = .next t ∧ ParamWritten p q value s t ∧
      Keeps (responseParts ++ [.settings, .firing]) s t ∧ (s.firing.state ≠ .firing → t.firing = s.firing) ∧
      (∀ c, s.firing.state = .firing → s.firing.ceiling = some c → t.firing.ceiling = some c ∧
        ∀ computed, computed = t.settings.firing.fmin +
            divRound (s.firing.umax * (t.settings.firing.fmax - t.settings.firing.fmin)) 4096 →
          t.firing.heating = some (if computed ≤ c then computed
            else if c < t.settings.firing.fmin then t.settings.firing.fmin else c)) := by
  obtain ⟨t, ht, hw⟩ := exists_paramWritten (p := p) (value := value) hp hq
  have hkeeps := hw.keeps
  rw [hparts] at hkeeps
  have hfiring : t.firing = (formHeating (writtenWith q value s)).firing := hw.firing.trans (by rw [hact])
  refine ⟨t, ht, hw, hkeeps, fun hstate => ?_, fun c hstate hceiling => ?_⟩
  · rw [hfiring, formHeating_of_not_firing (s := writtenWith q value s) hstate]
    rfl
  · obtain ⟨hstays, hheating⟩ := formHeating_of_firing (s := writtenWith q value s) hstate hceiling
    rw [hfiring]
    refine ⟨hstays, fun computed hcomputed => ?_⟩
    have hsettings : (writtenWith q value s).settings = t.settings := hw.settings.symm
    rw [hheating, heatingUnder_some, hsettings, hcomputed]
    rfl

/-- What a written Fmin or Fmax makes of the firing settings, and its response (R117). -/
theorem paramSet_fmin_fmax (field value : Int) (hfield : field = 4 ∨ field = 5) :
    ∃ t, exec (.paramSet p 4 0 field value) s = .next t ∧ Keeps (responseParts ++ [.settings, .firing]) s t ∧
      (field = 4 → t.settings.firing = { s.settings.firing with fmin := clamp 2000 s.settings.firing.fmax value } ∧
        t.answered = some (p, .ok [.word t.settings.firing.fmin, .word 0])) ∧
      (field = 5 → ∀ new, new = clamp 2000 (s.settings.firing.highLimit - 500) value →
        t.settings.firing = { s.settings.firing with fmax := new, fmin := min s.settings.firing.fmin new } ∧
        t.answered = some (p, .ok (if s.settings.firing.fmin ≤ new then [.word new, .word 0]
          else [.word new, .word 1, .word 4, .word 0, .word 4, .word new]))) ∧
      (s.firing.state ≠ .firing → t.firing = s.firing) ∧
      (∀ c, s.firing.state = .firing → s.firing.ceiling = some c → t.firing.ceiling = some c ∧
        ∀ computed, computed = t.settings.firing.fmin +
            divRound (s.firing.umax * (t.settings.firing.fmax - t.settings.firing.fmin)) 4096 →
          t.firing.heating = some (if computed ≤ c then computed
            else if c < t.settings.firing.fmin then t.settings.firing.fmin else c)) := by
  rcases hfield with rfl | rfl
  · obtain ⟨t, ht, hw, hkeeps, hrest, hfired⟩ :=
      paramSet_targets (p := p) (q := .fmin) (value := value) hp (group := 4) (idx := 0) (field := 4) rfl
        (fun _ => rfl) rfl
    refine ⟨t, ht, hkeeps, fun _ => ⟨?_, ?_⟩, nofun, hrest, hfired⟩
    · rw [hw.settings]
      rfl
    · rw [hw.answered, writtenResponse_of_none rfl, ← hw.settings]
      rfl
  · obtain ⟨t, ht, hw, hkeeps, hrest, hfired⟩ :=
      paramSet_targets (p := p) (q := .fmax) (value := value) hp (group := 4) (idx := 0) (field := 5) rfl
        (fun _ => rfl) rfl
    refine ⟨t, ht, hkeeps, nofun, fun _ new hnew => ⟨?_, ?_⟩, hrest, hfired⟩
    · rw [hw.settings, hnew]
      rfl
    · have hmax : (Param.fmax).read (Param.write s.settings value .fmax) = new := hnew.symm
      have hmin : (Param.fmin).read (Param.write s.settings value .fmax) = min s.settings.firing.fmin new := by
        rw [hnew]
        rfl
      have hbefore : (Param.fmin).read s.settings = s.settings.firing.fmin := rfl
      rw [hw.answered, writtenResponse_of_single (r := .fmin) rfl, hmax, hmin, hbefore]
      by_cases hle : s.settings.firing.fmin ≤ new
      · rw [if_pos hle, if_pos (by omega)]
        rfl
      · rw [if_neg hle, if_neg (by omega), movedFields, hmin, min_eq_right (by omega)]
        rfl

end

/-- Settles O51: each setting is its write of the record and its action in the block that owns it. -/
theorem linkedSettingsMoveTogether : Obligations.LinkedSettingsMoveTogether := by
  intro p v d limit s hp
  refine ⟨fun hd => ?_, fun hd => ?_, fun hlow hhigh => ?_, fun field value hfield => ?_, fun value => ?_,
    fun value => ?_, fun value => ?_, fun value => ?_, fun value => ?_⟩
  · obtain ⟨t, ht, hw⟩ := exists_paramWritten (p := p) (value := d) hp (paramOf_minDuty v)
    obtain ⟨hmoved, hstays⟩ := minDuty_response v hd s.settings
    have hself := write_minDuty v hd s.settings
    rw [← hw.settings] at hself
    refine ⟨t, ht, hw.keeps, ?_, ?_, fun w hne => ?_, fun hlt => ?_, fun hle => ?_⟩
    · rw [hself]; rfl
    · rw [hself]; rfl
    · rw [hw.settings]
      exact write_valves_ne (.inr (.inl rfl)) hne _ _
    · rw [hw.answered, hmoved hlt]
    · rw [hw.answered, hstays hle]
  · obtain ⟨t, ht, hw⟩ := exists_paramWritten (p := p) (value := d) hp (paramOf_maxDuty v)
    obtain ⟨hmoved, hstays⟩ := maxDuty_response v hd s.settings
    have hself := write_maxDuty v hd s.settings
    rw [← hw.settings] at hself
    refine ⟨t, ht, hw.keeps, ?_, ?_, fun w hne => ?_, fun hlt => ?_, fun hle => ?_⟩
    · rw [hself]; rfl
    · rw [hself]; rfl
    · rw [hw.settings]
      exact write_valves_ne (.inr (.inr (.inl rfl))) hne _ _
    · rw [hw.answered, hmoved hlt]
    · rw [hw.answered, hstays hle]
  · obtain ⟨t, ht, hw⟩ := exists_paramWritten (p := p) (group := 4) (idx := 0) (field := 3) (value := limit) hp
      (q := .highLimit) rfl
    obtain ⟨hover, hunder⟩ := highLimit_tested hlow hhigh s
    have hlimit : clamp 6000 9500 limit = limit := clamp_of_mem hlow hhigh
    have hvalves : OnlyHoldWritten s.valves t.valves := by
      rw [hw.valves]
      exact OnlyHoldWritten.trans (formHeating_reaches (writtenWith .highLimit limit s)).2 (testHighLimit_reaches _).2
    have hsettings : t.settings = s.settings.writeHighLimit limit :=
      hw.settings.trans (congrArg s.settings.writeHighLimit hlimit)
    refine ⟨t, ht, hw.keeps.mono (by decide), hvalves, ?_⟩
    rw [hsettings, hw.firing, hw.notices]
    exact ⟨rfl, rfl, rfl, rfl, hover, hunder⟩
  · exact paramSet_fmin_fmax hp field value hfield
  · obtain ⟨t, ht, hw⟩ := exists_paramWritten (p := p) (group := 5) (idx := 0) (field := 1) (value := value) hp
      (q := .dhwTarget) rfl
    refine ⟨t, ht, hw.keeps, fun hstate => ?_, fun h target hstate hheating htarget => ?_⟩
    · rw [hw.firing]
      show (formFlow (writtenWith .dhwTarget value s)).firing = s.firing
      rw [formFlow_of_not_firing (writtenWith .dhwTarget value s) hstate]
      rfl
    · rw [hw.firing]
      rw [hw.settings] at htarget
      exact formFlow_of_firing (s := writtenWith .dhwTarget value s) hstate hheating htarget
  · obtain ⟨t, ht, hw⟩ := exists_paramWritten (p := p) (group := 5) (idx := 0) (field := 0) (value := value) hp
      (q := .dhwMode) rfl
    obtain ⟨hoff, hon⟩ := modeWritten_call (writtenWith .dhwMode value s)
    have hsettings : t.settings = (writtenWith .dhwMode value s).settings := hw.settings
    have hfiring : t.firing = (modeWritten (writtenWith .dhwMode value s)).firing := hw.firing
    refine ⟨t, ht, hw.keeps.mono (by decide), ?_, fun hmode => ?_, fun hmode => ?_⟩
    · rw [hw.valves]
      exact modeWritten_valves (writtenWith .dhwMode value s)
    · rw [hfiring]
      exact hoff (hsettings ▸ hmode)
    · rw [hsettings] at hmode ⊢
      obtain ⟨htimed, hcall⟩ := hon hmode
      rw [hfiring]
      refine ⟨htimed, hcall.trans ?_⟩
      rw [callWanted_eq, decide_eq_true hmode, Bool.true_and]
      rfl
  · obtain ⟨t, ht, hw⟩ := exists_paramWritten (p := p) (group := 5) (idx := 0) (field := 3) (value := value) hp
      (q := .dhwPriority) rfl
    have hfiring : t.firing = (priorityWritten (writtenWith .dhwPriority value s)).firing := hw.firing
    obtain ⟨habsolute, hshared, hnone⟩ := priorityWritten_spec (writtenWith .dhwPriority value s)
    rw [← hfiring] at habsolute hshared hnone
    exact ⟨t, ht, hw.keeps, fun hone => habsolute (decide_eq_true hone), fun hne => hshared (decide_eq_false hne),
      hnone⟩
  · obtain ⟨t, ht, hw⟩ := exists_paramWritten (p := p) (group := 5) (idx := 0) (field := 4) (value := value) hp
      (q := .dhwMaxPriority) rfl
    have hfiring : t.firing = (maxPriorityWritten (writtenWith .dhwMaxPriority value s)).firing := hw.firing
    refine ⟨t, ht, hw.keeps, fun n hn => ?_⟩
    have hspec := maxPriorityWritten_spec (s := writtenWith .dhwMaxPriority value s) hn
    rw [← hfiring] at hspec
    rw [hw.settings]
    exact hspec
  · obtain ⟨t, ht, hw⟩ := exists_paramWritten (p := p) (group := 5) (idx := 0) (field := 5) (value := value) hp
      (q := .dhwOpenTime) rfl
    have hfiring : t.firing = (openTimeWritten (writtenWith .dhwOpenTime value s)).firing := hw.firing
    refine ⟨t, ht, hw.keeps.mono (by decide), ?_, fun hon hpath htime hcall => ?_, fun hnot => ?_⟩
    · rw [hw.valves]
      exact openTimeWritten_valves (writtenWith .dhwOpenTime value s)
    · rw [hfiring]
      rw [hw.settings] at htime
      exact openTimeWritten_of_due (s := writtenWith .dhwOpenTime value s) hon hpath htime hcall
    · rw [hw.settings] at hnot
      rw [hfiring, openTimeWritten_of_not_due (s := writtenWith .dhwOpenTime value s) hnot]
      rfl

end Sys2Proof.Machine

namespace Sys2Proof.Machine

/-! ## The remembered entries through the outer rows (R18) -/

section
variable {s t : State}

theorem hotWaterSchedule_congr (h : t.program.remembered = s.program.remembered) :
    hotWaterSchedule t = hotWaterSchedule s := by
  simp only [hotWaterSchedule, h]

theorem Keeps.remembered {l : List Part} (h : Keeps l s t) (hl : .program ∉ l) :
    t.program.remembered = s.program.remembered := congrArg Program.remembered (h .program hl)

theorem remembered_of_ground (h : t.ground = s.ground) : t.program.remembered = s.program.remembered :=
  ((keeps_iff_ground s t).2 h).remembered (by decide)

theorem command_remembered {c : Instr} {p : Port} {block : State → State × Response}
    (h : command c p block s = .next t) (hb : ∀ u, (block u).1.program.remembered = u.program.remembered) :
    t.program.remembered = s.program.remembered := by
  rcases (command_eq_next_iff c p block s t).1 h with ⟨-, rfl⟩ | ⟨-, rfl⟩
  · exact ((deliver_keeps _ _ _ _).remembered (by decide)).trans
      (((eventsTaken_of_block s _).remembered (by decide)).trans (hb _))
  · rfl

theorem event_remembered {block : State → State} (h : event block s = .next t)
    (hb : ∀ u, (block u).program.remembered = u.program.remembered) :
    t.program.remembered = s.program.remembered := by
  rcases (event_eq_next_iff block s t).1 h with ⟨-, rfl⟩ | ⟨-, rfl⟩
  · exact ((eventsTaken_of_block s _).remembered (by decide)).trans (hb _)
  · rfl

theorem ovrSetBlock_remembered (p : Port) (zone setpoint kind : Int) (endDay endMinute : Option Int) (s : State) :
    (ovrSetBlock p zone setpoint kind endDay endMinute s).1.program.remembered = s.program.remembered := by
  have hwritten : ∀ z sp k, (writeSlot p z sp k s).1.program.remembered = s.program.remembered := fun z sp k =>
    (writeSlot_keeps s p z sp k).remembered (by decide)
  unfold ovrSetBlock
  split
  · rfl
  · split_ifs
    · exact hwritten _ _ _
    · exact hwritten _ _ _
    · split
      · rfl
      · rfl
      · exact hwritten _ _ _
    · rfl

theorem ovrHoldBlock_remembered (p : Port) (zone : Int) (setpoint : Option Int) (s : State) :
    (ovrHoldBlock p zone setpoint s).1.program.remembered = s.program.remembered := by
  unfold ovrHoldBlock
  split
  · rfl
  · exact (writeSlot_keeps s _ _ _ _).remembered (by decide)

theorem ovrReleaseBlock_remembered (p : Port) (zone : Int) (s : State) :
    (ovrReleaseBlock p zone s).1.program.remembered = s.program.remembered := by
  unfold ovrReleaseBlock
  split
  · rfl
  · split
    · exact (postChangedBy_keeps _ _ _).remembered (by decide)
    · rfl

theorem bankSaveBlock_remembered (p : Port) (bank : Int) (s : State) :
    (bankSaveBlock p bank s).1.program.remembered = s.program.remembered := by
  unfold bankSaveBlock
  split
  · rfl
  · split <;> rfl

theorem configSaveBlock_remembered (p : Port) (s : State) :
    (configSaveBlock p s).1.program.remembered = s.program.remembered := by
  unfold configSaveBlock
  split <;> rfl

theorem saveCompletionBlock_remembered (good : Bool) (s : State) :
    (saveCompletionBlock good s).program.remembered = s.program.remembered := by
  unfold saveCompletionBlock
  split
  · rfl
  · rw [completeSave_program]
    split
    · rfl
    · unfold markFailed
      split <;> rfl

theorem busEvent_remembered {levels : List Levels} (h : busEvent levels s = .next t) :
    t.program.remembered = s.program.remembered := by
  unfold busEvent at h
  split at h <;> cases h
  · exact ((eventsTaken_of_block s _).remembered (by decide)).trans
      (remembered_of_ground (foldl_ground takeLevels_ground levels (nothingRaised s)))
  · exact remembered_of_ground (foldl_ground (f := fun s l => modWire (setLevels l) s) (fun _ _ => rfl) levels s)

/-- An outer row leaves the remembered entries, so also the hot-water schedule state. -/
theorem exec_remembered {i : Instr} (hi : isOuter i = true) (h : exec i s = .next t) :
    t.program.remembered = s.program.remembered := by
  cases i with
  | ident | status | zoneGet | clockGet | pointGet | bankGet | ovrList | captureGet | regGet | valveGet | lineGet
  | linkGet | paramGet | noticeRead =>
    exact command_remembered h fun _ => rfl
  | noticeMask p mask => exact command_remembered h fun u => remembered_of_ground (noticeMaskBlock_ground u p mask)
  | lineSet p lines | lineClear p lines | lineToggle p lines =>
    exact command_remembered h fun u => remembered_of_ground (writeLines_ground u _ lines)
  | tempReport p zone value =>
    exact command_remembered h fun u => remembered_of_ground (tempReportBlock_ground u zone value)
  | rawInputChange ch level elapsed =>
    replace h : (if s.powered then event (rawInputBlock ch level elapsed) s else .next (setRaw ch level s)) = .next t :=
      h
    split at h
    · exact event_remembered h fun _ => rfl
    · cases h
      rfl
  | acceptedEdge | timeout | captureSecond => exact event_remembered h fun _ => rfl
  | ovrSet p zone setpoint kind endDay endMinute => exact command_remembered h (ovrSetBlock_remembered p _ _ _ _ _)
  | ovrHold p zone setpoint => exact command_remembered h (ovrHoldBlock_remembered p _ _)
  | ovrRelease p zone => exact command_remembered h (ovrReleaseBlock_remembered p _)
  | bankSave p bank => exact command_remembered h (bankSaveBlock_remembered p _)
  | configSave p => exact command_remembered h (configSaveBlock_remembered p)
  | saveCompletion good => exact event_remembered h (saveCompletionBlock_remembered good)
  | textCharacter c framingError =>
    exact event_remembered h fun u => remembered_of_ground (textCharacterBlock_ground u c framingError)
  | textResponseSend => exact event_remembered h fun u => remembered_of_ground (textSendBlock_ground u)
  | textResponseSent => exact event_remembered h fun u => remembered_of_ground (textSentBlock_ground u)
  | writeTransfer | readTransfer | repeatedStart | busError => exact busEvent_remembered h
  | _ => cases hi

end
end Sys2Proof.Machine

namespace Sys2Proof.Machine

/-! ## What a row does to the firing controller (R116 to R143) -/

/-- What the controller's conditions look at outside the program store. -/
def State.panel (s : State) : Bool × Firing × Inputs × Settings := (s.powered, s.firing, s.inputs, s.settings)

/-- The record f with the inhibit flags, the min-on and min-off timers, the flow temperature and the hot-water path that
g has. -/
def Firing.reweighed (f g : Firing) : Firing :=
  { f with
    inhibitText := g.inhibitText, inhibitWire := g.inhibitWire, minOn := g.minOn, minOff := g.minOff
    flow := g.flow, flowStatus := g.flowStatus, dhwPath := g.dhwPath, diverterOn := g.diverterOn }

/-- A state whose permission or path has come to be another one, before the controller acts on it. -/
def State.reweighed (s : State) (g : Firing) (interlock : Bool) : State :=
  { s with firing := s.firing.reweighed g, inputs := { s.inputs with interlock := interlock } }

/-- The hot-water settings and limits that the controller's conditions look at. -/
def Settings.limits (c : Settings) : Int × Int × Int × DhwMode :=
  (c.firing.fmin, c.firing.fmax, c.firing.highLimit, c.hotWater.mode)

/-- The controller takes, one after the other, what a row that is none of power, of SOFT RESET or of LOCKOUT CLEAR brings
it; a row that leaves it alone brings nothing. -/
inductive ControllerRun : State → State → Prop
  | unseen {s t : State} : t.panel = s.panel → hotWaterSchedule t = hotWaterSchedule s → ControllerRun s t
  | trans {s t u : State} : ControllerRun s t → ControllerRun t u → ControllerRun s u
  /-- The flame-wait and fault-persistence timers, with their inputs (R125, R133). -/
  | timed (flame fault : Bool) (flameWait faultTimer : Option Nat) (s : State) : ControllerRun s
      { s with
        inputs := { s.inputs with flame := flame, fault := fault }
        firing := { s.firing with flameWait := flameWait, faultTimer := faultTimer } }
  /-- The levels of the inputs of a part without power. -/
  | dark {s : State} (inputs : Inputs) : s.powered = false → ControllerRun s { s with inputs := inputs }
  /-- A written setting whose block does nothing yet (R180). -/
  | written {s : State} (c : Settings) : (SettingsInRange s.settings → SettingsInRange c) →
      c.limits = s.settings.limits → ControllerRun s (setSettings c s)
  /-- A written setting that forms the heating target (R116, R130). -/
  | reformed {s : State} (c : Settings) : (SettingsInRange s.settings → SettingsInRange c) →
      c.hotWater.mode = s.settings.hotWater.mode → ControllerRun s (formHeating (setSettings c s))
  | reflowed (s : State) : ControllerRun s (formFlow s)
  | priorityEnded (s : State) : ControllerRun s (modFiring (fun f => { f with priority := none }) s)
  /-- Permission or a path comes or goes (R119, R126). -/
  | settled {s : State} (g : Firing) (interlock : Bool) : s.powered = true →
      (g.dhwPath = true → s.firing.dhwPath = true ∨ s.firing.diverter = true) →
      ControllerRun s (settle (s.reweighed g interlock))
  /-- A cause of LOCKOUT arises (R134). -/
  | lockedOut {s : State} (reason : LockoutReason) (g : Firing) : g.dhwPath = s.firing.dhwPath →
      ControllerRun s (lockOut reason (s.reweighed g s.inputs.interlock))
  /-- A publication in LOCKOUT, its flow temperature copied (R135). -/
  | copied {s : State} (g : Firing) : s.firing.state = .lockout → g.dhwPath = s.firing.dhwPath →
      ControllerRun s (s.reweighed g s.inputs.interlock)
  /-- What a publication in LOCKOUT does beside the trip (R135). -/
  | cooled {s : State} : s.firing.state = .lockout → ControllerRun s (lockoutPublication s)
  /-- The overrun expiry (R128). -/
  | ranOn {s : State} : s.powered = true → s.firing.state = .overrun →
      ControllerRun s (endOverrun (modFiring (fun f => { f with overrun := none }) s))
  /-- A cause of the hot-water call comes or goes (R137, R138). -/
  | derived {s : State} (c : Settings) (request : Bool) (timedCall : Option Nat) : s.powered = true →
      (SettingsInRange s.settings → SettingsInRange c) → c.firing = s.settings.firing →
      ControllerRun s (deriveCall { s with
        settings := c
        inputs := { s.inputs with request := request }
        firing := { s.firing with timedCall := timedCall } })
  /-- The schedule state of the remembered entries handed on (R18). -/
  | handedOn {s t : State} : s.powered = true → t.panel = s.panel →
      ControllerRun s (takeSchedule (hotWaterSchedule t) t)
  /-- A flow-path report (R111, R118). -/
  | reported {s : State} (r : PathReport) : s.powered = true → ReadyHasPath r → ControllerRun s (takeReport r s)
  /-- A demand update (R94, R118). -/
  | demanded {s : State} (stood : Option Int) (d : Demand) : s.powered = true →
      (SettingsInRange s.settings → DemandInRange d) → ControllerRun s (takeDemand stood d s)

section
variable {s t u : State}

theorem panel_eq_iff : t.panel = s.panel ↔
    t.powered = s.powered ∧ t.firing = s.firing ∧ t.inputs = s.inputs ∧ t.settings = s.settings := by
  simp [State.panel]

theorem Keeps.panel {l : List Part} (h : Keeps l s t) (hl : ∀ part ∈ [Part.powered, .firing, .inputs, .settings],
    part ∉ l) : t.panel = s.panel :=
  panel_eq_iff.2 ⟨h .powered (hl _ (by decide)), h .firing (hl _ (by decide)), h .inputs (hl _ (by decide)),
    h .settings (hl _ (by decide))⟩

theorem ControllerRun.refl (s : State) : ControllerRun s s := .unseen rfl rfl

theorem Keeps.run {l : List Part} (h : Keeps l s t)
    (hl : ∀ part ∈ [Part.powered, .firing, .inputs, .settings, .program], part ∉ l) : ControllerRun s t :=
  .unseen (h.panel fun part hpart => hl part (by fin_cases hpart <;> decide))
    (hotWaterSchedule_congr (h.remembered (hl _ (by decide))))

theorem ControllerRun.powered (h : ControllerRun s t) : t.powered = s.powered := by
  induction h with
  | unseen hpanel => exact (panel_eq_iff.1 hpanel).1
  | trans _ _ ih ih' => exact ih'.trans ih
  | timed | dark | written | priorityEnded | copied => rfl
  | reformed => exact (formHeating_reaches _).1 .powered (by decide)
  | reflowed => exact (formFlow_reaches _).1 .powered (by decide)
  | settled => exact (settle_reaches _).1 .powered (by decide)
  | lockedOut => exact (lockOut_reaches _ _).1 .powered (by decide)
  | cooled => exact (lockoutPublication_reaches _).1 .powered (by decide)
  | ranOn => exact (endOverrun_reaches _).1 .powered (by decide)
  | derived => exact (deriveCall_reaches _).1 .powered (by decide)
  | handedOn _ hpanel => exact ((takeSchedule_reaches _ _).1 .powered (by decide)).trans (panel_eq_iff.1 hpanel).1
  | reported => exact (takeReport_reaches _ _).1 .powered (by decide)
  | demanded => exact (takeDemand_reaches _ _ _).1 .powered (by decide)

/-! ### Rows over their blocks -/

theorem nothingRaised_run (s : State) : ControllerRun s (nothingRaised s) := .unseen rfl rfl

theorem withMatrix_run {block : State → State} (h : ControllerRun s (block (nothingRaised s))) :
    ControllerRun s (withMatrix block s) := h.trans ((eventsTaken_of_block s _).run (by decide))

theorem event_run {block : State → State} (h : event block s = .next t)
    (hb : (nothingRaised s).powered = true → ControllerRun (nothingRaised s) (block (nothingRaised s))) : ControllerRun s t := by
  rcases (event_eq_next_iff block s t).1 h with ⟨hp, rfl⟩ | ⟨-, rfl⟩
  · exact withMatrix_run ((nothingRaised_run s).trans (hb hp))
  · exact .refl _

theorem lineEvent_run {level block : State → State} (h : lineEvent level block s = .next t)
    (hdark : s.powered = false → ControllerRun s (level s))
    (hb : (nothingRaised s).powered = true → ControllerRun (nothingRaised s) (block (nothingRaised (level s)))) :
    ControllerRun s t := by
  rcases (lineEvent_eq_next_iff level block s t).1 h with ⟨hp, rfl⟩ | ⟨hp, rfl⟩
  · exact ((nothingRaised_run s).trans (hb hp)).trans ((eventsTaken_of_block _ _).run (by decide))
  · exact hdark hp

theorem command_run {c : Instr} {p : Port} {block : State → State × Response} (h : command c p block s = .next t)
    (hb : (nothingRaised s).powered = true → ControllerRun (nothingRaised s) (block (nothingRaised s)).1) : ControllerRun s t := by
  rcases (command_eq_next_iff c p block s t).1 h with ⟨hp, rfl⟩ | ⟨-, rfl⟩
  · exact (withMatrix_run (block := fun u => (block u).1) ((nothingRaised_run s).trans (hb hp))).trans
      ((deliver_keeps _ _ _ _).run (by decide))
  · exact .refl _

/-! ### The program store (R18) -/

variable (hp : s.powered = true)
include hp

theorem handOn_run (hpanel : u.panel = s.panel) : ControllerRun s (handOn u) :=
  .handedOn (t := resolve u) hp hpanel

theorem silently_run (q : Fin 17 → Bool) (hpanel : u.panel = s.panel) : ControllerRun s (silently q u) := by
  rw [silently_eq]
  exact handOn_run hp (u := setRemembered (foundAgain q u) u) hpanel

theorem cross_run (order : Order) (crossed : Fin 17 → Bool) (next : Fin 17 → Option Entry)
    (hpanel : u.panel = s.panel) : ControllerRun s (cross order crossed next u) :=
  ((handOn_run hp (u := setRemembered next u) hpanel).trans ((crossZones_keeps _ _).run (by decide))).trans
    ((takeInTurns_keeps _ _).run (by decide))

/-- A bank that is active already is not taken; the program store may have changed before. -/
theorem changeBank_run (order : Order) (cause : Option Port) (b : Fin 4) (hpanel : u.panel = s.panel)
    (hsame : hotWaterSchedule u = hotWaterSchedule s) : ControllerRun s (changeBank order cause b u) := by
  unfold changeBank
  split
  · exact .unseen hpanel hsame
  · refine ((silently_run hp _ ?_).trans ((expire_keeps _ _).run (by decide))).trans
      ((takeInTurns_keeps _ _).run (by decide))
    cases cause <;> exact hpanel

theorem storeMinute_run (order : Order) (d m : Nat) (hpanel : u.panel = s.panel)
    (hsame : hotWaterSchedule u = hotWaterSchedule s) : ControllerRun s (storeMinute order d m u) := by
  rcases storeMinute_cases order d m u with ⟨-, h⟩ | ⟨r, -, -, ⟨-, h⟩ | ⟨-, h⟩⟩ <;> rw [h]
  · exact cross_run hp _ _ _ hpanel
  · exact cross_run hp (u := setTimed none u) _ _ _ hpanel
  · exact changeBank_run hp (u := setTimed none u) _ _ _ hpanel hsame

theorem minuteEvent_run (order : Order) (hpanel : u.panel = s.panel) (hsame : hotWaterSchedule u = hotWaterSchedule s) :
    ControllerRun s (minuteEvent order u) :=
  (storeMinute_run hp order _ _ hpanel hsame).trans ((countDown_keeps _).run (by decide))

theorem secondBoundaryBlock_run : ControllerRun s (secondBoundaryBlock s) := by
  unfold secondBoundaryBlock
  dsimp only
  split_ifs
  · exact minuteEvent_run hp _ rfl rfl
  · exact minuteEvent_run hp _ rfl rfl
  · exact .unseen rfl rfl
  · exact .refl s

theorem evaluateJump_run (order : Order) (d m : Nat) (hpanel : u.panel = s.panel) :
    ControllerRun s (evaluateJump order d m u) := cross_run hp order _ _ hpanel

theorem clockSetBlock_run (p : Port) (day minute second : Int) :
    ControllerRun s (clockSetBlock p day minute second s).1 := by
  unfold clockSetBlock
  split
  · have hjump : ∀ d m u, u.panel = s.panel → ControllerRun s (withOrder (fun o s => evaluateJump o d m s) u) :=
      fun d m u hpanel => evaluateJump_run hp (u := { u with orders := u.orders.rest }) u.orders.next d m hpanel
    have hset : ∀ k, (post p.other .clockChanged { s with clock := k }).panel = s.panel := fun k =>
      (post_keeps p.other .clockChanged { s with clock := k }).panel (by decide)
    exact (hjump _ _ _ (hset _)).trans ((jumpSlots_keeps _ _ _).run (by decide))
  · exact .refl s

theorem bankTaken_run (p : Port) (b : Fin 4) (record : Option Timed) : ControllerRun s (bankTaken p b record s) :=
  changeBank_run hp (u := recordTaken record s) _ _ _ rfl rfl

theorem bankSelectBlock_run (p : Port) (bank : Int) : ControllerRun s (bankSelectBlock p bank s).1 := by
  unfold bankSelectBlock
  split
  · exact bankTaken_run hp _ _ none
  · exact .refl s

theorem bankTimedBlock_run (p : Port) (bank days endMinute : Int) :
    ControllerRun s (bankTimedBlock p bank days endMinute s).1 := by
  unfold bankTimedBlock
  split
  · next b m _ _ =>
    split_ifs
    · exact .refl s
    · exact .refl s
    · exact bankTaken_run hp p b (some ⟨b, s.program.active, days.toNat, m⟩)
  · exact .refl s

theorem bankCancelBlock_run (p : Port) : ControllerRun s (bankCancelBlock p s).1 := by
  unfold bankCancelBlock
  split
  · exact bankTaken_run hp _ _ none
  · exact .refl s

theorem bankPut_run (p : Port) (b : Fin 4) (bank : Bank) (q : Fin 17 → Bool) : ControllerRun s (bankPut p b bank q s) := by
  have hput : (post p.other .scheduleEdited (putBank b bank s)).panel = s.panel := (post_keeps _ _ _).panel (by decide)
  unfold bankPut afterEdit
  split
  · exact silently_run hp q hput
  · exact .unseen hput (hotWaterSchedule_congr ((post_keeps _ _ (putBank b bank s)).remembered (by decide)))

theorem pointAddBlock_run (p : Port) (bank list days start target : Int) (revision : Option Int) :
    ControllerRun s (pointAddBlock p bank list days start target revision s).1 := by
  unfold pointAddBlock addPoint
  split
  · split
    · split_ifs
      · exact .refl s
      · exact .refl s
      · exact .refl s
      · exact bankPut_run hp _ _ _ _
    · exact .refl s
  · exact .refl s

theorem pointDelBlock_run (p : Port) (bank list days start : Int) (revision : Option Int) :
    ControllerRun s (pointDelBlock p bank list days start revision s).1 := by
  unfold pointDelBlock removePoint
  split
  · split_ifs
    · exact .refl s
    · exact bankPut_run hp _ _ _ _
    · exact .refl s
  · exact .refl s

theorem listClearBlock_run (p : Port) (bank list : Int) (revision : Option Int) :
    ControllerRun s (listClearBlock p bank list revision s).1 := by
  unfold listClearBlock
  split
  · split_ifs
    · exact .refl s
    · exact bankPut_run hp _ _ _ _
  · exact .refl s

theorem bankCopyBlock_run (p : Port) (source destination : Int) (revision : Option Int) :
    ControllerRun s (bankCopyBlock p source destination revision s).1 := by
  unfold bankCopyBlock
  split
  · split_ifs
    · exact .refl s
    · exact .refl s
    · exact bankPut_run hp _ _ _ _
  · exact .refl s

theorem bankLoadBlock_run (p : Port) (bank : Int) : ControllerRun s (bankLoadBlock p bank s).1 := by
  unfold bankLoadBlock
  split
  · exact .refl s
  · split_ifs
    · exact .refl s
    · exact bankPut_run hp _ _ _ _
    · exact .refl s

end
end Sys2Proof.Machine

namespace Sys2Proof.Machine

/-! ### The valve driver (R111) -/

section
variable {s t u : State}

theorem computeReport_readyHasPath (s : State) : ReadyHasPath (computeReport s) := by
  intro hready
  obtain ⟨z, hz⟩ := (set_ne_zero_iff _).1 hready
  have hz' : (s.valves.demand.calling.getLsbD z.val && zoneHasPath s z) = true :=
    (getLsbD_setOf (fun z => s.valves.demand.calling.getLsbD z.val && zoneHasPath s z) z).symm.trans hz
  obtain ⟨-, hpath⟩ := Bool.and_eq_true _ _ ▸ hz'
  obtain ⟨v, -, hv⟩ := List.any_eq_true.1 hpath
  obtain ⟨-, hpasses⟩ := Bool.and_eq_true _ _ ▸ hv
  exact (set_ne_zero_iff _).2 ⟨v,
    (getLsbD_setOf (fun v => (s.valves.channels.get v).state.passes) v).trans hpasses⟩

/-- The driver hands on a report that it has computed itself. -/
theorem handReport_run (hp : s.powered = true) : ControllerRun s (handReport s) := by
  unfold handReport
  split
  · exact .refl s
  · have hset : ControllerRun s (setReport (computeReport s) s) := .unseen rfl rfl
    exact hset.trans (.reported _ (hset.powered.trans hp) (computeReport_readyHasPath s))

theorem modValve_run (v : Fin 16) (f : ValveChannel → ValveChannel) (s : State) : ControllerRun s (modValve v f s) :=
  (modValve_keeps s v f).run (by decide)

variable (hp : s.powered = true)
include hp

theorem rewriteValve_run (v : Fin 16) (f : ValveChannel → ValveSettings → ValveChannel) :
    ControllerRun s (rewriteValve v f s) := (modValve_run v _ s).trans (handReport_run hp)

theorem faultsThenReport_run (order : Order) (faulted : ChannelSet) :
    ControllerRun s (faultsThenReport order faulted s) := by
  have hreported := reportFaults_keeps order.indices faulted s
  exact ((hreported.run (by decide)).trans
    (handReport_run ((hreported .powered (by decide)).trans hp))).trans ((takeInTurns_keeps _ _).run (by decide))

theorem faultChannel_run (ch : Fin 16) : ControllerRun s (faultChannel ch s) :=
  have hfault : ControllerRun s (modValve ch ValveChannel.enterFault { s with orders := s.orders.rest }) :=
    .unseen rfl rfl
  hfault.trans (faultsThenReport_run (hfault.powered.trans hp) _ _)

theorem valveUpdateBlock_run (order : Order) : ControllerRun s (valveUpdateBlock order s) :=
  have hupdated : ControllerRun s (setChannels (updatedChannels s) s) := .unseen rfl rfl
  hupdated.trans (faultsThenReport_run (hupdated.powered.trans hp) _ _)

theorem endSwitchBlock_run (ch : Fin 16) (closed : Bool) : ControllerRun s (endSwitchBlock ch closed s) := by
  unfold endSwitchBlock
  split
  · exact .refl s
  · split
    · exact (modValve_run ch _ s).trans (handReport_run hp)
    · exact faultChannel_run hp ch
    all_goals exact .refl s

theorem valveClearBlock_run (channel : Int) : ControllerRun s (valveClearBlock channel s).1 := by
  unfold valveClearBlock
  split
  · exact .refl s
  · split
    · exact (modValve_run _ _ s).trans (handReport_run hp)
    · exact .refl s

end

/-! ### The pass (R94) -/

section
variable {s : State}

/-- A computed zone demands no more than full demand, whatever its integral was (R81, R90). -/
theorem compute_demand_mem {c : ZoneSettings} (hfallback : 0 ≤ c.fallback ∧ c.fallback ≤ 4096) (r : ZoneRecord)
    (i : ZoneInput) (priority : Bool) :
    0 ≤ (r.compute c i priority).demand ∧ (r.compute c i priority).demand ≤ 4096 := by
  rcases compute_cases r c (i := i) priority with ⟨-, h⟩ | ⟨sp, -, -, h⟩ | ⟨sp, temp, -, -, h⟩ <;> rw [h]
  · exact (by decide : (0 : Int) ≤ 0 ∧ (0 : Int) ≤ 4096)
  · exact hfallback
  · exact clamp_mem 0 4096 _ (by decide)

/-- The delivered demands of a pass lie in their range (R92, R94). -/
theorem passDemand_inRange (h : SettingsInRange s.settings) : DemandInRange (passDemand s) := by
  intro z
  have hdemand := compute_demand_mem (h.zones z).fallback (zoneRecord s z) (zoneInput s z) s.firing.priority.isSome
  rw [passDemand_delivered, computedRegulator, Tab.get_ofFn, compute_delivered]
  unfold deliveredOf
  split_ifs
  · exact ⟨by decide, by decide⟩
  · exact ⟨le_rfl, by decide⟩
  · exact hdemand

theorem handDemand_run (hp : s.powered = true) (order : PassOrder) {d : Demand}
    (hd : SettingsInRange s.settings → DemandInRange d) : ControllerRun s (handDemand order d s) := by
  have happlied : ∀ u, ControllerRun u (applyDemand d u) := fun u => (applyDemand_keeps u d).run (by decide)
  have hhanded := handReport_keeps (applyDemand d s)
  cases order
  · have htaken : ControllerRun s (takeDemand s.firing.heating d s) := .demanded _ d hp hd
    exact (htaken.trans (happlied _)).trans (handReport_run (htaken.powered.trans hp))
  · have htaken : ControllerRun s (takeDemand s.firing.heating d (applyDemand d s)) :=
      (happlied s).trans (.demanded _ d hp hd)
    exact htaken.trans (handReport_run (htaken.powered.trans hp))
  · have hsettings : (handReport (applyDemand d s)).settings = s.settings := hhanded .settings (by decide)
    exact ((happlied s).trans (handReport_run (s := applyDemand d s) hp)).trans
      (.demanded _ d ((hhanded .powered (by decide)).trans hp) (by rwa [hsettings]))

theorem passBlock_run (hp : s.powered = true) (order : Order) : ControllerRun s (passBlock order s) := by
  have hcomputed : Keeps [.raised, .notices, .links, .regulator] s (takeRaised (zonesComputed s)) :=
    (((setRegulator_keeps s _).mono (by simp)).trans ((zonesComputed_keeps s).mono (by simp))).trans
      ((takeInTurns_keeps [] _).mono (by simp))
  have hsettings : (takeRaised (zonesComputed s)).settings = s.settings := hcomputed .settings (by decide)
  have hhanded : ControllerRun (takeRaised (zonesComputed s)) (demandHanded order s) :=
    handDemand_run ((hcomputed .powered (by decide)).trans hp) order.pass
      fun h => passDemand_inRange (by rwa [hsettings] at h)
  exact (((hcomputed.run (by decide)).trans hhanded).trans ((callingBrought_keeps s order).run (by decide))).trans
    ((takeInTurns_keeps order.turns _).run (by decide))

/-! ### The publication and the high limit (R73, R132) -/

theorem testHighLimit_run (s : State) : ControllerRun s (testHighLimit s) := by
  unfold testHighLimit
  split
  · exact .lockedOut .highLimit s.firing rfl
  · exact .refl s

theorem takePublication_run (hp : s.powered = true) : ControllerRun s (takePublication s) := by
  by_cases hs : s.firing.state = .lockout
  · have hcopied : ControllerRun s (flowCopied s) := .copied (flowCopied s).firing hs rfl
    have htested : (testHighLimit (flowCopied s)).firing.state = .lockout := by
      rw [(testHighLimit_shows (s := flowCopied s) hs).1]
      exact hs
    rw [takePublication_of_lockout hs]
    exact (hcopied.trans (testHighLimit_run _)).trans (.cooled htested)
  · cases htrips : trips (flowCopied s) with
    | true =>
      have hlockOut : lockOut .highLimit (flowCopied s) = enterLockout .highLimit (flowCopied s) := if_neg hs
      rw [takePublication_of_trips hs htrips, ← hlockOut]
      exact .lockedOut .highLimit (flowCopied s).firing rfl
    | false =>
      rw [takePublication_of_calm hs htrips]
      exact .settled (flowCopied s).firing s.inputs.interlock hp .inl

theorem expireWindow_run (hp : s.powered = true) (order : Order) : ControllerRun s (expireWindow order s) := by
  have hlosses := ((windowsJudged_keeps s).mono (m := [.capture, .raised, .notices, .links]) (by simp)).trans
    ((lossesTaken_keeps order s).mono (by simp))
  exact (hlosses.run (by decide)).trans (takePublication_run ((hlosses .powered (by decide)).trans hp))

/-! ### The controller's own commands, inputs and timers (R120, R125, R126, R137 to R140) -/

variable (hp : s.powered = true)
include hp

theorem inhibitBlock_run (p : Port) (value : Int) : ControllerRun s (inhibitBlock p value s).1 := by
  unfold inhibitBlock
  split
  · cases p
    · exact .settled { s.firing with inhibitText := decide (value = 1) } s.inputs.interlock hp .inl
    · exact .settled { s.firing with inhibitWire := decide (value = 1) } s.inputs.interlock hp .inl
  · exact .refl s

theorem setTimedCall_run (seconds : Nat) : ControllerRun s (setTimedCall seconds s) :=
  .derived s.settings s.inputs.request (some seconds) hp id rfl

theorem dhwBoostBlock_run (minutes : Int) : ControllerRun s (dhwBoostBlock minutes s).1 := by
  unfold dhwBoostBlock
  split_ifs
  · exact .refl s
  · exact setTimedCall_run hp _
  · exact .refl s

/-- The request input at its level, with the call derived from it. -/
theorem requestBlock_run (asserted : Bool) : ControllerRun s (requestBlock asserted (setRequest asserted s)) := by
  unfold requestBlock
  split
  · exact .derived s.settings asserted (some _) hp id rfl
  · exact .derived s.settings asserted s.firing.timedCall hp id rfl

theorem minOnBlock_run : ControllerRun s (minOnBlock s) := by
  unfold minOnBlock
  split
  · exact .settled { s.firing with minOn := none } s.inputs.interlock hp .inl
  · exact .refl s

theorem minOffBlock_run : ControllerRun s (minOffBlock s) := by
  unfold minOffBlock
  split
  · exact .settled { s.firing with minOff := none } s.inputs.interlock hp .inl
  · exact .refl s

theorem overrunBlock_run : ControllerRun s (overrunBlock s) := by
  unfold overrunBlock
  split
  · next h => exact .ranOn hp h.1
  · exact .refl s

omit hp in
theorem faultPersistenceBlock_run : ControllerRun s (faultPersistenceBlock s) := by
  unfold faultPersistenceBlock
  split
  · have hstopped : ControllerRun s (modFiring (fun f => { f with faultTimer := none }) s) :=
      .timed s.inputs.flame s.inputs.fault s.firing.flameWait none s
    exact hstopped.trans (.lockedOut .boilerFault { s.firing with faultTimer := none } rfl)
  · exact .refl s

theorem timedCallBlock_run : ControllerRun s (timedCallBlock s) := by
  unfold timedCallBlock
  split
  · exact .derived s.settings s.inputs.request none hp id rfl
  · exact .refl s

omit hp in
theorem endPriority_run : ControllerRun s (endPriority s) := (ControllerRun.priorityEnded s).trans (.reflowed _)

theorem diverterOpenBlock_run : ControllerRun s (diverterOpenBlock s) := by
  unfold diverterOpenBlock
  split
  · next h =>
    exact .settled { s.firing with
      dhwPath := true, diverterOn := max s.firing.diverterOn s.settings.hotWater.openTime } s.inputs.interlock hp
      fun _ => .inr h.1
  · exact .refl s

/-! ### A written setting (R180) -/

/-- What the write of a setting makes its block do. -/
theorem settingWritten_run (q : Param) (value : Int) :
    ControllerRun s (q.act (setSettings (q.write s.settings value) s)) := by
  have hwritten : (q.write s.settings value).limits = s.settings.limits →
      ControllerRun s (setSettings (q.write s.settings value) s) := .written _ fun h => h.write value q
  have hended : ∀ {u} {c : Prop} [Decidable c], ControllerRun s u → ControllerRun s (if c then endPriority u else u) := by
    intro u c _ hu
    split
    · exact hu.trans endPriority_run
    · exact hu
  cases q with
  | enabled | base | frost => exact (hwritten rfl).trans ((resolve_keeps _).run (by decide))
  | edge | filter => exact (hwritten rfl).trans ((modChannel_keeps _ _ _).run (by decide))
  | valveZone | minDuty | maxDuty | valveOpen | valveClose | confirm =>
    have hset := hwritten rfl
    exact hset.trans (rewriteValve_run (hset.powered.trans hp) _ _)
  | highLimit => exact (ControllerRun.reformed _ (fun h => h.write value .highLimit) rfl).trans (testHighLimit_run _)
  | fmin => exact .reformed _ (fun h => h.write value .fmin) rfl
  | fmax => exact .reformed _ (fun h => h.write value .fmax) rfl
  | dhwTarget => exact (hwritten rfl).trans (.reflowed _)
  | dhwMode =>
    show ControllerRun s (modeWritten _)
    unfold modeWritten
    split
    · exact .derived (Param.dhwMode.write s.settings value) s.inputs.request none hp (fun h => h.write value .dhwMode) rfl
    · exact .derived (Param.dhwMode.write s.settings value) s.inputs.request s.firing.timedCall hp
        (fun h => h.write value .dhwMode) rfl
  | dhwPriority => exact hended (hwritten rfl)
  | dhwMaxPriority => exact hended (hwritten rfl)
  | dhwOpenTime =>
    show ControllerRun s (openTimeWritten _)
    unfold openTimeWritten
    split
    · next hdue =>
      have hdiverter : s.firing.diverter = true := by
        simp only [pathDue, Bool.and_eq_true] at hdue
        exact hdue.1.1
      exact (hwritten rfl).trans (.settled { s.firing with dhwPath := true } s.inputs.interlock hp fun _ => .inr hdiverter)
    · exact hwritten rfl
  | _ => exact hwritten rfl

theorem paramSetBlock_run (group idx field value : Int) : ControllerRun s (paramSetBlock group idx field value s).1 := by
  unfold paramSetBlock
  split
  · exact .refl s
  · exact settingWritten_run hp _ _

omit hp in
/-- An input line whose level does not change does not act. -/
theorem onEdge_run {block : State → State} {old new : Bool} {u : State} (hsame : old = new → u = s)
    (h : ControllerRun s (block u)) : ControllerRun s (onEdge old new block u) := by
  unfold onEdge
  split
  · next heq =>
    rw [hsame heq]
    exact .refl s
  · exact h

end

/-! ### Every row -/

theorem withOrder_run {f : Order → State → State} {s : State} (hp : s.powered = true)
    (hf : ∀ o u, u.powered = true → ControllerRun u (f o u)) : ControllerRun s (withOrder f s) :=
  have htaken : ControllerRun s { s with orders := s.orders.rest } := .unseen rfl rfl
  htaken.trans (hf _ _ (htaken.powered.trans hp))

/-- The rows that bring the controller more than `ControllerRun` names: power, SOFT RESET, LOCKOUT CLEAR, and the
path-wait expiry, which alone touches that timer. -/
def isSpecial : Instr → Bool
  | .powerUp | .externalReset | .powerLoss | .softReset _ | .lockoutClear _ | .pathWaitExpiry => true
  | _ => false

theorem exec_run {i : Instr} {s t : State} (hi : isSpecial i = false) (h : exec i s = .next t) : ControllerRun s t := by
  cases ho : isOuter i with
  | true =>
    have hplant := exec_plant ho h
    have hkeeps := (keeps_iff_plant s t).2 hplant
    exact .unseen (hkeeps.panel (by decide)) (hotWaterSchedule_congr (exec_remembered ho h))
  | false =>
    cases i with
    | clockSet => exact command_run h fun hp => clockSetBlock_run hp _ _ _ _
    | pointAdd => exact command_run h fun hp => pointAddBlock_run hp _ _ _ _ _ _ _
    | pointDel => exact command_run h fun hp => pointDelBlock_run hp _ _ _ _ _ _
    | listClear => exact command_run h fun hp => listClearBlock_run hp _ _ _ _
    | bankCopy => exact command_run h fun hp => bankCopyBlock_run hp _ _ _ _
    | bankLoad => exact command_run h fun hp => bankLoadBlock_run hp _ _
    | bankSelect => exact command_run h fun hp => bankSelectBlock_run hp _ _
    | bankTimed => exact command_run h fun hp => bankTimedBlock_run hp _ _ _ _
    | bankCancel => exact command_run h fun hp => bankCancelBlock_run hp _
    | paramSet => exact command_run h fun hp => paramSetBlock_run hp _ _ _ _
    | valveClear => exact command_run h fun hp => valveClearBlock_run hp _
    | inhibit => exact command_run h fun hp => inhibitBlock_run hp _ _
    | dhwBoost => exact command_run h fun hp => dhwBoostBlock_run hp _
    | secondBoundary => exact event_run h fun hp => secondBoundaryBlock_run hp
    | windowExpiry => exact event_run h fun hp => withOrder_run hp fun o _ hv => expireWindow_run hv o
    | pass => exact event_run h fun hp => withOrder_run hp fun o _ hv => passBlock_run hv o
    | valveUpdate => exact event_run h fun hp => withOrder_run hp fun o _ hv => valveUpdateBlock_run hv o
    | confirmTimeout ch =>
      refine event_run h fun hp => ?_
      unfold confirmTimeoutBlock
      split
      · exact faultChannel_run hp ch
      · exact .refl _
    | cycleStart ch => exact event_run h fun _ => modValve_run ch _ _
    | driveLineOff ch => exact event_run h fun _ => modValve_run ch _ _
    | endSwitchEdge ch closed =>
      refine lineEvent_run h (fun _ => modValve_run ch _ s) fun hp => ?_
      have hset : ControllerRun (nothingRaised s) (nothingRaised (setEndSwitch ch closed s)) := .unseen rfl rfl
      split
      · exact hset
      · exact hset.trans (endSwitchBlock_run (hset.powered.trans hp) ch closed)
    | flameEdge asserted =>
      refine lineEvent_run h (.dark { s.inputs with flame := asserted }) fun _ => onEdge_run ?_ ?_
      · rintro rfl; rfl
      · unfold flameBlock
        split
        · exact .timed asserted s.inputs.fault none s.firing.faultTimer (nothingRaised s)
        · exact .timed asserted s.inputs.fault s.firing.flameWait s.firing.faultTimer (nothingRaised s)
    | boilerFaultEdge asserted =>
      refine lineEvent_run h (.dark { s.inputs with fault := asserted }) fun _ => onEdge_run ?_ ?_
      · rintro rfl; rfl
      · exact .timed s.inputs.flame asserted s.firing.flameWait _ (nothingRaised s)
    | interlockEdge closed =>
      refine lineEvent_run h (.dark { s.inputs with interlock := closed }) fun hp => onEdge_run ?_ ?_
      · rintro rfl; rfl
      · exact .settled (s := nothingRaised s) s.firing closed hp .inl
    | hotWaterRequestEdge asserted =>
      refine lineEvent_run h (.dark { s.inputs with request := asserted }) fun hp => onEdge_run ?_ ?_
      · rintro rfl; rfl
      · exact requestBlock_run (s := nothingRaised s) hp asserted
    | minOnExpiry => exact event_run h fun hp => minOnBlock_run hp
    | minOffExpiry => exact event_run h fun hp => minOffBlock_run hp
    | overrunExpiry => exact event_run h fun hp => overrunBlock_run hp
    | flameWaitExpiry =>
      refine event_run h fun _ => ?_
      unfold flameWaitBlock
      split
      · exact (ControllerRun.timed s.inputs.flame s.inputs.fault none s.firing.faultTimer (nothingRaised s)).trans
          ((postBoth_keeps _ _).run (by decide))
      · exact .refl _
    | faultPersistenceExpiry => exact event_run h fun _ => faultPersistenceBlock_run
    | timedCallExpiry => exact event_run h fun hp => timedCallBlock_run hp
    | priorityExpiry =>
      refine event_run h fun _ => ?_
      unfold priorityBlock
      split
      · exact endPriority_run
      · exact .refl _
    | diverterOpen => exact event_run h fun hp => diverterOpenBlock_run hp
    | powerUp | externalReset | powerLoss | softReset | lockoutClear | pathWaitExpiry => cases hi
    | _ => cases ho

end Sys2Proof.Machine

namespace Sys2Proof.Machine

/-! ## What every row does to the firing controller -/

/-- The controller and what its conditions look at, the hot-water schedule state included. -/
def State.scene (s : State) : (Bool × Firing × Inputs × Settings) × Bool := (s.panel, hotWaterSchedule s)

/-- The controller after its part of SOFT RESET (R143). -/
def controlSettled (s : State) : State := settle (settleReport (controlRestarted s))

/-- What row i does to the controller from s to t. -/
inductive ControllerRow (i : Instr) (s t : State) : Prop
  | run : isSpecial i = false → ControllerRun s t → ControllerRow i s t
  | same : t.scene = s.scene → ControllerRow i s t
  /-- POWER_UP, and the external reset input of a part under power (R181). -/
  | started : i = .powerUp ∨ i = .externalReset → Started s t → ControllerRow i s t
  /-- Power loss (R179). -/
  | lost : i = .powerLoss → t.scene = ((false, blankFiring 0 false, s.inputs, factorySettings), false) →
      ControllerRow i s t
  /-- SOFT RESET (R143). -/
  | reset : s.powered = true → t.scene = (controlSettled s).scene → ControllerRow i s t
  /-- LOCKOUT CLEAR (R136). -/
  | cleared (p : Port) (u : State) : i = .lockoutClear p → s.powered = true → s.firing.state = .lockout →
      u.scene = s.scene → t.scene = (endLockout p u).scene → ControllerRow i s t
  /-- The path-wait expiry (R123). -/
  | waited : i = .pathWaitExpiry → t.scene = (modFiring (fun f => { f with pathWait := none }) s).scene →
      ControllerRow i s t

section
variable {s t : State}

theorem scene_eq_iff : t.scene = s.scene ↔ (t.powered = s.powered ∧ t.firing = s.firing ∧ t.inputs = s.inputs ∧
    t.settings = s.settings) ∧ hotWaterSchedule t = hotWaterSchedule s := by
  rw [← panel_eq_iff]
  simp [State.scene]

theorem Keeps.scene {l : List Part} (h : Keeps l s t)
    (hl : ∀ part ∈ [Part.powered, .firing, .inputs, .settings, .program], part ∉ l) : t.scene = s.scene :=
  scene_eq_iff.2 ⟨panel_eq_iff.1 (h.panel fun part hpart => hl part (by fin_cases hpart <;> decide)),
    hotWaterSchedule_congr (h.remembered (hl _ (by decide)))⟩

theorem withMatrix_scene (block : State → State) (s : State) :
    (withMatrix block s).scene = (block (nothingRaised s)).scene :=
  (eventsTaken_of_block s _).scene (by decide)

theorem command_scene (c : Instr) (p : Port) (block : State → State × Response) (s : State) :
    (deliver c p (block (nothingRaised s)).2 (eventsTaken s (block (nothingRaised s)).1)).scene =
      (block (nothingRaised s)).1.scene :=
  ((deliver_keeps _ _ _ _).scene (by decide)).trans ((eventsTaken_of_block s _).scene (by decide))

/-- LOCKOUT CLEAR ends a LOCKOUT or leaves the part. -/
theorem lockoutClearBlock_cases (p : Port) (s : State) :
    (s.firing.state = .lockout ∧ (lockoutClearBlock p s).1 = endLockout p s) ∨ (lockoutClearBlock p s).1 = s := by
  unfold lockoutClearBlock
  split
  · next hstate =>
    split
    · split
      · exact .inl ⟨hstate, rfl⟩
      · exact .inr rfl
    · exact .inl ⟨hstate, rfl⟩
  · exact .inr rfl

theorem softReset_scene (p : Port) (s : State) : (softReset p s).scene = (controlSettled s).scene := by
  have htaken := takeAroundReset_keeps (restartControlled s) s.orders.next.matrixAt
  have hports : (softReset p s).scene = (restartTaken s).scene := rfl
  exact hports.trans (htaken.scene (by decide))

theorem losePower_scene (s : State) :
    (losePower s).scene = ((false, blankFiring 0 false, s.inputs, factorySettings), false) := by
  have hinputs : (stopSave s).inputs = s.inputs := stopSave_keeps s .inputs (by decide)
  rw [← hinputs]
  rfl

theorem exec_controllerRow {i : Instr} (h : exec i s = .next t) : ControllerRow i s t := by
  cases hi : isSpecial i with
  | false => exact .run hi (exec_run hi h)
  | true =>
    cases i with
    | powerUp =>
      obtain ⟨u, hu⟩ := exists_started s
      cases (hu.row .powerUp (.inl rfl)).symm.trans h
      exact .started (.inl rfl) hu
    | externalReset =>
      rcases (event_eq_next_iff startPart s t).1 h with ⟨hp, -⟩ | ⟨-, rfl⟩
      · obtain ⟨u, hu⟩ := exists_started s
        cases (hu.row .externalReset (.inr ⟨rfl, hp⟩)).symm.trans h
        exact .started (.inr rfl) hu
      · exact .same rfl
    | powerLoss =>
      rcases (event_eq_next_iff losePower s t).1 h with ⟨-, rfl⟩ | ⟨-, rfl⟩
      · exact .lost rfl ((withMatrix_scene _ s).trans (losePower_scene (nothingRaised s)))
      · exact .same rfl
    | softReset p =>
      rcases (event_eq_next_iff _ s t).1 h with ⟨hp, -⟩ | ⟨-, rfl⟩
      · cases (exec_softReset p hp).symm.trans h
        exact .reset hp (softReset_scene p s)
      · exact .same rfl
    | lockoutClear p =>
      rcases (command_eq_next_iff _ p _ s t).1 h with ⟨hp, rfl⟩ | ⟨-, rfl⟩
      · have hscene := command_scene (.lockoutClear p) p (lockoutClearBlock p) s
        rcases lockoutClearBlock_cases p (nothingRaised s) with ⟨hstate, hcleared⟩ | hkept
        · exact .cleared p (nothingRaised s) rfl hp hstate rfl (hscene.trans (congrArg State.scene hcleared))
        · exact .same (hscene.trans ((congrArg State.scene hkept).trans rfl))
      · exact .same rfl
    | pathWaitExpiry =>
      rcases (event_eq_next_iff pathWaitBlock s t).1 h with ⟨-, rfl⟩ | ⟨-, rfl⟩
      · have hscene := withMatrix_scene pathWaitBlock s
        unfold pathWaitBlock at hscene
        split at hscene
        · exact .waited rfl (hscene.trans ((postBoth_keeps _ _).scene (by decide)))
        · exact .same hscene
      · exact .same rfl
    | _ => cases hi

end
end Sys2Proof.Machine

namespace Sys2Proof.Machine

/-! ## Operations by their cases (R134, R137, R18) -/

section
variable (s : State)

/-- Where the call is what its causes have it nothing is derived; a start or an end settles (R137). -/
theorem deriveCall_cases : (deriveCall s = s ∧ callWanted s = s.firing.call) ∨ deriveCall s = settle (startCall s) ∨
    deriveCall s = settle (endCall s) := by
  unfold deriveCall
  cases callWanted s <;> cases s.firing.call <;> simp

/-- A schedule state that has not changed is not taken (R18). -/
theorem takeSchedule_cases (on : Bool) : (takeSchedule on s = s ∧ s.firing.schedule = on) ∨
    takeSchedule on s = deriveCall (modFiring (fun f => { f with schedule := on }) s) := by
  unfold takeSchedule
  split
  · exact .inl ⟨rfl, by assumption⟩
  · exact .inr rfl

/-- In LOCKOUT a cause adds its reason or changes nothing; elsewhere it enters LOCKOUT (R132 to R135). -/
theorem lockOut_cases (reason : LockoutReason) : (s.firing.state ≠ .lockout ∧ lockOut reason s = enterLockout reason s) ∨
    (s.firing.state = .lockout ∧ (lockOut reason s = s ∨ ∃ l, s.firing.lockout = some l ∧ lockOut reason s =
      postBoth .lockout (modFiring (fun f => { f with lockout := some (l.add reason) }) s))) := by
  unfold lockOut
  split
  · next hstate =>
    refine .inr ⟨hstate, ?_⟩
    split
    · exact .inl rfl
    · next l hl =>
      split
      · exact .inl rfl
      · exact .inr ⟨l, hl, rfl⟩
  · next hstate => exact .inl ⟨hstate, rfl⟩

/-- Entry to LOCKOUT for either reason (R134). -/
theorem enterLockout_spec (reason : LockoutReason) :
    (enterLockout reason s).raised = s.raised ++ lineEvents .burnerOn .burnerOff s.firing.burner (burnerLeft s) ++
        lineEvents .pumpOn .pumpOff s.firing.pump (flowHot s) ++ [⟨.lockoutOn, 0⟩] ∧
      (∃ m, (enterLockout reason s).firing.outputs = (burnerLeft s, flowHot s, s.firing.call, .lockout,
        some (lockoutRecord reason s), s.firing.flow, s.firing.flowStatus, m)) ∧
      ∀ p, (enterLockout reason s).notices.of p = (s.notices.of p).take .lockout := by
  obtain ⟨hleft, m, houtputs⟩ := firingLeft_shows s
  simp only [Firing.outputs, Prod.mk.injEq] at houtputs
  obtain ⟨hburner, hpump, hcall, -, -, hflow, hstatus, hminOff⟩ := houtputs
  have hkeeps := (firingLeft_reaches s).1
  have hclock : (firingLeft s).clock = s.clock := hkeeps .clock (by decide)
  have hhot : flowHot (lockoutEntered reason (firingLeft s)) = flowHot s :=
    flowHot_congr (s := s) (t := lockoutEntered reason (firingLeft s)) (hkeeps .settings (by decide)) hflow hstatus
  have hknown : (firingLeft s).firing.flowKnown = s.firing.flowKnown := by rw [Firing.flowKnown, hstatus]; rfl
  have hrecord : lockoutRecord reason (firingLeft s) = lockoutRecord reason s := by
    simp only [lockoutRecord, hclock, hflow, hknown]
  obtain ⟨hlines, hpumped⟩ := setPump_spec (lockoutEntered reason (firingLeft s)) (flowHot s)
  obtain ⟨hsilent, hsilent'⟩ := holdForLockout_silent (setPump (flowHot s) (lockoutEntered reason (firingLeft s)))
  rw [enterLockout_eq, hhot]
  refine ⟨?_, ⟨m, ?_⟩, fun p => ?_⟩
  · have hbefore : (lockoutEntered reason (firingLeft s)).firing.pump = s.firing.pump := hpump
    have hraised : (lockoutEntered reason (firingLeft s)).raised = (firingLeft s).raised := rfl
    rw [hraised, hleft, hbefore] at hpumped
    show (holdForLockout _).raised ++ [⟨.lockoutOn, 0⟩] = _
    rw [hsilent, hpumped]
  · refine hsilent'.trans ?_
    rw [hlines]
    simp only [lockoutEntered, modFiring_fields, Firing.outputs, hburner, hcall, hrecord, hflow, hstatus, hminOff]
  · rw [postBoth_notices_of]
    have hheld : Reaches s (raise .lockoutOn (holdForLockout
        (setPump (flowHot s) (lockoutEntered reason (firingLeft s))))) :=
      ((((firingLeft_reaches s).andThen fun u => modFiring_reaches _ u).andThen (setPump_reaches _)).andThen
        holdForLockout_reaches).andThen (raise_reaches _)
    rw [show (raise _ _).notices = s.notices from hheld.1 .notices (by decide)]

end

/-! ## The lockout record (R134, R135) -/

/-- From s to t LOCKOUT stays where it stands, and the record keeps to it. -/
structure LockoutStep (s t : State) : Prop where
  kept : LockoutKept s → LockoutKept t
  stays : s.firing.state = .lockout → t.firing.state = .lockout

section
variable {s t u : State}

theorem LockoutKept.congr (h : LockoutKept s) (hstate : t.firing.state = .lockout ↔ s.firing.state = .lockout)
    (hlockout : t.firing.lockout = s.firing.lockout) : LockoutKept t where
  record := by rw [hstate, hlockout]; exact h.record
  reason := by rw [hlockout]; exact h.reason

theorem LockoutKept.of_none (hstate : t.firing.state ≠ .lockout) (hlockout : t.firing.lockout = none) :
    LockoutKept t where
  record := by simp [hstate, hlockout]
  reason := by simp [hlockout]

theorem LockoutKept.of_some {l : Lockout} (hstate : t.firing.state = .lockout) (hlockout : t.firing.lockout = some l)
    (hreason : l.highLimit = true ∨ l.boilerFault = true) : LockoutKept t where
  record := by simp [hstate, hlockout]
  reason := by
    rw [hlockout]
    rintro _ ⟨⟩
    exact hreason

theorem LockoutStep.of_eq (hstate : t.firing.state = s.firing.state) (hlockout : t.firing.lockout = s.firing.lockout) :
    LockoutStep s t := ⟨fun h => h.congr (by rw [hstate]) hlockout, fun h => hstate.trans h⟩

theorem LockoutStep.refl (s : State) : LockoutStep s s := .of_eq rfl rfl

theorem LockoutStep.trans (h : LockoutStep s t) (k : LockoutStep t u) : LockoutStep s u :=
  ⟨k.kept ∘ h.kept, k.stays ∘ h.stays⟩

/-- A step that begins where the state and the record are as in s. -/
theorem LockoutStep.after (h : LockoutStep u t) (hstate : u.firing.state = s.firing.state)
    (hlockout : u.firing.lockout = s.firing.lockout) : LockoutStep s t := (LockoutStep.of_eq hstate hlockout).trans h

theorem LockoutStep.of_scene (h : t.scene = s.scene) : LockoutStep s t := by
  obtain ⟨⟨-, hfiring, -⟩, -⟩ := scene_eq_iff.1 h
  exact .of_eq (by rw [hfiring]) (by rw [hfiring])

theorem Silent.lockoutStep (h : Silent s t) : LockoutStep s t := by
  have houtputs := h.outputs
  simp only [Firing.outputs, Prod.mk.injEq] at houtputs
  obtain ⟨-, -, -, hstate, hlockout, -⟩ := houtputs
  exact .of_eq hstate hlockout

theorem StaysOut.lockoutStep (h : StaysOut s t) (hs : s.firing.state ≠ .lockout) : LockoutStep s t := by
  have hpublished := h.published
  simp only [Firing.published, Prod.mk.injEq] at hpublished
  obtain ⟨hlockout, -⟩ := hpublished
  exact ⟨fun hkept => hkept.congr (iff_of_false h.state hs) hlockout, fun hstate => absurd hstate hs⟩

variable (s)

theorem settle_of_lockout {s : State} (h : s.firing.state = .lockout) : settle s = s := by
  rw [settle, h]

theorem settle_lockoutStep : LockoutStep s (settle s) := by
  by_cases hs : s.firing.state = .lockout
  · rw [settle_of_lockout hs]
    exact .refl s
  · exact (settle_staysOut s hs).lockoutStep hs

theorem Lockout.add_reason (l : Lockout) (reason : LockoutReason) :
    (l.add reason).highLimit = true ∨ (l.add reason).boilerFault = true := by
  cases reason
  · exact .inl rfl
  · exact .inr rfl

theorem lockOut_lockoutStep (reason : LockoutReason) : LockoutStep s (lockOut reason s) := by
  rcases lockOut_cases s reason with ⟨hs, h⟩ | ⟨hs, h | ⟨l, -, h⟩⟩ <;> rw [h]
  · obtain ⟨-, ⟨m, houtputs⟩, -⟩ := enterLockout_spec s reason
    simp only [Firing.outputs, Prod.mk.injEq] at houtputs
    obtain ⟨-, -, -, hstate, hlockout, -⟩ := houtputs
    exact ⟨fun _ => .of_some hstate hlockout (Lockout.add_reason _ reason), fun _ => hstate⟩
  · exact .refl s
  · exact ⟨fun _ => .of_some hs rfl (Lockout.add_reason l reason), fun _ => hs⟩

theorem lockoutPublication_lockoutStep {s : State} (hs : s.firing.state = .lockout) :
    LockoutStep s (lockoutPublication s) := by
  obtain ⟨-, houtputs, -⟩ := lockoutPublication_shows hs
  simp only [Firing.outputs, Prod.mk.injEq] at houtputs
  obtain ⟨-, -, -, hstate, hlockout, -⟩ := houtputs
  refine ⟨fun h => ?_, fun _ => hstate⟩
  obtain ⟨l, hl⟩ := Option.isSome_iff_exists.1 (h.record.1 hs)
  rw [hl, Option.map_some] at hlockout
  obtain ⟨hlimit, hfault, -⟩ := Lockout.follow_frame l s.firing.flowKnown s.firing.flow
  exact .of_some hstate hlockout (by rw [hlimit, hfault]; exact h.reason l hl)

theorem startCall_lockoutStep : LockoutStep s (startCall s) :=
  ((setDiverter_silent _).trans (formFlow_silent _)).lockoutStep.after rfl rfl

theorem endCall_lockoutStep : LockoutStep s (endCall s) :=
  ((setDiverter_silent _).trans (formFlow_silent _)).lockoutStep.after rfl rfl

theorem deriveCall_lockoutStep : LockoutStep s (deriveCall s) := by
  rcases deriveCall_cases s with ⟨h, -⟩ | h | h <;> rw [h]
  · exact .refl s
  · exact (startCall_lockoutStep s).trans (settle_lockoutStep _)
  · exact (endCall_lockoutStep s).trans (settle_lockoutStep _)

theorem ControllerRun.lockoutStep {s t : State} (h : ControllerRun s t) : LockoutStep s t := by
  induction h with
  | unseen hpanel =>
    obtain ⟨-, hfiring, -⟩ := panel_eq_iff.1 hpanel
    exact .of_eq (by rw [hfiring]) (by rw [hfiring])
  | trans _ _ ih ih' => exact ih.trans ih'
  | timed | dark | written | priorityEnded | copied => exact .of_eq rfl rfl
  | reformed => exact (formHeating_silent _).lockoutStep.after rfl rfl
  | reflowed s => exact (formFlow_silent s).lockoutStep
  | settled => exact (settle_lockoutStep _).after rfl rfl
  | lockedOut => exact (lockOut_lockoutStep _ _).after rfl rfl
  | cooled hs => exact lockoutPublication_lockoutStep hs
  | ranOn _ hs =>
    exact ((endOverrun_staysOut _).lockoutStep (by simp [hs])).after rfl rfl
  | derived => exact (deriveCall_lockoutStep _).after rfl rfl
  | @handedOn s t _ hpanel =>
    obtain ⟨-, hfiring, -⟩ := panel_eq_iff.1 hpanel
    have hsame : LockoutStep s t := .of_eq (by rw [hfiring]) (by rw [hfiring])
    rcases takeSchedule_cases t (hotWaterSchedule t) with ⟨h, -⟩ | h <;> rw [h]
    · exact hsame
    · exact hsame.trans ((deriveCall_lockoutStep _).after rfl rfl)
  | reported | demanded =>
    exact ((formHeating_silent _).lockoutStep.trans (settle_lockoutStep _)).after rfl rfl

end
end Sys2Proof.Machine

namespace Sys2Proof.Machine

section
variable (s : State)

theorem restartStates_lockoutStep : LockoutStep s (restartStates s) := by
  have hidle : s.firing.state ≠ .lockout → LockoutStep s (idleAgain s) := fun hs =>
    have hpump := (setPump_spec (modFiring (fun f => { f with state := .idle, overrun := none }) s) false).1
    have hlockout : (idleAgain s).firing.lockout = s.firing.lockout := by
      have houtputs := (releaseAnyHold_silent (setPump false
        (modFiring (fun f => { f with state := .idle, overrun := none }) s))).outputs
      simp only [Firing.outputs, hpump, Prod.mk.injEq] at houtputs
      obtain ⟨-, -, -, -, hlockout, -⟩ := houtputs
      exact hlockout
    ⟨fun hkept => hkept.congr (iff_of_false (by rw [idleAgain_state]; decide) hs) hlockout, fun h => absurd h hs⟩
  unfold restartStates
  split
  · next hs =>
    have hran : StaysOut s (runOn s) := .of_outputs runOn_shows.2.1 (by decide)
    exact hran.lockoutStep (by simp [hs])
  · split
    · exact (fixHold_silent s).lockoutStep
    · exact .refl s
  all_goals
    next hs => exact hidle (by simp [hs])

theorem restartController_lockoutStep : LockoutStep s (restartController s) := by
  have hcleared : ∀ u, LockoutStep u (clearCall u) := fun u => by
    unfold clearCall
    dsimp only
    split
    · exact (endCall_lockoutStep _).after rfl rfl
    · exact (setDiverter_silent _).lockoutStep.after rfl rfl
  have hretaken : ∀ u, LockoutStep u (retakeCall u) := fun u => by
    unfold retakeCall
    split
    · exact startCall_lockoutStep u
    · exact .refl u
  have hstates : LockoutStep s (restartFiring (clearFiring s)) := (restartStates_lockoutStep _).after rfl rfl
  exact (hstates.trans (hcleared _)).trans (hretaken _)

theorem controlRestarted_lockoutStep : LockoutStep s (controlRestarted s) := by
  unfold controlRestarted
  cases s.orders.next.driverFirst
  · have hcontroller : LockoutStep s (restartController (restartBegun s)) :=
      (restartController_lockoutStep _).after rfl rfl
    exact hcontroller.trans (.of_eq rfl rfl)
  · exact LockoutStep.after (restartController_lockoutStep (restartDriver (restartBegun s))) rfl rfl

theorem settleReport_lockoutStep : LockoutStep s (settleReport s) := by
  rw [settleReport_eq]
  split
  · next h => exact ((endOverrun_staysOut _).lockoutStep (by simp [h.1])).after rfl rfl
  · exact .of_eq rfl rfl

theorem controlSettled_lockoutStep : LockoutStep s (controlSettled s) :=
  (controlRestarted_lockoutStep s).trans ((settleReport_lockoutStep _).trans (settle_lockoutStep _))

/-- LOCKOUT CLEAR leaves LOCKOUT without its record (R136). -/
theorem endLockout_lockout (p : Port) :
    (endLockout p s).firing.state ≠ .lockout ∧ (endLockout p s).firing.lockout = none := by
  obtain ⟨hstate, hpublished⟩ := select_staysOut (post p.other .lockout (modFiring (fun f => { f with state := .idle })
    (raise .lockoutOff (modFiring (fun f => { f with lockout := none }) (releaseAnyHold (setPump false s))))))
  simp only [Firing.published, Prod.mk.injEq] at hpublished
  obtain ⟨hlockout, -⟩ := hpublished
  refine ⟨hstate, hlockout.trans ?_⟩
  rw [show (post p.other _ _).firing = _ from post_keeps _ _ _ .firing (by decide)]
  rfl

end

section
variable {s t : State}

theorem Started.lockoutKept (h : Started s t) : LockoutKept t := by
  have hstate : t.firing.state ≠ .lockout := by
    rw [h.firing]
    unfold startedFiring
    dsimp only
    split_ifs <;> decide
  exact .of_none hstate (by rw [h.firing]; rfl)

/-- No row but LOCKOUT CLEAR and the rows of power leaves LOCKOUT (R135). -/
theorem exec_stays {i : Instr} (h : exec i s = .next t) (hs : s.firing.state = .lockout) :
    t.firing.state = .lockout ∨ (∃ p, i = .lockoutClear p) ∨ i = .powerUp ∨ i = .powerLoss ∨ i = .externalReset := by
  cases exec_controllerRow h with
  | run _ hrun => exact .inl (hrun.lockoutStep.stays hs)
  | same hscene => exact .inl ((LockoutStep.of_scene hscene).stays hs)
  | started hi => exact .inr (.inr (hi.imp_right .inr))
  | lost hi => exact .inr (.inr (.inr (.inl hi)))
  | reset _ hscene => exact .inl (((controlSettled_lockoutStep s).trans (.of_scene hscene)).stays hs)
  | cleared p _ hi => exact .inr (.inl ⟨p, hi⟩)
  | waited _ hscene => exact .inl ((LockoutStep.after (s := s) (.of_scene hscene) rfl rfl).stays hs)

theorem exec_lockoutKept {i : Instr} (h : exec i s = .next t) (hs : LockoutKept s) : LockoutKept t := by
  cases exec_controllerRow h with
  | run _ hrun => exact hrun.lockoutStep.kept hs
  | same hscene => exact (LockoutStep.of_scene hscene).kept hs
  | started _ hstarted => exact hstarted.lockoutKept
  | lost _ hscene =>
    obtain ⟨⟨-, hfiring, -⟩, -⟩ := (scene_eq_iff (s := losePower s)).1 (hscene.trans (losePower_scene s).symm)
    exact .of_none (by rw [hfiring]; exact (by decide : FiringState.idle ≠ .lockout))
      (by rw [hfiring]; rfl)
  | reset _ hscene => exact ((controlSettled_lockoutStep s).trans (.of_scene hscene)).kept hs
  | cleared p u _ _ _ _ hscene =>
    obtain ⟨⟨-, hfiring, -⟩, -⟩ := scene_eq_iff.1 hscene
    obtain ⟨hstate, hlockout⟩ := endLockout_lockout u p
    exact .of_none (by rwa [hfiring]) (by rwa [hfiring])
  | waited _ hscene => exact (LockoutStep.after (s := s) (.of_scene hscene) rfl rfl).kept hs

/-- Settles O59: every row keeps the record with its state, and `exec_stays` names the rows that leave LOCKOUT. -/
theorem stepsKeepLockoutRecord : Obligations.StepsKeepLockoutRecord := by
  refine ⟨fun s t hs h => ?_, fun i s t hs h hleft => (exec_stays h hs).resolve_left hleft⟩
  exact step_rel (R := fun s t => LockoutKept s → LockoutKept t) (fun _ => id) (fun h k => k ∘ h) exec_lockoutKept
    (fun _ _ h => h.congr Iff.rfl rfl) (fun _ h => h.congr Iff.rfl rfl) h hs

end
end Sys2Proof.Machine

namespace Sys2Proof.Machine

/-! ## The hot-water call, the diverter and the priority period (R137, R139, R140) -/

/-- The hot-water call with its causes, the diverter, the hold set and the priority period. -/
def Firing.hotWater (f : Firing) : Bool × Option Nat × Bool × Bool × Bool × Option HoldSet × Option Nat :=
  (f.call, f.timedCall, f.schedule, f.dhwPath, f.diverter, f.hold, f.priority)

/-- The hot-water call and what it is derived from in the controller's record (R137). -/
def Firing.causes (f : Firing) : Bool × Option Nat × Bool := (f.call, f.timedCall, f.schedule)

/-- What `CallKept` asks of the controller's record alone (R139, R140). -/
structure Firing.CallHeld (f : Firing) : Prop where
  diverter : f.DiverterFollows
  path : f.dhwPath = true → f.diverter = true
  priority : f.priority.isSome = true → f.call = true

/-- Neither a call nor a hold set has the diverter, and it is OFF. -/
structure Firing.DiverterOff (f : Firing) : Prop where
  call : f.call = false
  diverter : f.diverter = false
  held : f.diverterHeld = false

/-- From s to t the hot-water call and its causes stand with the priority period, the diverter stays with them, and an
OFF diverter that nothing has stays OFF. -/
structure HotWaterStands (s t : State) : Prop where
  causes : t.firing.causes = s.firing.causes
  held : s.firing.CallHeld → t.firing.CallHeld
  priority : t.firing.priority = s.firing.priority
  off : s.firing.DiverterOff → t.firing.DiverterOff

theorem Firing.CallHeld.congr {f g : Firing} (h : f.CallHeld) (hcall : g.call = f.call) (hpath : g.dhwPath = f.dhwPath)
    (hdiverter : g.diverter = f.diverter) (hhold : g.hold = f.hold) (hpriority : g.priority = f.priority) :
    g.CallHeld where
  diverter := by
    have := h.diverter
    simpa only [DiverterFollows, diverterHeld, hcall, hdiverter, hhold] using this
  path := by rw [hpath, hdiverter]; exact h.path
  priority := by rw [hpriority, hcall]; exact h.priority

section
variable {s t u : State}

theorem HotWaterStands.of_eq (h : t.firing.hotWater = s.firing.hotWater) : HotWaterStands s t := by
  simp only [Firing.hotWater, Prod.mk.injEq] at h
  obtain ⟨hcall, htimed, hschedule, hpath, hdiverter, hhold, hpriority⟩ := h
  exact ⟨by simp only [Firing.causes, hcall, htimed, hschedule],
    fun hs => hs.congr hcall hpath hdiverter hhold hpriority, hpriority,
    fun hs => ⟨hcall.trans hs.call, hdiverter.trans hs.diverter, by rw [Firing.diverterHeld, hhold]; exact hs.held⟩⟩

theorem HotWaterStands.refl (s : State) : HotWaterStands s s := .of_eq rfl

theorem HotWaterStands.trans (h : HotWaterStands s t) (k : HotWaterStands t u) : HotWaterStands s u :=
  ⟨k.causes.trans h.causes, k.held ∘ h.held, k.priority.trans h.priority, k.off ∘ h.off⟩

theorem HotWaterStands.andThen {f : State → State} (h : HotWaterStands s t) (k : ∀ u, HotWaterStands u (f u)) :
    HotWaterStands s (f t) := h.trans (k t)

/-- A step that begins where the call, its causes and the diverter are as in s. -/
theorem HotWaterStands.after (h : HotWaterStands u t) (hu : u.firing.hotWater = s.firing.hotWater) :
    HotWaterStands s t := (HotWaterStands.of_eq hu).trans h

variable (s)

theorem setPump_hotWater (on : Bool) : HotWaterStands s (setPump on s) :=
  .of_eq (by rw [(setPump_spec s on).1]; rfl)

theorem setBurner_hotWater (on : Bool) : HotWaterStands s (setBurner on s) :=
  .of_eq (by rw [(setBurner_spec s on).1]; rfl)

theorem setDiverter_causes : (setDiverter s).firing.causes = s.firing.causes := by
  unfold setDiverter
  dsimp only
  split <;> rfl

/-- The diverter comes to follow the call and the hold set, wherever it stood (R139). -/
theorem setDiverter_held (hpath : s.firing.dhwPath = true → s.firing.diverter = true)
    (hpriority : s.firing.priority.isSome = true → s.firing.call = true) : (setDiverter s).firing.CallHeld := by
  refine ⟨setDiverter_follows s, ?_, ?_⟩
  · unfold setDiverter
    dsimp only
    split
    · exact hpath
    · exact fun h => (Bool.and_eq_true _ _ ▸ h).1
  · unfold setDiverter
    dsimp only
    split <;> exact hpriority

theorem setDiverter_priority : (setDiverter s).firing.priority = s.firing.priority := by
  unfold setDiverter
  dsimp only
  split <;> rfl

/-- Without a call and without a hold set that has it the diverter is OFF (R139). -/
theorem setDiverter_off (hcall : s.firing.call = false) (hheld : s.firing.diverterHeld = false) :
    (setDiverter s).firing.DiverterOff := by
  have hfollows : (setDiverter s).firing.diverter =
      ((setDiverter s).firing.call || (setDiverter s).firing.diverterHeld) := setDiverter_follows s
  obtain ⟨hhold, -⟩ := setDiverter_hold s
  have hstands := (setDiverter_stands s).call.trans hcall
  have hheld' : (setDiverter s).firing.diverterHeld = false := by
    rw [Firing.diverterHeld, hhold]
    exact hheld
  refine ⟨hstands, ?_, hheld'⟩
  rw [hfollows, hstands, hheld']
  rfl

theorem fixHold_hotWater : HotWaterStands s (fixHold s) := by
  refine ⟨rfl, fun h => ⟨?_, h.path, h.priority⟩, rfl, fun h => ⟨h.call, h.diverter, h.diverter⟩⟩
  have hfollows : s.firing.diverter = (s.firing.call || s.firing.diverterHeld) := h.diverter
  show s.firing.diverter = (s.firing.call || s.firing.diverter)
  rw [hfollows]
  cases s.firing.call <;> simp

theorem releaseHold_hotWater : HotWaterStands s (releaseHold s) :=
  ⟨setDiverter_causes _, fun h => setDiverter_held _ h.path h.priority, setDiverter_priority _,
    fun h => setDiverter_off _ h.call rfl⟩

theorem releaseAnyHold_hotWater : HotWaterStands s (releaseAnyHold s) := by
  unfold releaseAnyHold
  split
  · exact releaseHold_hotWater s
  · exact .refl s

theorem formFlow_hotWater : HotWaterStands s (formFlow s) := by
  unfold formFlow
  split
  · split <;> exact .of_eq rfl
  · exact .refl s

theorem formHeating_hotWater : HotWaterStands s (formHeating s) := by
  unfold formHeating
  split
  · exact (formFlow_hotWater _).after rfl
  · exact .refl s

theorem enterFiring_hotWater : HotWaterStands s (enterFiring s) := by
  have hlines : HotWaterStands s (setBurner true (setPump true s)) :=
    (setPump_hotWater s true).andThen (setBurner_hotWater · true)
  have hformed : ∀ u, HotWaterStands u (releaseAnyHold (formHeating u)) := fun u =>
    (formHeating_hotWater u).andThen releaseAnyHold_hotWater
  exact hlines.trans ((hformed _).after rfl)

theorem enterQuiet_hotWater (state : FiringState) : HotWaterStands s (enterQuiet state s) := .of_eq rfl

theorem select_hotWater : HotWaterStands s (select s) := by
  unfold select
  split
  · exact enterFiring_hotWater s
  · exact enterQuiet_hotWater s _

theorem selectQuiet_hotWater : HotWaterStands s (selectQuiet s) := by
  unfold selectQuiet
  split
  · exact select_hotWater s
  · exact select_hotWater s
  · exact select_hotWater s
  all_goals exact .refl s

theorem leaveFiring_hotWater : HotWaterStands s (leaveFiring s) :=
  (setBurner_hotWater s false).trans (.of_eq rfl)

theorem startOverrun_hotWater : HotWaterStands s (startOverrun s) := by
  unfold startOverrun
  dsimp only
  split
  · exact .of_eq rfl
  · exact (fixHold_hotWater _).after rfl

theorem endOverrun_hotWater : HotWaterStands s (endOverrun s) := by
  unfold endOverrun
  split
  · exact enterFiring_hotWater s
  · exact (((setPump_hotWater s false).andThen releaseHold_hotWater).andThen (enterQuiet_hotWater · _)).andThen
      selectQuiet_hotWater

theorem enterOverrun_hotWater : HotWaterStands s (enterOverrun s) := by
  unfold enterOverrun
  split
  · exact (startOverrun_hotWater s).andThen endOverrun_hotWater
  · exact startOverrun_hotWater s

theorem settle_hotWater : HotWaterStands s (settle s) := by
  unfold settle
  split
  · exact select_hotWater s
  · exact select_hotWater s
  · exact select_hotWater s
  · split
    · exact enterFiring_hotWater s
    · exact .refl s
  · split
    · exact (leaveFiring_hotWater s).andThen enterOverrun_hotWater
    · exact .refl s
  · exact .refl s

theorem holdForLockout_hotWater : HotWaterStands s (holdForLockout s) := by
  unfold holdForLockout
  split
  · exact fixHold_hotWater s
  · exact releaseAnyHold_hotWater s

theorem enterLockout_hotWater (reason : LockoutReason) : HotWaterStands s (enterLockout reason s) := by
  have hleft : HotWaterStands s (firingLeft s) := by
    unfold firingLeft
    split
    · exact leaveFiring_hotWater s
    · exact .refl s
  have hentered : ∀ u, HotWaterStands u (lockoutEntered reason u) := fun _ => .of_eq rfl
  have hposted : ∀ u, HotWaterStands u (postBoth .lockout (raise .lockoutOn u)) := fun _ => .of_eq rfl
  rw [enterLockout_eq]
  exact (((hleft.andThen hentered).andThen (setPump_hotWater · _)).andThen holdForLockout_hotWater).andThen hposted

theorem lockOut_hotWater (reason : LockoutReason) : HotWaterStands s (lockOut reason s) := by
  rcases lockOut_cases s reason with ⟨-, h⟩ | ⟨-, h | ⟨l, -, h⟩⟩ <;> rw [h]
  · exact enterLockout_hotWater s reason
  · exact .refl s
  · exact .of_eq rfl

theorem lockoutPublication_hotWater : HotWaterStands s (lockoutPublication s) := by
  have hfollowed : HotWaterStands s (peakFollowed s) := .of_eq rfl
  rw [lockoutPublication_eq]
  split
  · exact (hfollowed.andThen (setPump_hotWater · false)).andThen releaseHold_hotWater
  · exact hfollowed

/-- A call that starts has the diverter and, under ABSOLUTE, a priority period (R137, R139, R140). -/
theorem startCall_held {s : State} (h : s.firing.CallHeld) : (startCall s).firing.CallHeld :=
  (formFlow_hotWater _).held (setDiverter_held _ h.path fun _ => rfl)

theorem endCall_held {s : State} (h : s.firing.CallHeld) : (endCall s).firing.CallHeld :=
  (formFlow_hotWater _).held (setDiverter_held _ h.path nofun)

theorem deriveCall_held {s : State} (h : s.firing.CallHeld) : (deriveCall s).firing.CallHeld := by
  rcases deriveCall_cases s with ⟨hderive, -⟩ | hderive | hderive <;> rw [hderive]
  · exact h
  · exact (settle_hotWater _).held (startCall_held h)
  · exact (settle_hotWater _).held (endCall_held h)

end

/-! ### The call with its causes (R137) -/

section
variable {s t u : State}

theorem callWanted_congr (hmode : t.settings.hotWater.mode = s.settings.hotWater.mode)
    (hrequest : t.inputs.request = s.inputs.request) (htimed : t.firing.timedCall.isSome = s.firing.timedCall.isSome)
    (hschedule : t.firing.schedule = s.firing.schedule) : callWanted t = callWanted s := by
  rw [callWanted_eq, callWanted_eq, hmode, hrequest, htimed, hschedule]

theorem CallKept.held (h : CallKept s) : s.firing.CallHeld := ⟨h.diverter, h.path, h.priority⟩

/-- The call is kept where the record holds it and the causes of the call are those of before. -/
theorem CallKept.of_held (h : CallKept s) (hheld : t.firing.CallHeld) (hcauses : t.firing.causes = s.firing.causes)
    (hpowered : t.powered = s.powered) (hmode : t.settings.hotWater.mode = s.settings.hotWater.mode)
    (hrequest : t.inputs.request = s.inputs.request) (hentries : hotWaterSchedule t = hotWaterSchedule s) :
    CallKept t := by
  simp only [Firing.causes, Prod.mk.injEq] at hcauses
  obtain ⟨hcall, htimed, hschedule⟩ := hcauses
  refine ⟨fun hp => ?_, ?_, hheld.diverter, hheld.path, hheld.priority⟩
  · rw [callWanted_congr hmode hrequest (by rw [htimed]) hschedule, hcall]
    exact h.call (hpowered.symm.trans hp)
  · rw [hschedule, hentries]
    exact h.schedule

theorem CallKept.of_scene (h : CallKept s) (hscene : t.scene = s.scene) : CallKept t := by
  obtain ⟨⟨hpowered, hfiring, hinputs, hsettings⟩, hentries⟩ := scene_eq_iff.1 hscene
  exact h.of_held (by rw [hfiring]; exact h.held) (by rw [hfiring]) hpowered (by rw [hsettings]) (by rw [hinputs]) hentries

/-- What a passage of the controller changes of the part: the controller's record, the hold set written, the events and
the notices. -/
theorem CallKept.of_stands (h : CallKept s) (k : HotWaterStands s t)
    (hkeeps : Keeps [.firing, .valves, .raised, .notices] s t) : CallKept t := by
  have hsettings : t.settings = s.settings := hkeeps .settings (by decide)
  have hinputs : t.inputs = s.inputs := hkeeps .inputs (by decide)
  exact h.of_held (k.held h.held) k.causes (hkeeps .powered (by decide)) (by rw [hsettings]) (by rw [hinputs])
    (hotWaterSchedule_congr (hkeeps.remembered (by decide)))

theorem Reaches.parts (h : Reaches s t) : Keeps [.firing, .valves, .raised, .notices] s t := h.1.mono (by decide)

theorem ReachesPosting.parts (h : ReachesPosting s t) : Keeps [.firing, .valves, .raised, .notices] s t :=
  h.1.mono (by decide)

/-- A call that is derived is what its causes have it, whatever they were before. -/
theorem deriveCall_callKept (hheld : s.firing.CallHeld) (hentries : s.firing.schedule = hotWaterSchedule s) :
    CallKept (deriveCall s) := by
  have hkeeps := (deriveCall_reaches s).1
  have hsettings : (deriveCall s).settings = s.settings := hkeeps .settings (by decide)
  have hinputs : (deriveCall s).inputs = s.inputs := hkeeps .inputs (by decide)
  have hschedule := (deriveCall_passage s).schedule
  have hwanted : callWanted (deriveCall s) = callWanted s :=
    callWanted_congr (by rw [hsettings]) (by rw [hinputs]) (by rw [deriveCall_timedCall]) hschedule
  obtain ⟨hdiverter, hpath, hpriority⟩ := deriveCall_held hheld
  refine ⟨fun _ => (deriveCall_call s).trans hwanted.symm, ?_, hdiverter, hpath, hpriority⟩
  rw [hschedule, hentries, hotWaterSchedule_congr (hkeeps.remembered (by decide))]

/-- The schedule state handed on becomes a cause of the call (R18, R137). -/
theorem takeSchedule_callKept (h : CallKept s) (hpanel : t.panel = s.panel) :
    CallKept (takeSchedule (hotWaterSchedule t) t) := by
  obtain ⟨hpowered, hfiring, hinputs, hsettings⟩ := panel_eq_iff.1 hpanel
  have hheld : t.firing.CallHeld := by rw [hfiring]; exact h.held
  rcases takeSchedule_cases t (hotWaterSchedule t) with ⟨htake, hsame⟩ | htake <;> rw [htake]
  · refine h.of_held hheld (by rw [hfiring]) hpowered (by rw [hsettings]) (by rw [hinputs]) ?_
    rw [← hsame, hfiring, h.schedule]
  · exact deriveCall_callKept (hheld.congr rfl rfl rfl rfl rfl) rfl

theorem ControllerRun.callKept (h : ControllerRun s t) (hs : CallKept s) : CallKept t := by
  induction h with
  | unseen hpanel hentries => exact hs.of_scene (by simp only [State.scene, hpanel, hentries])
  | trans _ _ ih ih' => exact ih' (ih hs)
  | timed => exact hs.of_held (hs.held.congr rfl rfl rfl rfl rfl) rfl rfl rfl rfl rfl
  | dark inputs hp =>
    exact ⟨fun hpowered => absurd (hp.symm.trans hpowered) (by decide), hs.schedule, hs.diverter, hs.path, hs.priority⟩
  | written c _ hlimits =>
    simp only [Settings.limits, Prod.mk.injEq] at hlimits
    obtain ⟨-, -, -, hmode⟩ := hlimits
    exact hs.of_held hs.held rfl rfl hmode rfl rfl
  | @reformed s c _ hmode =>
    have hset : CallKept (setSettings c s) := hs.of_held hs.held rfl rfl hmode rfl rfl
    exact hset.of_stands (formHeating_hotWater _) (formHeating_reaches _).parts
  | reflowed s => exact hs.of_stands (formFlow_hotWater s) (formFlow_reaches s).parts
  | priorityEnded s =>
    exact ⟨hs.call, hs.schedule, hs.diverter, hs.path, nofun⟩
  | @settled s g interlock _ hpath =>
    have hweighed : CallKept (s.reweighed g interlock) :=
      ⟨hs.call, hs.schedule, hs.diverter, fun h => (hpath h).elim hs.path id, hs.priority⟩
    exact hweighed.of_stands (settle_hotWater _) (settle_reaches _).parts
  | @lockedOut s reason g hpath =>
    have hweighed : CallKept (s.reweighed g s.inputs.interlock) :=
      ⟨hs.call, hs.schedule, hs.diverter, fun h => hs.path (hpath.symm.trans h), hs.priority⟩
    exact hweighed.of_stands (lockOut_hotWater _ reason) (lockOut_reaches _ _).parts
  | copied g _ hpath =>
    exact ⟨hs.call, hs.schedule, hs.diverter, fun h => hs.path (hpath.symm.trans h), hs.priority⟩
  | cooled => exact hs.of_stands (lockoutPublication_hotWater _) (lockoutPublication_reaches _).parts
  | @ranOn s _ _ =>
    have hstopped : CallKept (modFiring (fun f => { f with overrun := none }) s) :=
      hs.of_held (hs.held.congr rfl rfl rfl rfl rfl) rfl rfl rfl rfl rfl
    exact hstopped.of_stands (endOverrun_hotWater _) (endOverrun_reaches _).parts
  | derived => exact deriveCall_callKept (hs.held.congr rfl rfl rfl rfl rfl) hs.schedule
  | handedOn _ hpanel => exact takeSchedule_callKept hs hpanel
  | @reported s r _ _ =>
    have hcopied : CallKept (modFiring (fun f => { f with report := r }) s) :=
      hs.of_held (hs.held.congr rfl rfl rfl rfl rfl) rfl rfl rfl rfl rfl
    exact hcopied.of_stands ((formHeating_hotWater _).andThen settle_hotWater)
      ((formHeating_reaches _).andThen settle_reaches).parts
  | @demanded s stood d _ _ =>
    have hcopied : CallKept (modFiring (fun f => { f with
        demand := d, ceiling := if f.state = .firing then ceilingAfter stood f.ceiling else f.ceiling }) s) :=
      hs.of_held (hs.held.congr rfl rfl rfl rfl rfl) rfl rfl rfl rfl rfl
    exact hcopied.of_stands ((formHeating_hotWater _).andThen settle_hotWater)
      ((formHeating_reaches _).andThen settle_reaches).parts

end
end Sys2Proof.Machine

namespace Sys2Proof.Machine

/-! ### The call across SOFT RESET and LOCKOUT CLEAR (R136, R143) -/

/-- What stays of `CallHeld` while a soft reset has taken the diverter out of a hold set. -/
structure Firing.PathHeld (f : Firing) : Prop where
  path : f.dhwPath = true → f.diverter = true
  priority : f.priority.isSome = true → f.call = true

section
variable {s t : State}

theorem Firing.CallHeld.pathHeld {f : Firing} (h : f.CallHeld) : f.PathHeld := ⟨h.path, h.priority⟩

theorem Firing.PathHeld.congr {f g : Firing} (h : f.PathHeld) (hcall : g.call = f.call) (hpath : g.dhwPath = f.dhwPath)
    (hdiverter : g.diverter = f.diverter) (hpriority : g.priority = f.priority) : g.PathHeld :=
  ⟨by rw [hpath, hdiverter]; exact h.path, by rw [hpriority, hcall]; exact h.priority⟩

theorem releaseAnyHold_pathHeld (h : s.firing.PathHeld) : (releaseAnyHold s).firing.PathHeld := by
  unfold releaseAnyHold
  split
  · exact (setDiverter_held (writeHold 0 (modFiring (fun f => { f with hold := none }) s)) h.path h.priority).pathHeld
  · exact h

theorem restartStates_pathHeld (h : s.firing.PathHeld) : (restartStates s).firing.PathHeld := by
  have hidle : (idleAgain s).firing.PathHeld := by
    refine releaseAnyHold_pathHeld ?_
    rw [(setPump_spec _ false).1]
    exact h.congr rfl rfl rfl rfl
  unfold restartStates
  split
  · have hleft : (leaveFiring s).firing.PathHeld := by
      simp only [leaveFiring, modFiring_fields, (setBurner_spec s false).1]
      exact h.congr rfl rfl rfl rfl
    unfold startOverrun
    dsimp only
    split <;> exact hleft.congr rfl rfl rfl rfl
  · split
    · exact h.congr rfl rfl rfl rfl
    · exact h
  all_goals exact hidle

theorem restartStates_causes (s : State) : (restartStates s).firing.causes = s.firing.causes := by
  have hidle : (idleAgain s).firing.causes = s.firing.causes :=
    ((setPump_hotWater _ false).andThen releaseAnyHold_hotWater).causes
  unfold restartStates
  split
  · exact ((leaveFiring_hotWater s).andThen startOverrun_hotWater).causes
  · split <;> rfl
  all_goals exact hidle

/-- A cleared call is OFF with its timed part, and the diverter follows again (R143). -/
theorem clearCall_held (h : s.firing.PathHeld) : (clearCall s).firing.CallHeld ∧
    (clearCall s).firing.causes = (false, none, s.firing.schedule) := by
  unfold clearCall
  dsimp only
  split
  · exact ⟨(formFlow_hotWater _).held (setDiverter_held _ h.path nofun),
      (formFlow_hotWater _).causes.trans (setDiverter_causes _)⟩
  · next hcall =>
    have hoff : s.firing.call = false := by simpa using hcall
    refine ⟨setDiverter_held _ h.path h.priority, (setDiverter_causes _).trans ?_⟩
    simp only [Firing.causes, modFiring_fields, hoff]

theorem startCall_causes (s : State) :
    (startCall s).firing.causes = (true, s.firing.timedCall, s.firing.schedule) :=
  (formFlow_hotWater _).causes.trans (setDiverter_causes _)

/-- The mode's own condition taken again makes the call what its causes have it (R143). -/
theorem retakeCall_callKept (hheld : s.firing.CallHeld) (hcall : s.firing.call = false)
    (hentries : s.firing.schedule = hotWaterSchedule s) : CallKept (retakeCall s) := by
  unfold retakeCall
  split
  · next hwanted =>
    have hkeeps := (startCall_reaches s).1
    have hsettings : (startCall s).settings = s.settings := hkeeps .settings (by decide)
    have hinputs : (startCall s).inputs = s.inputs := hkeeps .inputs (by decide)
    have hcauses := startCall_causes s
    simp only [Firing.causes, Prod.mk.injEq] at hcauses
    obtain ⟨hstarted, htimed, hschedule⟩ := hcauses
    obtain ⟨hdiverter, hpath, hpriority⟩ := startCall_held hheld
    refine ⟨fun _ => ?_, ?_, hdiverter, hpath, hpriority⟩
    · rw [hstarted, callWanted_congr (s := s) (by rw [hsettings]) (by rw [hinputs]) (by rw [htimed]) hschedule, hwanted]
    · rw [hschedule, hentries, hotWaterSchedule_congr (hkeeps.remembered (by decide))]
  · next hunwanted =>
    exact ⟨fun _ => hcall.trans (by simpa using hunwanted), hentries, hheld.diverter, hheld.path, hheld.priority⟩

theorem restartController_callKept (h : CallKept s) : CallKept (restartController s) := by
  have hcleared : (dropHeldDiverter (clearFiring s)).firing.PathHeld := h.held.pathHeld.congr rfl rfl rfl rfl
  have hcauses := restartStates_causes (dropHeldDiverter (clearFiring s))
  obtain ⟨hheld, hoff⟩ := clearCall_held (restartStates_pathHeld hcleared)
  simp only [Firing.causes, Prod.mk.injEq] at hcauses hoff
  obtain ⟨-, -, hschedule⟩ := hcauses
  obtain ⟨hcall, -, hschedule'⟩ := hoff
  have hkeeps : Reaches s (clearCall (restartFiring (clearFiring s))) :=
    (((modFiring_reaches _ s).andThen fun u => modFiring_reaches _ u).andThen restartStates_reaches).andThen
      clearCall_reaches
  refine retakeCall_callKept hheld hcall ?_
  rw [hotWaterSchedule_congr (hkeeps.1.remembered (by decide)), ← h.schedule]
  exact hschedule'.trans hschedule

theorem bothRestarted_callKept (driverFirst : Bool) (h : CallKept s) : CallKept (bothRestarted driverFirst s) := by
  have hdriver : ∀ {u}, CallKept u → CallKept (restartDriver u) := fun hu => hu.of_scene rfl
  cases driverFirst
  · exact hdriver (restartController_callKept h)
  · exact restartController_callKept (hdriver h)

theorem settleReport_callKept (h : CallKept s) : CallKept (settleReport s) := by
  have hreported : CallKept (reported s) := h.of_held (h.held.congr rfl rfl rfl rfl rfl) rfl rfl rfl rfl rfl
  rw [settleReport_eq]
  split
  · exact hreported.of_stands (endOverrun_hotWater _) (endOverrun_reaches _).parts
  · exact hreported

theorem controlSettled_callKept (h : CallKept s) : CallKept (controlSettled s) := by
  have hbegun : CallKept (restartBegun s) := h.of_scene rfl
  exact (settleReport_callKept (bothRestarted_callKept _ hbegun)).of_stands (settle_hotWater _) (settle_reaches _).parts

theorem endLockout_hotWater (p : Port) (s : State) : HotWaterStands s (endLockout p s) := by
  have hreleased : HotWaterStands s (releaseAnyHold (setPump false s)) :=
    (setPump_hotWater s false).andThen releaseAnyHold_hotWater
  have hselected : HotWaterStands (releaseAnyHold (setPump false s)) (endLockout p s) := by
    refine (select_hotWater _).after ?_
    rw [show (post p.other _ _).firing = _ from post_keeps _ _ _ .firing (by decide)]
    rfl
  exact hreleased.trans hselected

/-! ### Every row (R137 to R140) -/

theorem hotWaterSchedule_of_blank {banks : Tab 4 (Stored Lists)} {b : Fin 4} (h : t.program = blankProgram banks b) :
    hotWaterSchedule t = false := by
  rw [hotWaterSchedule, h]
  rfl

theorem Started.callKept (h : Started s t) : CallKept t := by
  have hinputs : t.inputs = s.inputs := h.keeps .inputs (by decide)
  have hblank : t.firing.timedCall = none ∧ t.firing.schedule = false := by rw [h.firing]; exact ⟨rfl, rfl⟩
  obtain ⟨htimed, hschedule⟩ := hblank
  refine ⟨fun _ => ?_, ?_, ?_, ?_, ?_⟩
  · rw [callWanted_of_blank htimed hschedule, hinputs, h.firing]
    rfl
  · rw [hschedule, hotWaterSchedule_of_blank h.program]
  · rw [h.firing]
    exact (Bool.or_false _).symm
  · rw [h.firing]
    exact fun hpath => (Bool.and_eq_true _ _ ▸ hpath).1
  · rw [h.firing]
    unfold startedFiring
    dsimp only
    split
    · next hcalled => exact fun _ => hcalled.1
    · exact nofun

theorem exec_callKept {i : Instr} (h : exec i s = .next t) (hs : CallKept s) : CallKept t := by
  cases exec_controllerRow h with
  | run _ hrun => exact hrun.callKept hs
  | same hscene => exact hs.of_scene hscene
  | started _ hstarted => exact hstarted.callKept
  | lost _ hscene =>
    have hlost : CallKept (losePower s) := ⟨nofun, rfl, rfl, nofun, nofun⟩
    exact hlost.of_scene (hscene.trans (losePower_scene s).symm)
  | reset _ hscene => exact (controlSettled_callKept hs).of_scene hscene
  | cleared p u _ _ _ hu hscene =>
    exact ((hs.of_scene hu).of_stands (endLockout_hotWater p u) (endLockout_reaches u p).parts).of_scene hscene
  | waited _ hscene =>
    have hstopped : CallKept (modFiring (fun f => { f with pathWait := none }) s) :=
      hs.of_held (hs.held.congr rfl rfl rfl rfl rfl) rfl rfl rfl rfl rfl
    exact hstopped.of_scene hscene

/-- A second changes neither the call nor whether a timed call or a priority period runs. -/
theorem secondPasses_callKept (h : CallKept s) : CallKept (secondPasses s) := by
  have hwanted : callWanted (secondPasses s) = callWanted s :=
    callWanted_congr rfl rfl (by simp [secondPasses, Firing.second, countLeft]) rfl
  refine ⟨fun hp => (h.call hp).trans hwanted.symm, h.schedule, h.diverter, h.path, ?_⟩
  have hpriority : (secondPasses s).firing.priority.isSome = s.firing.priority.isSome := by
    simp [secondPasses, Firing.second, countUp]
  rw [hpriority]
  exact h.priority

/-- Settles O57: every row keeps the call with its causes, and so does the passing of a second. -/
theorem stepsKeepCallWithCauses : Obligations.StepsKeepCallWithCauses := fun _ _ hs h =>
  step_rel (R := fun s t => CallKept s → CallKept t) (fun _ => id) (fun h k => k ∘ h) exec_callKept
    (fun _ _ h => h.of_scene rfl) (fun _ => secondPasses_callKept) h hs

end
end Sys2Proof.Machine

namespace Sys2Proof.Machine

/-! ## umax (R118) -/

/-- The greatest of a start value and the values along a list. -/
theorem foldl_max_spec {α : Type} (f : α → Int) (l : List α) (a : Int) :
    a ≤ l.foldl (fun m z => max m (f z)) a ∧ (∀ z ∈ l, f z ≤ l.foldl (fun m z => max m (f z)) a) ∧
      (l.foldl (fun m z => max m (f z)) a = a ∨ ∃ z ∈ l, l.foldl (fun m z => max m (f z)) a = f z) := by
  induction l generalizing a with
  | nil => exact ⟨le_rfl, nofun, .inl rfl⟩
  | cons x l ih =>
    obtain ⟨hstart, hevery, hreached⟩ := ih (max a (f x))
    rw [List.foldl_cons]
    refine ⟨(le_max_left _ _).trans hstart, List.forall_mem_cons.2 ⟨(le_max_right _ _).trans hstart, hevery⟩, ?_⟩
    rcases hreached with h | ⟨z, hz, h⟩
    · rw [h]
      rcases max_choice a (f x) with hmax | hmax <;> rw [hmax]
      · exact .inl rfl
      · exact .inr ⟨x, List.mem_cons_self, rfl⟩
    · exact .inr ⟨z, List.mem_cons_of_mem _ hz, h⟩

theorem mem_heatingZones (f : Firing) (z : Fin 16) : z ∈ members f.heatingZones ↔
    f.demand.calling.getLsbD z.val = true ∧ f.report.ready.getLsbD z.val = true := by
  rw [mem_members, Firing.heatingZones, BitVec.getLsbD_and, Bool.and_eq_true]

/-- umax is the greatest delivered demand of the zones counted in the heating call, and 0 without one (R118). -/
theorem umax_spec (f : Firing) :
    (∀ z : Fin 16, f.demand.calling.getLsbD z.val = true → f.report.ready.getLsbD z.val = true →
      f.demand.delivered.get z ≤ f.umax) ∧ 0 ≤ f.umax ∧
    (f.umax = 0 ∨ ∃ z : Fin 16, f.demand.calling.getLsbD z.val = true ∧ f.report.ready.getLsbD z.val = true ∧
      f.umax = f.demand.delivered.get z) := by
  obtain ⟨hstart, hevery, hreached⟩ := foldl_max_spec f.demand.delivered.get (members f.heatingZones) 0
  refine ⟨fun z hcalling hready => hevery z ((mem_heatingZones f z).2 ⟨hcalling, hready⟩), hstart, ?_⟩
  rcases hreached with h | ⟨z, hz, h⟩
  · exact .inl h
  · obtain ⟨hcalling, hready⟩ := (mem_heatingZones f z).1 hz
    exact .inr ⟨z, hcalling, hready, h⟩

theorem umax_mem {f : Firing} (h : DemandInRange f.demand) : 0 ≤ f.umax ∧ f.umax ≤ 4096 := by
  obtain ⟨-, hpos, hreached⟩ := umax_spec f
  refine ⟨hpos, ?_⟩
  rcases hreached with hzero | ⟨z, -, -, hz⟩
  · omega
  · rw [hz]
    exact (h z).2

/-! ## The targets of a controller in FIRING (R130, R131) -/

/-- A convergent quotient of a product by the greater of its factors' bounds. -/
theorem divRound_mul_mem {u d n : Int} (hn : 0 < n) (hu : 0 ≤ u ∧ u ≤ n) (hd : 0 ≤ d) :
    0 ≤ divRound (u * d) n ∧ divRound (u * d) n ≤ d := by
  obtain ⟨hhigh, hlow, -⟩ := divRound_nearestEven (u * d) n hn
  have hpos : 0 ≤ u * d := mul_nonneg hu.1 hd
  have hle : u * d ≤ n * d := mul_le_mul_of_nonneg_right hu.2 hd
  constructor
  · by_contra hneg
    have : n * divRound (u * d) n ≤ n * (-1) := mul_le_mul_of_nonneg_left (by omega) hn.le
    omega
  · by_contra hgt
    have : n * (d + 1) ≤ n * divRound (u * d) n := mul_le_mul_of_nonneg_left (by omega) hn.le
    rw [mul_add, mul_one] at this
    omega

theorem computedTarget_mem {c : FiringSettings} (h : FiringInRange c) {u : Int} (hu : 0 ≤ u ∧ u ≤ 4096) :
    c.fmin ≤ computedTarget c u ∧ computedTarget c u ≤ c.fmax := by
  have hstep := h.step
  have hspan := divRound_mul_mem (by decide) hu (show 0 ≤ c.fmax - c.fmin by omega)
  unfold computedTarget
  omega

theorem heatingUnder_mem {c : FiringSettings} (h : FiringInRange c) {u : Int} (hu : 0 ≤ u ∧ u ≤ 4096)
    (ceiling : Option Int) : c.fmin ≤ heatingUnder c ceiling (computedTarget c u) ∧
      heatingUnder c ceiling (computedTarget c u) ≤ c.fmax := by
  have hstep := h.step
  have hcomputed := computedTarget_mem h hu
  cases ceiling with
  | none => exact hcomputed
  | some limit =>
    rw [heatingUnder_some]
    split_ifs <;> omega

theorem flowTargetOf_le {c : Settings} (h : SettingsInRange c) {heating : Int} (hheating : heating ≤ c.firing.fmax)
    (call : Bool) (priority : Option Nat) :
    flowTargetOf c.hotWater.target heating call priority ≤ c.firing.highLimit - 500 := by
  have hfmax := h.firing.fmax
  have htarget := h.hotWater.limit
  unfold flowTargetOf
  split_ifs
  · split <;> omega
  · omega

/-! ## Targets kept (R116, R130, R131) -/

/-- The state and the targets. -/
def Firing.targets (f : Firing) : FiringState × Option Int × Option Int × Int :=
  (f.state, f.heating, f.flowTarget, f.code)

/-- No target is present and the code is 0. -/
structure Firing.NoTargets (f : Firing) : Prop where
  heating : f.heating = none
  target : f.flowTarget = none
  code : f.code = 0

section
variable {s t : State}

theorem TargetsKept.congr (h : TargetsKept s) (htargets : t.firing.targets = s.firing.targets)
    (hfmin : t.settings.firing.fmin = s.settings.firing.fmin) (hfmax : t.settings.firing.fmax = s.settings.firing.fmax)
    (hlimit : t.settings.firing.highLimit = s.settings.firing.highLimit) : TargetsKept t := by
  simp only [Firing.targets, Prod.mk.injEq] at htargets
  obtain ⟨hstate, hheating, htarget, hcode⟩ := htargets
  constructor
  · rw [hstate, hheating]; exact h.heating
  · rw [hstate, htarget]; exact h.target
  · rw [hheating, hfmin]; exact h.least
  · rw [hheating, hfmax]; exact h.greatest
  · rw [htarget, hlimit]; exact h.limit
  · rw [hstate, hcode]; exact h.code

theorem TargetsKept.of_settings (h : TargetsKept s) (htargets : t.firing.targets = s.firing.targets)
    (hsettings : t.settings = s.settings) : TargetsKept t :=
  h.congr htargets (by rw [hsettings]) (by rw [hsettings]) (by rw [hsettings])

theorem TargetsKept.noTargets (h : TargetsKept s) (hstate : s.firing.state ≠ .firing) : s.firing.NoTargets where
  heating := by simpa [hstate] using h.heating
  target := by simpa [hstate] using h.target
  code := h.code hstate

theorem TargetsKept.of_noTargets (h : s.firing.NoTargets) (hstate : s.firing.state ≠ .firing) : TargetsKept s where
  heating := by simp [hstate, h.heating]
  target := by simp [hstate, h.target]
  least := by simp [h.heating]
  greatest := by simp [h.heating]
  limit := by simp [h.target]
  code := fun _ => h.code

theorem Firing.NoTargets.congr {f g : Firing} (h : f.NoTargets) (hheating : g.heating = f.heating)
    (htarget : g.flowTarget = f.flowTarget) (hcode : g.code = f.code) : g.NoTargets :=
  ⟨hheating.trans h.heating, htarget.trans h.target, hcode.trans h.code⟩

/-- In FIRING the flow target formed from a heating target in its bounds is in its own. -/
theorem formFlow_targetsKept {h : Int} (hrange : SettingsInRange s.settings) (hstate : s.firing.state = .firing)
    (hheating : s.firing.heating = some h) (hlow : s.settings.firing.fmin ≤ h) (hhigh : h ≤ s.settings.firing.fmax) :
    TargetsKept (formFlow s) := by
  have hformed : formFlow s = modFiring (fun f => { f with
      flowTarget := some (flowTargetOf s.settings.hotWater.target h s.firing.call s.firing.priority)
      code := modulationCode (flowTargetOf s.settings.hotWater.target h s.firing.call s.firing.priority) }) s := by
    rw [formFlow, if_pos hstate, hheating]
  rw [hformed]
  constructor
  · simp [hstate, hheating]
  · simp [hstate]
  · simpa [hheating] using hlow
  · simpa [hheating] using hhigh
  · simpa using flowTargetOf_le hrange hhigh s.firing.call s.firing.priority
  · simp [hstate]

/-- In FIRING the targets are formed anew, whatever they were. -/
theorem formHeating_targetsKept (hrange : SettingsInRange s.settings) (hdemand : DemandInRange s.firing.demand)
    (hstate : s.firing.state = .firing) : TargetsKept (formHeating s) := by
  obtain ⟨hlow, hhigh⟩ := heatingUnder_mem hrange.firing (umax_mem hdemand) s.firing.ceiling
  rw [formHeating, if_pos hstate]
  exact formFlow_targetsKept hrange hstate rfl hlow hhigh

variable (s)

theorem setPump_targets (on : Bool) : (setPump on s).firing.targets = s.firing.targets := by
  rw [(setPump_spec s on).1]
  rfl

theorem setDiverter_targets : (setDiverter s).firing.targets = s.firing.targets := by
  unfold setDiverter
  dsimp only
  split <;> rfl

theorem releaseHold_targets : (releaseHold s).firing.targets = s.firing.targets := setDiverter_targets _

theorem releaseAnyHold_targets : (releaseAnyHold s).firing.targets = s.firing.targets := by
  unfold releaseAnyHold
  split
  · exact releaseHold_targets s
  · rfl

variable {s}

/-- What the forming of targets looks at, at every passage of the controller. -/
structure TargetsReady (s : State) : Prop where
  settings : SettingsInRange s.settings
  demand : DemandInRange s.firing.demand

theorem TargetsReady.of_settling (h : TargetsReady s) (k : Settling s t) (hkeeps : Keeps passageParts s t) :
    TargetsReady t := by
  have hsettings : t.settings = s.settings := hkeeps .settings (by decide)
  have hmemory := k.memory
  simp only [Firing.memory, Prod.mk.injEq] at hmemory
  obtain ⟨-, -, -, -, hdemand, -⟩ := hmemory
  exact ⟨by rw [hsettings]; exact h.settings, by rw [hdemand]; exact h.demand⟩

theorem enterFiring_targetsKept (h : TargetsReady s) : TargetsKept (enterFiring s) := by
  have hlines : Settling s (setBurner true (setPump true s)) :=
    (setPump_settling s true).andThen setBurner_true_settling
  have hready := h.of_settling hlines ((setPump_reaches true s).andThen (setBurner_reaches true)).1
  let u : State := modFiring (fun f => { f with
    state := .firing
    minOn := startTimer (setBurner true (setPump true s)).settings.firing.minOn
    flameWait := if (setBurner true (setPump true s)).inputs.flame then none else some 0
    pathWait := none
    overrun := none
    ceiling := some ((setBurner true (setPump true s)).settings.firing.fmin + 200) }) (setBurner true (setPump true s))
  have hformed : TargetsKept (formHeating u) := formHeating_targetsKept hready.settings hready.demand rfl
  exact hformed.of_settings (releaseAnyHold_targets _) ((releaseAnyHold_reaches _).1 .settings (by decide))

/-- Outside FIRING the entry to another quiet state leaves no targets. -/
theorem enterQuiet_targetsKept {state : FiringState} (h : s.firing.NoTargets) (hstate : state ≠ .firing) :
    TargetsKept (enterQuiet state s) := .of_noTargets (h.congr rfl rfl rfl) hstate

theorem select_targetsKept (hready : TargetsReady s) (h : s.firing.NoTargets) : TargetsKept (select s) := by
  unfold select
  split
  · exact enterFiring_targetsKept hready
  · next hquiet => exact enterQuiet_targetsKept h hquiet

theorem leaveFiring_noTargets (s : State) : (leaveFiring s).firing.NoTargets := ⟨rfl, rfl, rfl⟩

theorem startOverrun_targetsKept (h : s.firing.NoTargets) : TargetsKept (startOverrun s) := by
  unfold startOverrun
  dsimp only
  split <;> exact .of_noTargets (h.congr rfl rfl rfl) nofun

theorem noTargets_of_targets {f g : Firing} (h : f.NoTargets) (htargets : g.targets = f.targets) : g.NoTargets := by
  simp only [Firing.targets, Prod.mk.injEq] at htargets
  obtain ⟨-, hheating, htarget, hcode⟩ := htargets
  exact h.congr hheating htarget hcode

theorem endOverrun_targetsKept (hready : TargetsReady s) (h : s.firing.NoTargets) : TargetsKept (endOverrun s) := by
  have hreleased : (releaseHold (setPump false s)).firing.targets = s.firing.targets :=
    (releaseHold_targets _).trans (setPump_targets s false)
  have hnone : (runOnEnded s).firing.NoTargets := (noTargets_of_targets h hreleased).congr rfl rfl rfl
  have hready' : TargetsReady (runOnEnded s) := by
    refine hready.of_settling ?_ (((setPump_reaches false s).andThen releaseHold_reaches).andThen
      (enterQuiet_reaches _)).1
    exact ((setPump_settling s false).andThen releaseHold_settling).andThen (enterQuiet_settling · _)
  rw [endOverrun_eq]
  split
  · exact enterFiring_targetsKept hready
  · next hquiet =>
    have hkept : TargetsKept (runOnEnded s) := .of_noTargets hnone hquiet
    unfold selectQuiet
    split
    · exact select_targetsKept hready' hnone
    · exact select_targetsKept hready' hnone
    · exact select_targetsKept hready' hnone
    all_goals exact hkept

theorem enterOverrun_targetsKept (hready : TargetsReady s) (h : s.firing.NoTargets) : TargetsKept (enterOverrun s) := by
  have hstarted := startOverrun_targetsKept h
  unfold enterOverrun
  split
  · refine endOverrun_targetsKept (hready.of_settling (startOverrun_settling s) (startOverrun_reaches s).1) ?_
    exact hstarted.noTargets (by rw [startOverrun_state]; decide)
  · exact hstarted

theorem settle_targetsKept (hready : TargetsReady s) (h : TargetsKept s) : TargetsKept (settle s) := by
  have hquiet : s.firing.state ≠ .firing → TargetsKept (select s) := fun hs => select_targetsKept hready (h.noTargets hs)
  unfold settle
  split
  · next hs => exact hquiet (by simp [hs])
  · next hs => exact hquiet (by simp [hs])
  · next hs => exact hquiet (by simp [hs])
  · split
    · exact enterFiring_targetsKept hready
    · exact h
  · split
    · have hleft : TargetsReady (leaveFiring s) := by
        have hsettings : (leaveFiring s).settings = s.settings := (leaveFiring_reaches s).1 .settings (by decide)
        have hmemory := leaveFiring_memory s
        simp only [Firing.memory, Prod.mk.injEq] at hmemory
        obtain ⟨-, -, -, -, hdemand, -⟩ := hmemory
        exact ⟨by rw [hsettings]; exact hready.settings, by rw [hdemand]; exact hready.demand⟩
      exact enterOverrun_targetsKept hleft (leaveFiring_noTargets s)
    · exact h
  · exact h

/-- A heating target formed where the rest may have changed. -/
theorem formHeating_kept (hready : TargetsReady s) (h : s.firing.state ≠ .firing → s.firing.NoTargets) :
    TargetsKept (formHeating s) := by
  by_cases hstate : s.firing.state = .firing
  · exact formHeating_targetsKept hready.settings hready.demand hstate
  · rw [formHeating_of_not_firing hstate]
    exact .of_noTargets (h hstate) hstate

theorem formFlow_kept (hready : TargetsReady s) (h : TargetsKept s) : TargetsKept (formFlow s) := by
  by_cases hstate : s.firing.state = .firing
  · obtain ⟨x, hx⟩ := Option.isSome_iff_exists.1 (h.heating.1 hstate)
    exact formFlow_targetsKept hready.settings hstate hx (h.least x hx) (h.greatest x hx)
  · rw [formFlow_of_not_firing s hstate]
    exact h

theorem enterLockout_targetsKept (reason : LockoutReason) (s : State) : TargetsKept (enterLockout reason s) := by
  have hheld : ∀ u, (holdForLockout u).firing.targets = u.firing.targets := fun u => by
    unfold holdForLockout
    split
    · rfl
    · exact releaseAnyHold_targets u
  have htargets : (enterLockout reason s).firing.targets = (FiringState.lockout, none, none, 0) := by
    rw [enterLockout_eq]
    exact (hheld _).trans (setPump_targets _ _)
  simp only [Firing.targets, Prod.mk.injEq] at htargets
  obtain ⟨hstate, hheating, htarget, hcode⟩ := htargets
  exact .of_noTargets ⟨hheating, htarget, hcode⟩ (by rw [hstate]; decide)

theorem lockOut_targetsKept (reason : LockoutReason) (h : TargetsKept s) : TargetsKept (lockOut reason s) := by
  rcases lockOut_cases s reason with ⟨-, hlock⟩ | ⟨-, hlock | ⟨l, -, hlock⟩⟩ <;> rw [hlock]
  · exact enterLockout_targetsKept reason s
  · exact h
  · exact h.of_settings rfl rfl

theorem lockoutPublication_targetsKept (h : TargetsKept s) : TargetsKept (lockoutPublication s) := by
  refine h.of_settings ?_ ((lockoutPublication_reaches s).1 .settings (by decide))
  rw [lockoutPublication_eq]
  split
  · exact (releaseHold_targets _).trans (setPump_targets (peakFollowed s) false)
  · rfl

/-! ### The hot-water call (R131, R137) -/

/-- A call that starts or ends forms the flow target again. -/
theorem callChanged_targetsKept {f : Firing → Firing} {kind : SourceKind} (hready : TargetsReady s) (h : TargetsKept s)
    (htargets : (f s.firing).targets = s.firing.targets) (hdemand : (f s.firing).demand = s.firing.demand) :
    TargetsReady (formFlow (setDiverter (modFiring f (raise kind s)))) ∧
      TargetsKept (formFlow (setDiverter (modFiring f (raise kind s)))) := by
  have hchanged : TargetsReady (modFiring f (raise kind s)) := by
    refine ⟨hready.settings, ?_⟩
    show DemandInRange (f s.firing).demand
    rw [hdemand]
    exact hready.demand
  have hdiverted := hchanged.of_settling (setDiverter_settling _) (setDiverter_reaches _).1
  have hkept : TargetsKept (setDiverter (modFiring f (raise kind s))) :=
    h.of_settings ((setDiverter_targets _).trans htargets) ((setDiverter_reaches _).1 .settings (by decide))
  exact ⟨hdiverted.of_settling (formFlow_settling _) (formFlow_reaches _).1, formFlow_kept hdiverted hkept⟩

theorem deriveCall_targetsKept (hready : TargetsReady s) (h : TargetsKept s) : TargetsKept (deriveCall s) := by
  rcases deriveCall_cases s with ⟨hderive, -⟩ | hderive | hderive <;> rw [hderive]
  · exact h
  · obtain ⟨hready', hkept⟩ := callChanged_targetsKept (f := fun f => { f with
      call := true, priority := if s.settings.hotWater.absolute then some 0 else none }) (kind := .dhwOn)
      hready h rfl rfl
    exact settle_targetsKept hready' hkept
  · obtain ⟨hready', hkept⟩ := callChanged_targetsKept (f := fun f => { f with call := false, priority := none })
      (kind := .dhwOff) hready h rfl rfl
    exact settle_targetsKept hready' hkept

end
end Sys2Proof.Machine

namespace Sys2Proof.Machine

/-! ### Every row (R130, R131) -/

section
variable {s t u : State}

/-- The targets are kept, with what their forming looks at. -/
structure TargetsStand (s : State) : Prop where
  ready : TargetsReady s
  kept : TargetsKept s

theorem TargetsReady.of_copies (h : TargetsReady s) (hsettings : t.settings = s.settings)
    (hcopies : t.firing.copies = s.firing.copies) : TargetsReady t := by
  simp only [Firing.copies, Prod.mk.injEq] at hcopies
  exact ⟨by rw [hsettings]; exact h.settings, by rw [hcopies.1]; exact h.demand⟩

theorem TargetsReady.of_driver (h : TargetsReady s) (hdriver : t.driver = s.driver)
    (hkeeps : Keeps [.firing, .valves, .raised, .notices] s t) : TargetsReady t := by
  obtain ⟨-, -, hcopies⟩ := driver_eq_iff.1 hdriver
  exact h.of_copies (hkeeps .settings (by decide)) hcopies

theorem TargetsStand.of_firing (h : TargetsStand s) (hfiring : t.firing = s.firing)
    (hsettings : t.settings = s.settings) : TargetsStand t :=
  ⟨h.ready.of_copies hsettings (by rw [hfiring]), h.kept.of_settings (by rw [hfiring]) hsettings⟩

theorem TargetsStand.of_scene (h : TargetsStand s) (hscene : t.scene = s.scene) : TargetsStand t := by
  obtain ⟨⟨-, hfiring, -, hsettings⟩, -⟩ := scene_eq_iff.1 hscene
  exact h.of_firing hfiring hsettings

theorem TargetsStand.settle (h : TargetsStand s) : TargetsStand (settle s) :=
  ⟨h.ready.of_driver (settle_driver s) (settle_reaches s).parts, settle_targetsKept h.ready h.kept⟩

theorem TargetsStand.formHeating (h : TargetsReady s) (hnone : s.firing.state ≠ .firing → s.firing.NoTargets) :
    TargetsStand (formHeating s) :=
  ⟨h.of_driver (formHeating_driver s) (formHeating_reaches s).parts, formHeating_kept h hnone⟩

theorem TargetsStand.deriveCall (h : TargetsStand s) : TargetsStand (deriveCall s) :=
  ⟨h.ready.of_driver (deriveCall_driver s) (deriveCall_reaches s).parts, deriveCall_targetsKept h.ready h.kept⟩

theorem TargetsStand.endOverrun (h : TargetsStand s) (hs : s.firing.state ≠ .firing) :
    TargetsStand (endOverrun s) :=
  ⟨h.ready.of_driver (endOverrun_driver s) (endOverrun_reaches s).parts,
    endOverrun_targetsKept h.ready (h.kept.noTargets hs)⟩

theorem lockoutPublication_driver (s : State) : (lockoutPublication s).driver = s.driver := by
  rw [lockoutPublication_eq]
  split
  · exact (releaseHold_driver _).trans (setPump_driver (peakFollowed s) false)
  · rfl

theorem ControllerRun.targetsStand (h : ControllerRun s t) (hs : TargetsStand s) : TargetsStand t := by
  induction h with
  | unseen hpanel hentries => exact hs.of_scene (by simp only [State.scene, hpanel, hentries])
  | trans _ _ ih ih' => exact ih' (ih hs)
  | timed | dark | priorityEnded | copied =>
    exact ⟨⟨hs.ready.settings, hs.ready.demand⟩, hs.kept.of_settings rfl rfl⟩
  | written c hrange hlimits =>
    simp only [Settings.limits, Prod.mk.injEq] at hlimits
    obtain ⟨hfmin, hfmax, hlimit, -⟩ := hlimits
    exact ⟨⟨hrange hs.ready.settings, hs.ready.demand⟩, hs.kept.congr rfl hfmin hfmax hlimit⟩
  | @reformed s c hrange _ =>
    exact .formHeating (s := setSettings c s) ⟨hrange hs.ready.settings, hs.ready.demand⟩ hs.kept.noTargets
  | reflowed s => exact ⟨hs.ready.of_driver (formFlow_driver s) (formFlow_reaches s).parts, formFlow_kept hs.ready hs.kept⟩
  | @settled s g interlock _ _ =>
    have hweighed : TargetsStand (s.reweighed g interlock) :=
      ⟨⟨hs.ready.settings, hs.ready.demand⟩, hs.kept.of_settings rfl rfl⟩
    exact hweighed.settle
  | @lockedOut s reason g _ =>
    have hweighed : TargetsStand (s.reweighed g s.inputs.interlock) :=
      ⟨⟨hs.ready.settings, hs.ready.demand⟩, hs.kept.of_settings rfl rfl⟩
    exact ⟨hweighed.ready.of_driver (lockOut_driver _ reason) (lockOut_reaches _ _).parts,
      lockOut_targetsKept reason hweighed.kept⟩
  | @cooled s _ =>
    exact ⟨hs.ready.of_driver (lockoutPublication_driver s) (lockoutPublication_reaches s).parts,
      lockoutPublication_targetsKept hs.kept⟩
  | @ranOn s _ hover =>
    have hstopped : TargetsStand (modFiring (fun f => { f with overrun := none }) s) :=
      ⟨⟨hs.ready.settings, hs.ready.demand⟩, hs.kept.of_settings rfl rfl⟩
    exact hstopped.endOverrun (by simp [hover])
  | @derived s c request timedCall _ hrange hfiring =>
    refine TargetsStand.deriveCall ⟨⟨hrange hs.ready.settings, hs.ready.demand⟩, hs.kept.congr rfl ?_ ?_ ?_⟩
    · exact congrArg FiringSettings.fmin hfiring
    · exact congrArg FiringSettings.fmax hfiring
    · exact congrArg FiringSettings.highLimit hfiring
  | @handedOn s t _ hpanel =>
    obtain ⟨-, hfiring, -, hsettings⟩ := panel_eq_iff.1 hpanel
    have hsame : TargetsStand t := hs.of_firing hfiring hsettings
    rcases takeSchedule_cases t (hotWaterSchedule t) with ⟨htake, -⟩ | htake <;> rw [htake]
    · exact hsame
    · exact TargetsStand.deriveCall ⟨⟨hsame.ready.settings, hsame.ready.demand⟩, hsame.kept.of_settings rfl rfl⟩
  | @reported s r _ _ =>
    exact (TargetsStand.formHeating (s := modFiring (fun f => { f with report := r }) s)
      ⟨hs.ready.settings, hs.ready.demand⟩ fun hstate => (hs.kept.noTargets hstate).congr rfl rfl rfl).settle
  | @demanded s stood d _ hd =>
    exact (TargetsStand.formHeating (s := modFiring (fun f => { f with
        demand := d, ceiling := if f.state = .firing then ceilingAfter stood f.ceiling else f.ceiling }) s)
      ⟨hs.ready.settings, hd hs.ready.settings⟩ fun hstate => (hs.kept.noTargets hstate).congr rfl rfl rfl).settle

/-! ### SOFT RESET, LOCKOUT CLEAR and power (R136, R143, R181) -/

theorem blankDemand_ready (hsettings : SettingsInRange s.settings) (hdemand : s.firing.demand = blankDemand) :
    TargetsReady s := ⟨hsettings, by rw [hdemand]; exact blankDemand_inRange⟩

theorem restartStates_noTargets (h : s.firing.state ≠ .firing → s.firing.NoTargets) :
    (restartStates s).firing.NoTargets := by
  have hidle : s.firing.NoTargets → (idleAgain s).firing.NoTargets := fun hs =>
    have hnone : (modFiring (fun f => { f with state := .idle, overrun := none }) s).firing.NoTargets :=
      hs.congr rfl rfl rfl
    noTargets_of_targets hnone ((releaseAnyHold_targets _).trans (setPump_targets _ false))
  unfold restartStates
  split
  · unfold startOverrun
    dsimp only
    split <;> exact (leaveFiring_noTargets s).congr rfl rfl rfl
  · next hs =>
    split
    · exact (h (by simp [hs])).congr rfl rfl rfl
    · exact h (by simp [hs])
  all_goals
    next hs => exact hidle (h (by simp [hs]))

/-- Outside FIRING the clearing and the retaking of the call form no target. -/
theorem callRetaken_noTargets (hstate : s.firing.state ≠ .firing) (h : s.firing.NoTargets) :
    (callRetaken s).firing.NoTargets := by
  have hformed : ∀ u : State, u.firing.state ≠ .firing → u.firing.NoTargets →
      (formFlow (setDiverter u)).firing.NoTargets := fun u hu hnone => by
    rw [formFlow_of_not_firing _ (by rwa [setDiverter_state])]
    exact noTargets_of_targets hnone (setDiverter_targets u)
  have hcleared : (clearCall s).firing.NoTargets := by
    unfold clearCall
    dsimp only
    split
    · exact hformed _ hstate (h.congr rfl rfl rfl)
    · exact noTargets_of_targets (f := (callForgotten s).firing) (h.congr rfl rfl rfl) (setDiverter_targets _)
  unfold callRetaken retakeCall
  split
  · exact hformed _ (by rw [← clearCall_state] at hstate; exact hstate) (hcleared.congr rfl rfl rfl)
  · exact hcleared

/-- The restarted controller is outside FIRING without targets, and without demand (R143). -/
theorem controlRestarted_noTargets (h : TargetsKept s) : (controlRestarted s).firing.NoTargets := by
  obtain ⟨y, hy⟩ := controlRestarted_from s
  rw [hy.controller, restartController_eq]
  refine callRetaken_noTargets (restartFiring_ne_firing _) (restartStates_noTargets fun hstate => ?_)
  have hrest : s.firing.state ≠ .firing := by
    rw [← hy.firing]
    exact hstate
  have hnone : y.firing.NoTargets := by
    rw [hy.firing]
    exact h.noTargets hrest
  exact hnone.congr rfl rfl rfl

theorem bothRestarted_settings (driverFirst : Bool) (s : State) :
    (bothRestarted driverFirst s).settings = s.settings := by
  cases driverFirst
  · exact (restartController_reaches s).1 .settings (by decide)
  · exact (restartController_reaches (restartDriver s)).1 .settings (by decide)

theorem controlRestarted_targetsStand (hsettings : SettingsInRange s.settings) (h : TargetsKept s) :
    TargetsStand (controlRestarted s) := by
  obtain ⟨-, hmemory, -, hleft⟩ := controlRestarted_controller s
  simp only [Firing.memory, Firing.memoryAfterReset, Prod.mk.injEq] at hmemory
  obtain ⟨-, -, -, -, hdemand, -⟩ := hmemory
  have hkept : (controlRestarted s).settings = s.settings := bothRestarted_settings _ (restartBegun s)
  exact ⟨blankDemand_ready (by rwa [hkept]) hdemand, .of_noTargets (controlRestarted_noTargets h) hleft⟩

theorem TargetsStand.settleReport (h : TargetsStand s) : TargetsStand (settleReport s) := by
  have hreported : TargetsStand (reported s) := ⟨⟨h.ready.settings, h.ready.demand⟩, h.kept.of_settings rfl rfl⟩
  rw [settleReport_eq]
  split
  · next hover => exact hreported.endOverrun (by simp [hover.1])
  · exact hreported

/-- A LOCKOUT that LOCKOUT CLEAR has taken back, before the other port is told and the state selected (R136). -/
def lockoutOver (s : State) : State :=
  modFiring (fun f => { f with state := .idle })
    (raise .lockoutOff (modFiring (fun f => { f with lockout := none }) (releaseAnyHold (setPump false s))))

/-- The other port is told (R136). -/
def lockoutTold (p : Port) (s : State) : State := post p.other .lockout (lockoutOver s)

theorem endLockout_eq (p : Port) (s : State) : endLockout p s = select (lockoutTold p s) := rfl

theorem lockoutTold_firing (p : Port) (s : State) : (lockoutTold p s).firing = (lockoutOver s).firing :=
  post_keeps _ _ _ .firing (by decide)

theorem lockoutOver_noTargets (h : s.firing.NoTargets) : (lockoutOver s).firing.NoTargets :=
  have hreleased := noTargets_of_targets h ((releaseAnyHold_targets _).trans (setPump_targets s false))
  hreleased.congr rfl rfl rfl

theorem lockoutOver_driver (s : State) : (lockoutOver s).driver = s.driver :=
  (show (lockoutOver s).driver = (releaseAnyHold (setPump false s)).driver from rfl).trans
    ((releaseAnyHold_driver _).trans (setPump_driver s false))

theorem lockoutOver_reaches (s : State) : Reaches s (lockoutOver s) :=
  (((setPump_reaches false s).andThen releaseAnyHold_reaches).andThen fun u => modFiring_reaches _ u).andThen
    fun u => (raise_reaches _ u).andThen fun u => modFiring_reaches _ u

theorem TargetsStand.endLockout (p : Port) (h : TargetsStand s) (hs : s.firing.state = .lockout) :
    TargetsStand (endLockout p s) := by
  have hfiring := lockoutTold_firing p s
  have hsettings : (lockoutTold p s).settings = (lockoutOver s).settings := post_keeps _ _ _ .settings (by decide)
  have hover : TargetsReady (lockoutOver s) :=
    h.ready.of_driver (lockoutOver_driver s) (lockoutOver_reaches s).parts
  have hready : TargetsReady (lockoutTold p s) :=
    ⟨by rw [hsettings]; exact hover.settings, by rw [hfiring]; exact hover.demand⟩
  have hnone : (lockoutTold p s).firing.NoTargets := by
    rw [hfiring]
    exact lockoutOver_noTargets (h.kept.noTargets (by simp [hs]))
  exact ⟨h.ready.of_driver (endLockout_driver s p) (endLockout_reaches s p).parts, select_targetsKept hready hnone⟩

theorem Started.targetsStand (hrange : SettingsInRange t.settings) (h : Started s t) : TargetsStand t := by
  refine ⟨blankDemand_ready hrange (by rw [h.firing]; rfl), .of_noTargets ?_ ?_⟩
  · rw [h.firing]
    exact ⟨rfl, rfl, rfl⟩
  · rw [h.firing]
    unfold startedFiring
    dsimp only
    split_ifs <;> decide

theorem exec_targetsStand {i : Instr} (h : exec i s = .next t) (hkept : SettingsKept s) (hs : TargetsStand s) :
    TargetsStand t := by
  cases exec_controllerRow h with
  | run _ hrun => exact hrun.targetsStand hs
  | same hscene => exact hs.of_scene hscene
  | started _ hstarted => exact hstarted.targetsStand ((settingsKept_iff t).1 ((exec_dataKept h).1 hkept)).1
  | lost _ hscene =>
    have hlost : TargetsStand (losePower s) :=
      ⟨blankDemand_ready factorySettings_inRange rfl, .of_noTargets ⟨rfl, rfl, rfl⟩ nofun⟩
    exact hlost.of_scene (hscene.trans (losePower_scene s).symm)
  | reset _ hscene =>
    exact ((controlRestarted_targetsStand hs.ready.settings hs.kept).settleReport.settle).of_scene hscene
  | cleared p u _ _ hstate hu hscene =>
    obtain ⟨⟨-, hfiring, -⟩, -⟩ := scene_eq_iff.1 hu
    exact ((hs.of_scene hu).endLockout p (by rw [hfiring]; exact hstate)).of_scene hscene
  | waited _ hscene =>
    have hstopped : TargetsStand (modFiring (fun f => { f with pathWait := none }) s) :=
      ⟨⟨hs.ready.settings, hs.ready.demand⟩, hs.kept.of_settings rfl rfl⟩
    exact hstopped.of_scene hscene

/-- Settles O58: every row keeps the targets, the settings and the copied demand, and so does every step. -/
theorem stepsKeepTargetsBelowLimit : Obligations.StepsKeepTargetsBelowLimit := by
  intro s t hsettings hdemand htargets h
  have hstep : SettingsKept s → TargetsStand s → SettingsKept t ∧ TargetsStand t :=
    step_rel (R := fun s t => SettingsKept s → TargetsStand s → SettingsKept t ∧ TargetsStand t)
      (fun _ hs k => ⟨hs, k⟩)
      (fun h k hs hstand => have hmid := h hs hstand; k hmid.1 hmid.2)
      (fun h hs hstand => ⟨(exec_dataKept h).1 hs, exec_targetsStand h hs hstand⟩)
      (fun s rest hs hstand => ⟨(DataKept.of_data (s := s) rfl).1 hs, hstand.of_scene rfl⟩)
      (fun s hs hstand => ⟨(DataKept.of_data (s := s) rfl).1 hs, ⟨hstand.ready.settings, hstand.ready.demand⟩,
        hstand.kept.of_settings rfl rfl⟩) h
  obtain ⟨-, hready, hkept⟩ := hstep hsettings ⟨⟨((settingsKept_iff s).1 hsettings).1, hdemand⟩, htargets⟩
  exact ⟨hkept, hready.demand⟩

end
end Sys2Proof.Machine

namespace Sys2Proof.Machine

/-! ## What the state selection decides from (R118, R119, R122) -/

section
variable (s : State) (f : Firing)

theorem anyCall_iff : f.anyCall = true ↔ CallPresent f := by
  simp [Firing.anyCall, Firing.heatingCall, Firing.heatingZones, CallPresent]

theorem pathExists_iff : f.pathExists = true ↔ PathPresent f := by
  simp [Firing.pathExists, PathPresent]

theorem zoneDemand_iff : f.zoneDemand = true ↔ f.demand.calling ≠ 0 := by
  simp [Firing.zoneDemand]

theorem unobstructed_iff : unobstructed s = true ↔ s.inputs.interlock = true ∧ s.firing.inhibitText = false ∧
    s.firing.inhibitWire = false ∧ s.firing.flowStatus ≠ .invalid := by
  simp [unobstructed, Firing.flowKnown, and_assoc]

theorem permitted_iff : permitted s = true ↔ FiringAllowed s := by
  have hknown : s.firing.flowStatus ≠ .invalid ↔ s.firing.flowStatus = .valid ∨ s.firing.flowStatus = .held := by
    cases s.firing.flowStatus <;> decide
  rw [permitted, Bool.and_eq_true, unobstructed_iff, hknown, Option.isNone_iff_eq_none]
  unfold FiringAllowed
  tauto

/-- FIRING is selected with a call, a path and permission (R122). -/
theorem selection_firing_iff : selection s = .firing ↔
    CallPresent s.firing ∧ PathPresent s.firing ∧ FiringAllowed s := by
  rw [selection_eq_firing_iff, anyCall_iff, pathExists_iff, permitted_iff]

/-- BLOCKED is selected with a call and a path but without permission (R122). -/
theorem selection_blocked_iff : selection s = .blocked ↔
    CallPresent s.firing ∧ PathPresent s.firing ∧ ¬FiringAllowed s := by
  rw [← anyCall_iff, ← pathExists_iff, ← permitted_iff]
  unfold selection
  split_ifs <;> simp_all

/-- WAIT_PATH is selected with a call but no path, and with zone demand but no call (R122). -/
theorem selection_waitPath_iff : selection s = .waitPath ↔ CallPresent s.firing ∧ ¬PathPresent s.firing ∨
    ¬CallPresent s.firing ∧ s.firing.demand.calling ≠ 0 := by
  rw [← anyCall_iff, ← pathExists_iff, ← zoneDemand_iff]
  have hcall : s.firing.anyCall = false → s.firing.call = false := fun h => (Bool.or_eq_false_iff.1 h).2
  unfold selection
  split_ifs <;> simp_all

/-- IDLE is selected without a call and without zone demand (R122). -/
theorem selection_idle_iff : selection s = .idle ↔ ¬CallPresent s.firing ∧ s.firing.demand.calling = 0 := by
  rw [← anyCall_iff, ← not_ne_iff (a := s.firing.demand.calling), ← zoneDemand_iff]
  have hcall : s.firing.anyCall = false → s.firing.call = false := fun h => (Bool.or_eq_false_iff.1 h).2
  unfold selection
  split_ifs <;> simp_all

variable {s}

/-- A state that the selection gives stands where the table of R122 has it. -/
theorem Selected.of_selection (h : s.firing.state = selection s) : Selected s where
  idle := fun hs => (selection_idle_iff s).1 (h.symm.trans hs)
  waitPath := fun hs => (selection_waitPath_iff s).1 (h.symm.trans hs)
  blocked := fun hs => (selection_blocked_iff s).1 (h.symm.trans hs)

theorem selection_congr {t : State} (hinputs : t.inputs = s.inputs) (hreasons : t.firing.reasons = s.firing.reasons)
    (hpath : t.firing.dhwPath = s.firing.dhwPath) (hminOff : t.firing.minOff = s.firing.minOff) :
    selection t = selection s := by
  have hfree := unobstructed_congr hinputs hreasons
  simp only [Firing.reasons, Prod.mk.injEq] at hreasons
  obtain ⟨hdemand, hreport, hcall, -⟩ := hreasons
  have hany : t.firing.anyCall = s.firing.anyCall := by
    simp only [Firing.anyCall, Firing.heatingCall, Firing.heatingZones, hdemand, hreport, hcall]
  have hexists : t.firing.pathExists = s.firing.pathExists := by simp only [Firing.pathExists, hreport, hpath]
  have hpermitted : permitted t = permitted s := by simp only [permitted, hfree, hminOff]
  have hzone : t.firing.zoneDemand = s.firing.zoneDemand := by simp only [Firing.zoneDemand, hdemand]
  rw [selection, selection, hany, hexists, hpermitted, hzone, hcall]

theorem enterQuiet_selection (state : FiringState) : selection (enterQuiet state s) = selection s :=
  selection_congr rfl rfl rfl rfl

end

/-! ## The lines as a passage of the controller leaves them (R119 to R123) -/

section
variable {s t : State}

/-- The lines with the states they belong to, and the path-wait timer in WAIT_PATH alone: what settling starts from. -/
structure LinesDriven (s : State) : Prop where
  burner : s.firing.burner = true ↔ s.firing.state = .firing
  pump : s.firing.state = .firing ∨ s.firing.state = .overrun → s.firing.pump = true
  quiet : s.firing.state = .idle ∨ s.firing.state = .waitPath ∨ s.firing.state = .blocked → s.firing.pump = false
  waiting : s.firing.pathWait.isSome = true → s.firing.state = .waitPath

/-- What the selection needs for FIRING to be safe: power, the diverter with the call, a path wherever a zone is ready. -/
structure SelectsSafely (s : State) : Prop where
  powered : s.powered = true
  held : s.firing.CallHeld
  ready : ReadyHasPath s.firing.report

theorem LinesKept.driven (h : LinesKept s) : LinesDriven s := ⟨h.burner, h.pump, h.quiet, h.waiting⟩

theorem LinesDriven.burnerOff (h : LinesDriven s) (hs : s.firing.state ≠ .firing) : s.firing.burner = false :=
  Bool.eq_false_iff.2 fun hb => hs (h.burner.1 hb)

/-- In OVERRUN the lines alone matter. -/
theorem LinesKept.of_overrun (h : LinesDriven s) (hs : s.firing.state = .overrun) : LinesKept s where
  burner := h.burner
  pump := h.pump
  quiet := h.quiet
  safe := fun hf => by simp [hs] at hf
  called := fun hf => by simp [hs] at hf
  selected := fun _ => ⟨fun hf => by simp [hs] at hf, fun hf => by simp [hs] at hf, fun hf => by simp [hs] at hf⟩
  waiting := h.waiting

theorem LinesKept.of_lockout (hs : s.firing.state = .lockout) (hburner : s.firing.burner = false)
    (hwait : s.firing.pathWait = none) : LinesKept s where
  burner := by simp [hs, hburner]
  pump := by simp [hs]
  quiet := by simp [hs]
  safe := fun hf => by simp [hs] at hf
  called := fun hf => by simp [hs] at hf
  selected := fun _ => ⟨fun hf => by simp [hs] at hf, fun hf => by simp [hs] at hf, fun hf => by simp [hs] at hf⟩
  waiting := by simp [hwait]

/-- A quiet state that the selection gives, both lines OFF. -/
theorem LinesKept.of_selection (hs : s.firing.state = selection s) (hquiet : s.firing.state ≠ .firing)
    (hburner : s.firing.burner = false) (hpump : s.firing.pump = false)
    (hwait : s.firing.pathWait.isSome = true → s.firing.state = .waitPath) : LinesKept s where
  burner := by simp [hquiet, hburner]
  pump := by
    rintro (hf | hf)
    · exact absurd hf hquiet
    · rcases selection_cases s with h | h | h | h <;> rw [hs, h] at hf <;> cases hf
  quiet := fun _ => hpump
  safe := fun hf => absurd hf hquiet
  called := fun hf => absurd hf hquiet
  selected := fun _ => .of_selection hs
  waiting := hwait

/-- FIRING that nothing withholds. -/
theorem LinesKept.of_firing (hs : s.firing.state = .firing) (hp : s.powered = true) (hburner : s.firing.burner = true)
    (hpump : s.firing.pump = true) (hwait : s.firing.pathWait = none) (hstop : mustStop s = false) : LinesKept s := by
  simp only [mustStop, Bool.or_eq_false_iff, Bool.not_eq_false', Bool.and_eq_false_iff] at hstop
  obtain ⟨⟨hpath, hfree⟩, hcalled⟩ := hstop
  obtain ⟨hinterlock, htext, hwire, hstatus⟩ := (unobstructed_iff s).1 hfree
  constructor
  · simp [hs, hburner]
  · exact fun _ => hpump
  · simp [hs]
  · exact fun _ => ⟨hp, hinterlock, htext, hwire, hstatus, hpath⟩
  · intro _
    rcases hcalled with h | h
    · exact .inl ((anyCall_iff _).1 (by simpa using h))
    · exact .inr (by simpa [Option.isSome_iff_ne_none] using h)
  · exact fun _ => ⟨fun hf => by simp [hs] at hf, fun hf => by simp [hs] at hf, fun hf => by simp [hs] at hf⟩
  · simp [hwait]

end
end Sys2Proof.Machine

namespace Sys2Proof.Machine

/-! ## The path-wait timer (R123) -/

/-- The state and the path-wait timer. -/
def Firing.wait (f : Firing) : FiringState × Option Nat := (f.state, f.pathWait)

/-- WAIT_PATH is entered with its timer at 0, and a stay in it leaves the timer. -/
def WaitsFresh (s t : State) : Prop := t.firing.state = .waitPath →
  t.firing.pathWait = some 0 ∨ (s.firing.state = .waitPath ∧ t.firing.pathWait = s.firing.pathWait)

section
variable {s t u : State}

theorem WaitsFresh.of_wait (h : t.firing.wait = s.firing.wait) : WaitsFresh s t := by
  simp only [Firing.wait, Prod.mk.injEq] at h
  exact fun ht => .inr ⟨h.1 ▸ ht, h.2⟩

theorem WaitsFresh.of_state (h : t.firing.state ≠ .waitPath) : WaitsFresh s t := fun ht => absurd ht h

theorem WaitsFresh.refl (s : State) : WaitsFresh s s := .of_wait rfl

theorem WaitsFresh.trans (h : WaitsFresh s t) (k : WaitsFresh t u) : WaitsFresh s u := fun hu => by
  rcases k hu with hzero | ⟨ht, hsame⟩
  · exact .inl hzero
  · rcases h ht with hzero | ⟨hs, hsame'⟩
    · exact .inl (hsame.trans hzero)
    · exact .inr ⟨hs, hsame.trans hsame'⟩

/-- A step that begins where the state and the timer are as in s. -/
theorem WaitsFresh.after (h : WaitsFresh u t) (hu : u.firing.wait = s.firing.wait) : WaitsFresh s t :=
  (WaitsFresh.of_wait hu).trans h

variable (s)

theorem setPump_wait (on : Bool) : (setPump on s).firing.wait = s.firing.wait := by
  rw [(setPump_spec s on).1]
  rfl

theorem setBurner_wait (on : Bool) : (setBurner on s).firing.wait = s.firing.wait := by
  rw [(setBurner_spec s on).1]
  rfl

theorem setDiverter_wait : (setDiverter s).firing.wait = s.firing.wait := by
  unfold setDiverter
  dsimp only
  split <;> rfl

theorem releaseHold_wait : (releaseHold s).firing.wait = s.firing.wait := setDiverter_wait _

theorem releaseAnyHold_wait : (releaseAnyHold s).firing.wait = s.firing.wait := by
  unfold releaseAnyHold
  split
  · exact releaseHold_wait s
  · rfl

theorem formFlow_wait : (formFlow s).firing.wait = s.firing.wait := by
  unfold formFlow
  split
  · split <;> rfl
  · rfl

theorem formHeating_wait : (formHeating s).firing.wait = s.firing.wait := by
  unfold formHeating
  split
  · exact formFlow_wait _
  · rfl

theorem enterFiring_wait : (enterFiring s).firing.wait = (.firing, none) :=
  (releaseAnyHold_wait _).trans (formHeating_wait _)

theorem enterFiring_waits : WaitsFresh s (enterFiring s) := by
  have hwait := enterFiring_wait s
  simp only [Firing.wait, Prod.mk.injEq] at hwait
  exact .of_state (by simp [hwait])

theorem enterQuiet_waits (state : FiringState) : WaitsFresh s (enterQuiet state s) := by
  intro hstate
  have hentered : state = .waitPath := hstate
  subst hentered
  by_cases hs : s.firing.state = .waitPath
  · exact .inr ⟨hs, by simp [enterQuiet, modFiring, hs]⟩
  · exact .inl (by simp [enterQuiet, modFiring, hs])

theorem select_waits : WaitsFresh s (select s) := by
  unfold select
  split
  · exact enterFiring_waits s
  · exact enterQuiet_waits s _

theorem selectQuiet_waits : WaitsFresh s (selectQuiet s) := by
  unfold selectQuiet
  split
  · exact select_waits s
  · exact select_waits s
  · exact select_waits s
  all_goals exact .refl s

theorem endOverrun_waits : WaitsFresh s (endOverrun s) := by
  have hreleased : (releaseHold (setPump false s)).firing.wait = s.firing.wait :=
    (releaseHold_wait _).trans (setPump_wait s false)
  have hended : WaitsFresh s (runOnEnded s) := WaitsFresh.after (enterQuiet_waits _ _) hreleased
  rw [endOverrun_eq]
  split
  · exact enterFiring_waits s
  · exact hended.trans (selectQuiet_waits _)

theorem enterOverrun_waits : WaitsFresh s (enterOverrun s) := by
  have hstarted : WaitsFresh s (startOverrun s) := .of_state (by rw [startOverrun_state]; decide)
  unfold enterOverrun
  split
  · exact hstarted.trans (endOverrun_waits _)
  · exact hstarted

theorem settle_waits : WaitsFresh s (settle s) := by
  unfold settle
  split
  · exact select_waits s
  · exact select_waits s
  · exact select_waits s
  · split
    · exact enterFiring_waits s
    · exact .refl s
  · split
    · exact WaitsFresh.after (enterOverrun_waits _) (setBurner_wait s false)
    · exact .refl s
  · exact .refl s

theorem lockOut_waits (reason : LockoutReason) : WaitsFresh s (lockOut reason s) := by
  rcases lockOut_cases s reason with ⟨-, h⟩ | ⟨hs, h | ⟨l, -, h⟩⟩ <;> rw [h]
  · obtain ⟨-, ⟨m, houtputs⟩, -⟩ := enterLockout_spec s reason
    simp only [Firing.outputs, Prod.mk.injEq] at houtputs
    obtain ⟨-, -, -, hstate, -⟩ := houtputs
    exact .of_state (by rw [hstate]; decide)
  · exact .refl s
  · exact .of_wait rfl

theorem lockoutPublication_wait : (lockoutPublication s).firing.wait = s.firing.wait := by
  rw [lockoutPublication_eq]
  split
  · exact (releaseHold_wait _).trans (setPump_wait (peakFollowed s) false)
  · rfl

theorem startCall_wait : (startCall s).firing.wait = s.firing.wait := (formFlow_wait _).trans (setDiverter_wait _)

theorem endCall_wait : (endCall s).firing.wait = s.firing.wait := (formFlow_wait _).trans (setDiverter_wait _)

theorem deriveCall_waits : WaitsFresh s (deriveCall s) := by
  rcases deriveCall_cases s with ⟨hderive, -⟩ | hderive | hderive <;> rw [hderive]
  · exact .refl s
  · exact (settle_waits _).after (startCall_wait s)
  · exact (settle_waits _).after (endCall_wait s)

theorem takeSchedule_waits (on : Bool) : WaitsFresh s (takeSchedule on s) := by
  rcases takeSchedule_cases s on with ⟨htake, -⟩ | htake <;> rw [htake]
  · exact .refl s
  · exact WaitsFresh.after (deriveCall_waits _) rfl

variable {s}

theorem ControllerRun.waits (h : ControllerRun s t) : WaitsFresh s t := by
  induction h with
  | unseen hpanel =>
    obtain ⟨-, hfiring, -⟩ := panel_eq_iff.1 hpanel
    exact .of_wait (by rw [hfiring])
  | trans _ _ ih ih' => exact ih.trans ih'
  | timed | dark | written | priorityEnded | copied => exact .of_wait rfl
  | reformed => exact .of_wait (formHeating_wait _)
  | reflowed => exact .of_wait (formFlow_wait _)
  | settled => exact WaitsFresh.after (settle_waits _) rfl
  | lockedOut => exact WaitsFresh.after (lockOut_waits _ _) rfl
  | cooled => exact .of_wait (lockoutPublication_wait _)
  | ranOn => exact WaitsFresh.after (endOverrun_waits _) rfl
  | derived => exact WaitsFresh.after (deriveCall_waits _) rfl
  | handedOn _ hpanel =>
    obtain ⟨-, hfiring, -⟩ := panel_eq_iff.1 hpanel
    exact (takeSchedule_waits _ _).after (by rw [hfiring])
  | reported => exact (settle_waits _).after (formHeating_wait _)
  | demanded => exact (settle_waits _).after (formHeating_wait _)

/-! ### SOFT RESET, LOCKOUT CLEAR and power -/

theorem WaitsFresh.of_scene (h : t.scene = s.scene) : WaitsFresh s t := by
  obtain ⟨⟨-, hfiring, -⟩, -⟩ := scene_eq_iff.1 h
  exact .of_wait (by rw [hfiring])

/-- The restarted controller is in OVERRUN, LOCKOUT or IDLE (R143). -/
theorem controlRestarted_state (s : State) : (controlRestarted s).firing.state = .overrun ∨
    (controlRestarted s).firing.state = .lockout ∨ (controlRestarted s).firing.state = .idle := by
  cases hs : s.firing.state with
  | firing => exact .inl (controlRestarted_of_firing hs).1
  | lockout => exact .inr (.inl (controlRestarted_of_lockout hs).1)
  | idle => exact .inr (.inr (controlRestarted_of_rest (.inl hs)).1)
  | waitPath => exact .inr (.inr (controlRestarted_of_rest (.inr (.inl hs))).1)
  | blocked => exact .inr (.inr (controlRestarted_of_rest (.inr (.inr (.inl hs)))).1)
  | overrun => exact .inr (.inr (controlRestarted_of_rest (.inr (.inr (.inr hs)))).1)

theorem controlSettled_waits (s : State) : WaitsFresh s (controlSettled s) := by
  have hrestarted : WaitsFresh s (reported (controlRestarted s)) := by
    refine .of_state ?_
    show (controlRestarted s).firing.state ≠ .waitPath
    rcases controlRestarted_state s with h | h | h <;> simp [h]
  have hreport : WaitsFresh s (settleReport (controlRestarted s)) := by
    rw [settleReport_eq]
    split
    · exact hrestarted.trans (endOverrun_waits _)
    · exact hrestarted
  exact hreport.trans (settle_waits _)

theorem Started.waits (h : Started s t) : WaitsFresh s t := by
  refine fun hstate => .inl ?_
  rw [h.firing] at hstate ⊢
  unfold startedFiring at hstate ⊢
  dsimp only at hstate ⊢
  split_ifs at hstate ⊢ with hcalled hopen hwaits hwaits <;> simp_all

theorem endLockout_waits (p : Port) (s : State) : WaitsFresh s (endLockout p s) := by
  have hover : WaitsFresh s (lockoutTold p s) := by
    refine .of_state ?_
    rw [lockoutTold_firing]
    exact (by decide : FiringState.idle ≠ .waitPath)
  exact hover.trans (select_waits _)

/-- No row but the path-wait expiry stops the timer of a stay in WAIT_PATH, and that row stays where it is (R123). -/
theorem exec_waits {i : Instr} (h : exec i s = .next t) :
    WaitsFresh s t ∨ (i = .pathWaitExpiry ∧ t.firing.state = s.firing.state) := by
  cases exec_controllerRow h with
  | run _ hrun => exact .inl hrun.waits
  | same hscene => exact .inl (.of_scene hscene)
  | started _ hstarted => exact .inl hstarted.waits
  | lost _ hscene =>
    obtain ⟨⟨-, hfiring, -⟩, -⟩ := (scene_eq_iff (s := losePower s)).1 (hscene.trans (losePower_scene s).symm)
    refine .inl (.of_state ?_)
    rw [hfiring]
    exact (by decide : FiringState.idle ≠ .waitPath)
  | reset _ hscene => exact .inl ((controlSettled_waits s).trans (.of_scene hscene))
  | cleared p u _ _ _ hu hscene =>
    exact .inl ((WaitsFresh.of_scene hu).trans ((endLockout_waits p u).trans (.of_scene hscene)))
  | waited hi hscene =>
    obtain ⟨⟨-, hfiring, -⟩, -⟩ := scene_eq_iff.1 hscene
    exact .inr ⟨hi, by rw [hfiring]; rfl⟩

/-! ### A second (R123) -/

/-- The path-wait expiry is due at the limit alone. -/
def DueWaits (due : State → Option Instr) : Prop :=
  ∀ s, due s = some .pathWaitExpiry → reached Config.pathWaitLimit s.firing.pathWait = true

theorem dueWhen_waits {p : State → Bool} {i : Instr} (h : i ≠ .pathWaitExpiry) : DueWaits (dueWhen p i) := by
  intro s hs
  unfold dueWhen at hs
  split at hs
  · exact absurd (Option.some.inj hs) h
  · cases hs

theorem secondRows_wait : ∀ due ∈ secondRows, DueWaits due := by
  intro due hdue
  simp only [secondRows, drainRows, List.mem_append, List.mem_cons, List.mem_map, List.not_mem_nil, or_false,
    List.mem_flatten, List.mem_replicate] at hdue
  obtain (((rfl | rfl | ⟨_, ⟨-, rfl⟩, hdue⟩) | rfl | rfl | rfl | rfl | rfl | rfl | rfl | rfl | rfl | rfl | rfl | rfl |
    rfl | rfl) | ⟨ch, -, rfl⟩) | ⟨ch, -, rfl⟩ := hdue
  · intro s hs
    obtain ⟨o, -, ho⟩ := Option.map_eq_some_iff.1 hs
    cases ho
  · exact dueWhen_waits nofun
  · simp only [List.mem_cons, List.not_mem_nil, or_false] at hdue
    obtain rfl | rfl := hdue <;> exact dueWhen_waits nofun
  iterate 6 exact dueWhen_waits nofun
  · intro s hs
    unfold dueWhen at hs
    split at hs
    · assumption
    · cases hs
  all_goals exact dueWhen_waits nofun

/-- Rows due one after the other keep WAIT_PATH with its timer at 0, or outside. -/
theorem takeDues_waits {rows : List (State → Option Instr)} (hrows : ∀ due ∈ rows, DueWaits due)
    (hs : s.firing.state = .waitPath → s.firing.pathWait = some 0) (h : rows.foldl takeDue (.next s) = .next t) :
    t.firing.state = .waitPath → t.firing.pathWait = some 0 := by
  induction rows generalizing s with
  | nil =>
    cases h
    exact hs
  | cons due rows ih =>
    obtain ⟨u, hu, hrest⟩ := takeDues_rel (rows := rows) (R := fun _ _ => True) (fun _ => trivial) (fun _ _ => trivial)
      (fun _ => trivial) h
    have hrows' := fun d hd => hrows d (List.mem_cons_of_mem _ hd)
    rw [List.foldl_cons, hu] at h
    refine ih hrows' ?_ h
    cases hdue : due s with
    | none =>
      simp only [takeDue, hdue] at hu
      cases hu
      exact hs
    | some i =>
      simp only [takeDue, hdue] at hu
      rcases exec_waits hu with hfresh | ⟨rfl, hstate⟩
      · intro ht
        rcases hfresh ht with hzero | ⟨hwait, hsame⟩
        · exact hzero
        · exact hsame.trans (hs hwait)
      · intro ht
        have hreached := hrows due List.mem_cons_self s hdue
        rw [hs (hstate.symm.trans ht)] at hreached
        cases hreached

/-- A step that enters WAIT_PATH starts its timer at 0. -/
theorem step_waits (h : step s = .next t) (ht : t.firing.state = .waitPath) (hs : s.firing.state ≠ .waitPath) :
    t.firing.pathWait = some 0 := by
  have hrow : ∀ {i u}, u.firing = s.firing → exec i u = .next t → t.firing.pathWait = some 0 := by
    intro i u hu hexec
    rcases exec_waits hexec with hfresh | ⟨-, hstate⟩
    · exact (hfresh ht).resolve_right fun hstay => hs (by rw [← hu]; exact hstay.1)
    · exact absurd (by rw [← hu, ← hstate]; exact ht) hs
  unfold step at h
  split at h
  · next i rest _ => exact hrow (u := { s with pending := rest }) rfl h
  · unfold idle at h
    split at h
    · split at h
      · exact hrow rfl h
      · exact takeDues_waits (s := secondPasses s) secondRows_wait (fun hwait => absurd hwait hs) h ht
    · cases h
      exact absurd ht hs

end
end Sys2Proof.Machine

namespace Sys2Proof.Machine

/-! ## The lines, state by state (R119 to R123) -/

section
variable {s t : State}

theorem SelectsSafely.of_stands (h : SelectsSafely s) (k : HotWaterStands s t)
    (hkeeps : Keeps [.firing, .valves, .raised, .notices] s t) (hdriver : t.driver = s.driver) : SelectsSafely t := by
  obtain ⟨-, -, hcopies⟩ := driver_eq_iff.1 hdriver
  simp only [Firing.copies, Prod.mk.injEq] at hcopies
  obtain ⟨-, hreport⟩ := hcopies
  have hpowered : t.powered = s.powered := hkeeps .powered (by decide)
  exact ⟨hpowered.trans h.powered, k.held h.held, by rw [hreport]; exact h.ready⟩

/-- FIRING entered by the selection is not left at once: a path of the hot water alone comes with its call, and the call
has the diverter as the hold set goes (R119, R129, R139). -/
theorem enterFiring_continues (h : SelectsSafely s) (hselected : selection s = .firing) :
    mustStop (enterFiring s) = false := by
  obtain ⟨hcall, hpath, hallowed⟩ := (selection_firing_iff s).1 hselected
  obtain ⟨hinterlock, htext, hwire, -, hstatus⟩ := hallowed
  have hinputs : (enterFiring s).inputs = s.inputs := (enterFiring_reaches s).1 .inputs (by decide)
  have hmemory := (enterFiring_settling s).memory
  have houtputs := (enterFiring_shows s).2
  have hstands := enterFiring_stands s
  simp only [Firing.memory, Prod.mk.injEq] at hmemory
  simp only [Firing.outputs, Prod.mk.injEq] at houtputs
  obtain ⟨htext', hwire', -, -, hdemand, hreport⟩ := hmemory
  obtain ⟨-, -, hcall', -, -, -, hstatus', -⟩ := houtputs
  have hstillCalled : (enterFiring s).firing.anyCall = true :=
    (anyCall_iff _).2 (by rw [CallPresent, hdemand, hreport, hcall']; exact hcall)
  have hstillPath : (enterFiring s).firing.pathExists = true := by
    rw [pathExists_iff, PathPresent, hreport]
    rcases hpath with hchannel | hwater
    · exact .inl hchannel
    · by_cases hchannel : s.firing.report.path = 0
      · have hnotReady : s.firing.report.ready = 0 := not_ne_iff.1 fun hready => h.ready hready hchannel
        have hcalled : s.firing.call = true := hcall.resolve_left (by simp [hnotReady])
        obtain ⟨-, hstays⟩ := hstands.path hcalled (h.held.path hwater)
        exact .inr (hstays.trans hwater)
      · exact .inl hchannel
  have hfree : unobstructed (enterFiring s) = true := by
    refine (unobstructed_iff _).2 ⟨by rw [hinputs]; exact hinterlock, htext'.trans htext, hwire'.trans hwire, ?_⟩
    rw [hstatus']
    rcases hstatus with hvalid | hheld <;> simp [*]
  simp [mustStop, hstillCalled, hstillPath, hfree]

theorem enterFiring_linesKept (h : SelectsSafely s) (hselected : selection s = .firing) : LinesKept (enterFiring s) := by
  have houtputs := (enterFiring_shows s).2
  have hwait := enterFiring_wait s
  have hpowered : (enterFiring s).powered = s.powered := (enterFiring_reaches s).1 .powered (by decide)
  simp only [Firing.outputs, Prod.mk.injEq] at houtputs
  simp only [Firing.wait, Prod.mk.injEq] at hwait
  obtain ⟨hburner, hpump, -, hstate, -⟩ := houtputs
  exact .of_firing hstate (hpowered.trans h.powered) hburner hpump hwait.2 (enterFiring_continues h hselected)

theorem select_linesKept (h : SelectsSafely s) (hburner : s.firing.burner = false) (hpump : s.firing.pump = false) :
    LinesKept (select s) := by
  unfold select
  split
  · next hselected => exact enterFiring_linesKept h hselected
  · next hquiet =>
    refine .of_selection (enterQuiet_selection _).symm hquiet hburner hpump fun hwait => ?_
    by_contra hstate
    have hstopped : (enterQuiet (selection s) s).firing.pathWait = none := if_neg hstate
    simp [hstopped] at hwait

theorem endOverrun_linesKept (h : SelectsSafely s) (hburner : s.firing.burner = false) : LinesKept (endOverrun s) := by
  rw [endOverrun_eq]
  split
  · next hselected => exact enterFiring_linesKept h hselected
  · next hquiet =>
    have houtputs := (runOnEnded_shows s).2
    simp only [Firing.outputs, Prod.mk.injEq] at houtputs
    obtain ⟨hburner', hpump, -, hstate, -⟩ := houtputs
    have hended : SelectsSafely (runOnEnded s) := h.of_stands
      (((setPump_hotWater s false).andThen releaseHold_hotWater).andThen (enterQuiet_hotWater · _))
      (((setPump_reaches false s).andThen releaseHold_reaches).andThen (enterQuiet_reaches _)).parts
      ((show (runOnEnded s).driver = (releaseHold (setPump false s)).driver from rfl).trans
        ((releaseHold_driver _).trans (setPump_driver s false)))
    have hselect : selectQuiet (runOnEnded s) = select (runOnEnded s) := by
      unfold selectQuiet
      rcases selection_cases s with hs | hs | hs | hs
      · exact absurd hs hquiet
      all_goals rw [hstate, hs]
    rw [hselect]
    exact select_linesKept hended (hburner'.trans hburner) hpump

/-- OVERRUN entered from FIRING with the burner OFF (R126, R128). -/
theorem enterOverrun_linesKept (h : SelectsSafely s) (hburner : s.firing.burner = false)
    (hpump : s.firing.pump = true) (hwait : s.firing.pathWait = none) : LinesKept (enterOverrun s) := by
  have houtputs := (startOverrun_shows s).2.1
  simp only [Firing.outputs, Prod.mk.injEq] at houtputs
  obtain ⟨hburner', hpump', -, hstate, -⟩ := houtputs
  unfold enterOverrun
  split
  · exact endOverrun_linesKept (h.of_stands (startOverrun_hotWater s) (startOverrun_reaches s).parts
      ((startOverrun_reaches s).driver (startOverrun_settling s).copies)) (hburner'.trans hburner)
  · have hwait' : (startOverrun s).firing.pathWait = none := by
      unfold startOverrun
      dsimp only
      split <;> exact hwait
    refine .of_overrun ⟨?_, fun _ => hpump'.trans hpump, ?_, ?_⟩ hstate
    · simp [hburner', hburner, hstate]
    · simp [hstate]
    · simp [hwait']

theorem settle_linesKept (h : SelectsSafely s) (hlines : LinesDriven s) : LinesKept (settle s) := by
  have hoff := hlines.burnerOff
  unfold settle
  split
  · next hs => exact select_linesKept h (hoff (by simp [hs])) (hlines.quiet (.inl hs))
  · next hs => exact select_linesKept h (hoff (by simp [hs])) (hlines.quiet (.inr (.inl hs)))
  · next hs => exact select_linesKept h (hoff (by simp [hs])) (hlines.quiet (.inr (.inr hs)))
  · next hs =>
    split
    · next hselected => exact enterFiring_linesKept h hselected
    · exact .of_overrun hlines hs
  · next hs =>
    have hwait : s.firing.pathWait = none := by
      by_contra hsome
      have hstate := hlines.waiting (Option.isSome_iff_ne_none.2 hsome)
      simp [hs] at hstate
    have hpump := hlines.pump (.inl hs)
    split
    · have houtputs := (leaveFiring_shows s).2
      simp only [Firing.outputs, Prod.mk.injEq] at houtputs
      obtain ⟨hburner, hpump', -⟩ := houtputs
      refine enterOverrun_linesKept (h.of_stands (leaveFiring_hotWater s) (leaveFiring_reaches s).parts
        (leaveFiring_driver s)) hburner (hpump'.trans hpump) ?_
      have hwait' := setBurner_wait s false
      simp only [Firing.wait, Prod.mk.injEq] at hwait'
      exact hwait'.2.trans hwait
    · next hstop => exact .of_firing hs h.powered (hlines.burner.2 hs) hpump hwait (by simpa using hstop)
  · next hs =>
    refine .of_lockout hs (hoff (by simp [hs])) ?_
    by_contra hsome
    have hstate := hlines.waiting (Option.isSome_iff_ne_none.2 hsome)
    simp [hs] at hstate

/-! ### LOCKOUT (R134, R135) -/

theorem LinesDriven.lockedOut (h : LinesDriven s) (hs : s.firing.state = .lockout) :
    s.firing.burner = false ∧ s.firing.pathWait = none := by
  refine ⟨h.burnerOff (by simp [hs]), ?_⟩
  by_contra hsome
  have hstate := h.waiting (Option.isSome_iff_ne_none.2 hsome)
  simp [hs] at hstate

theorem enterLockout_wait (reason : LockoutReason) (s : State) :
    (enterLockout reason s).firing.wait = (.lockout, none) := by
  have hheld : ∀ u, (holdForLockout u).firing.wait = u.firing.wait := fun u => by
    unfold holdForLockout
    split
    · rfl
    · exact releaseAnyHold_wait u
  rw [enterLockout_eq]
  exact (hheld _).trans (setPump_wait _ _)

theorem lockOut_linesKept (reason : LockoutReason) (h : LinesDriven s) : LinesKept (lockOut reason s) := by
  rcases lockOut_cases s reason with ⟨-, hlock⟩ | ⟨hs, hlock | ⟨l, -, hlock⟩⟩ <;> rw [hlock]
  · obtain ⟨-, ⟨m, houtputs⟩, -⟩ := enterLockout_spec s reason
    have hwait := enterLockout_wait reason s
    simp only [Firing.outputs, Prod.mk.injEq] at houtputs
    simp only [Firing.wait, Prod.mk.injEq] at hwait
    obtain ⟨hburner, -⟩ := houtputs
    refine .of_lockout hwait.1 (hburner.trans ?_) hwait.2
    unfold burnerLeft
    split
    · rfl
    · next hs => exact h.burnerOff hs
  · obtain ⟨hburner, hwait⟩ := h.lockedOut hs
    exact .of_lockout hs hburner hwait
  · obtain ⟨hburner, hwait⟩ := h.lockedOut hs
    exact .of_lockout hs hburner hwait

theorem lockoutPublication_linesKept (h : LinesDriven s) (hs : s.firing.state = .lockout) :
    LinesKept (lockoutPublication s) := by
  obtain ⟨hburner, hnone⟩ := h.lockedOut hs
  have hwait := lockoutPublication_wait s
  simp only [Firing.wait, Prod.mk.injEq] at hwait
  refine .of_lockout (hwait.1.trans hs) ?_ (hwait.2.trans hnone)
  rw [lockoutPublication_eq]
  split
  · have houtputs := (releaseHold_silent (setPump false (peakFollowed s))).outputs
    simp only [Firing.outputs, (setPump_spec (peakFollowed s) false).1, Prod.mk.injEq] at houtputs
    exact houtputs.1.trans hburner
  · exact hburner

end

/-! ## Every row that is not special -/

/-- What `LinesKept` looks at. -/
def State.lines (s : State) : Bool × Bool × FiringState × (Bool × Bool) × Demand × PathReport × (Bool × Bool) ×
    (Bool × Bool) × TempStatus × (Bool × Bool × Bool) :=
  (s.powered, s.inputs.interlock, s.firing.state, (s.firing.burner, s.firing.pump), s.firing.demand, s.firing.report,
    (s.firing.call, s.firing.dhwPath), (s.firing.inhibitText, s.firing.inhibitWire), s.firing.flowStatus,
    (s.firing.minOn.isSome, s.firing.minOff.isNone, s.firing.pathWait.isSome))

/-- The lines with their states, and a path wherever a zone is ready. -/
structure LinesSafe (s : State) : Prop where
  kept : LinesKept s
  ready : ReadyHasPath s.firing.report

section
variable {s t u : State}

theorem LinesSafe.congr (h : LinesSafe s) (hlines : t.lines = s.lines) : LinesSafe t := by
  simp only [State.lines, Prod.mk.injEq] at hlines
  obtain ⟨hpowered, hinterlock, hstate, ⟨hburner, hpump⟩, hdemand, hreport, ⟨hcall, hpath⟩, ⟨htext, hwire⟩, hstatus,
    hminOn, hminOff, hwait⟩ := hlines
  have hfree : t.firing.minOff = none ↔ s.firing.minOff = none := by
    rw [← Option.isNone_iff_eq_none, hminOff, Option.isNone_iff_eq_none]
  have hcalled : CallPresent t.firing ↔ CallPresent s.firing := by simp only [CallPresent, hdemand, hreport, hcall]
  have hpathed : PathPresent t.firing ↔ PathPresent s.firing := by simp only [PathPresent, hreport, hpath]
  have hallowed : FiringAllowed t ↔ FiringAllowed s := by
    simp only [FiringAllowed, hinterlock, htext, hwire, hfree, hstatus]
  obtain ⟨hk, hr⟩ := h
  refine ⟨⟨?_, ?_, ?_, ?_, ?_, fun hp => ?_, ?_⟩, by rw [hreport]; exact hr⟩
  · rw [hburner, hstate]; exact hk.burner
  · rw [hpump, hstate]; exact hk.pump
  · rw [hpump, hstate]; exact hk.quiet
  · rw [pathExists_iff, hpathed, ← pathExists_iff, hpowered, hinterlock, htext, hwire, hstatus, hstate]
    exact hk.safe
  · rw [hcalled, hminOn, hstate]; exact hk.called
  · obtain ⟨hidle, hwaits, hblocked⟩ := hk.selected (hpowered.symm.trans hp)
    constructor
    · rw [hstate, hcalled, hdemand]; exact hidle
    · rw [hstate, hcalled, hpathed, hdemand]; exact hwaits
    · rw [hstate, hcalled, hpathed, hallowed]; exact hblocked
  · rw [hwait, hstate]; exact hk.waiting

theorem LinesSafe.of_scene (h : LinesSafe s) (hscene : t.scene = s.scene) : LinesSafe t := by
  obtain ⟨⟨hpowered, hfiring, hinputs, -⟩, -⟩ := scene_eq_iff.1 hscene
  exact h.congr (by simp only [State.lines, hpowered, hfiring, hinputs])

theorem ReadyHasPath.of_driver (h : ReadyHasPath s.firing.report) (hdriver : t.driver = s.driver) :
    ReadyHasPath t.firing.report := by
  obtain ⟨-, -, hcopies⟩ := driver_eq_iff.1 hdriver
  simp only [Firing.copies, Prod.mk.injEq] at hcopies
  rw [hcopies.2]
  exact h

theorem formFlow_lines (s : State) : (formFlow s).lines = s.lines := by
  unfold formFlow
  split
  · split <;> rfl
  · rfl

theorem formHeating_lines (s : State) : (formHeating s).lines = s.lines := by
  unfold formHeating
  split
  · exact formFlow_lines _
  · rfl

theorem LinesDriven.of_lines (h : LinesDriven s) (hlines : t.lines = s.lines) : LinesDriven t := by
  simp only [State.lines, Prod.mk.injEq] at hlines
  obtain ⟨-, -, hstate, ⟨hburner, hpump⟩, -, -, -, -, -, -, -, hwait⟩ := hlines
  exact ⟨by rw [hburner, hstate]; exact h.burner, by rw [hpump, hstate]; exact h.pump,
    by rw [hpump, hstate]; exact h.quiet, by rw [hwait, hstate]; exact h.waiting⟩

theorem LinesSafe.settle (h : SelectsSafely s) (hlines : LinesDriven s) : LinesSafe (settle s) :=
  ⟨settle_linesKept h hlines, h.ready.of_driver (settle_driver s)⟩

/-- A call that starts or ends moves none of the lines before it settles. -/
theorem formFlow_setDiverter_driven (h : LinesDriven s) : LinesDriven (formFlow (setDiverter s)) := by
  refine LinesDriven.of_lines ?_ (formFlow_lines _)
  unfold setDiverter
  dsimp only
  split
  · exact h
  · exact ⟨h.burner, h.pump, h.quiet, h.waiting⟩

theorem LinesSafe.deriveCall (hp : s.powered = true) (hheld : s.firing.CallHeld) (h : LinesSafe s) :
    LinesSafe (deriveCall s) := by
  have hdriven := h.kept.driven
  rcases deriveCall_cases s with ⟨hderive, -⟩ | hderive | hderive <;> rw [hderive]
  · exact h
  · have hpowered : (startCall s).powered = s.powered := (startCall_reaches s).1 .powered (by decide)
    exact .settle ⟨hpowered.trans hp, startCall_held hheld, h.ready.of_driver (startCall_driver s)⟩
      (formFlow_setDiverter_driven ⟨hdriven.burner, hdriven.pump, hdriven.quiet, hdriven.waiting⟩)
  · have hpowered : (endCall s).powered = s.powered := (endCall_reaches s).1 .powered (by decide)
    exact .settle ⟨hpowered.trans hp, endCall_held hheld, h.ready.of_driver (endCall_driver s)⟩
      (formFlow_setDiverter_driven ⟨hdriven.burner, hdriven.pump, hdriven.quiet, hdriven.waiting⟩)

theorem ControllerRun.linesSafe (h : ControllerRun s t) (hcall : CallKept s) (hs : LinesSafe s) : LinesSafe t := by
  have hdriven := fun u (hu : LinesSafe u) => hu.kept.driven
  induction h with
  | unseen hpanel hentries => exact hs.of_scene (by simp only [State.scene, hpanel, hentries])
  | trans hrun _ ih ih' => exact ih' (hrun.callKept hcall) (ih hcall hs)
  | timed | written | priorityEnded => exact hs.congr rfl
  | @dark s inputs hp =>
    have hsafe : s.firing.state ≠ .firing := fun hf => by simpa [hp] using (hs.kept.safe hf).1
    exact ⟨⟨hs.kept.burner, hs.kept.pump, hs.kept.quiet, fun hf => absurd hf hsafe, hs.kept.called,
      fun hpowered => absurd (hp.symm.trans hpowered) (by decide), hs.kept.waiting⟩, hs.ready⟩
  | reformed => exact LinesSafe.congr (hs.congr rfl) (formHeating_lines _)
  | reflowed => exact hs.congr (formFlow_lines _)
  | @settled s g interlock hp hpath =>
    obtain ⟨hburner, hpump, hquiet, hwaiting⟩ := hdriven s hs
    exact .settle (s := s.reweighed g interlock)
      ⟨hp, ⟨hcall.diverter, fun h => (hpath h).elim hcall.path id, hcall.priority⟩, hs.ready⟩
      ⟨hburner, hpump, hquiet, hwaiting⟩
  | @lockedOut s reason g _ =>
    obtain ⟨hburner, hpump, hquiet, hwaiting⟩ := hdriven s hs
    exact ⟨lockOut_linesKept reason ⟨hburner, hpump, hquiet, hwaiting⟩, hs.ready.of_driver (lockOut_driver _ reason)⟩
  | @copied s g hstate _ =>
    obtain ⟨hburner, hwait⟩ := (hdriven s hs).lockedOut hstate
    exact ⟨.of_lockout hstate hburner hwait, hs.ready⟩
  | @cooled s hstate =>
    exact ⟨lockoutPublication_linesKept (hdriven s hs) hstate, hs.ready.of_driver (lockoutPublication_driver s)⟩
  | @ranOn s hp hstate =>
    have hsafe : SelectsSafely (modFiring (fun f => { f with overrun := none }) s) :=
      ⟨hp, hcall.held.congr rfl rfl rfl rfl rfl, hs.ready⟩
    exact ⟨endOverrun_linesKept hsafe ((hdriven s hs).burnerOff (by simp [hstate])),
      hs.ready.of_driver (endOverrun_driver _)⟩
  | @derived s c request timedCall hp _ _ =>
    exact .deriveCall hp (hcall.held.congr rfl rfl rfl rfl rfl) (hs.congr rfl)
  | @handedOn s t hp hpanel =>
    obtain ⟨hpowered, hfiring, hinputs, -⟩ := panel_eq_iff.1 hpanel
    have hsame : LinesSafe t := hs.congr (by simp only [State.lines, hpowered, hfiring, hinputs])
    have hheld : t.firing.CallHeld := by rw [hfiring]; exact hcall.held
    rcases takeSchedule_cases t (hotWaterSchedule t) with ⟨htake, -⟩ | htake <;> rw [htake]
    · exact hsame
    · exact .deriveCall (hpowered.trans hp) (hheld.congr rfl rfl rfl rfl rfl) (hsame.congr rfl)
  | @reported s r hp hready =>
    obtain ⟨hburner, hpump, hquiet, hwaiting⟩ := hdriven s hs
    let u : State := modFiring (fun f => { f with report := r }) s
    have hsafe : SelectsSafely u := ⟨hp, hcall.held.congr rfl rfl rfl rfl rfl, hready⟩
    exact .settle (hsafe.of_stands (formHeating_hotWater u) (formHeating_reaches u).parts (formHeating_driver u))
      (LinesDriven.of_lines (s := u) ⟨hburner, hpump, hquiet, hwaiting⟩ (formHeating_lines u))
  | @demanded s stood d hp _ =>
    obtain ⟨hburner, hpump, hquiet, hwaiting⟩ := hdriven s hs
    let u : State := modFiring (fun f => { f with
      demand := d, ceiling := if f.state = .firing then ceilingAfter stood f.ceiling else f.ceiling }) s
    have hsafe : SelectsSafely u := ⟨hp, hcall.held.congr rfl rfl rfl rfl rfl, hs.ready⟩
    exact .settle (hsafe.of_stands (formHeating_hotWater u) (formHeating_reaches u).parts (formHeating_driver u))
      (LinesDriven.of_lines (s := u) ⟨hburner, hpump, hquiet, hwaiting⟩ (formHeating_lines u))

end
end Sys2Proof.Machine

namespace Sys2Proof.Machine

/-! ## The lines across SOFT RESET, LOCKOUT CLEAR and power (R136, R143, R181) -/

section
variable {s t : State}

theorem restartStates_pathWait (s : State) : (restartStates s).firing.pathWait = s.firing.pathWait := by
  have hidle : (idleAgain s).firing.pathWait = s.firing.pathWait := by
    have hwait := (releaseAnyHold_wait (setPump false (modFiring (fun f => { f with state := .idle, overrun := none }) s))).trans
      (setPump_wait _ false)
    simp only [Firing.wait, Prod.mk.injEq] at hwait
    exact hwait.2
  unfold restartStates
  split
  · have hwait := setBurner_wait s false
    simp only [Firing.wait, Prod.mk.injEq] at hwait
    unfold startOverrun
    dsimp only
    split <;> exact hwait.2
  · split <;> rfl
  all_goals exact hidle

theorem restartStates_burner (h : s.firing.state ≠ .firing → s.firing.burner = false) :
    (restartStates s).firing.burner = false := by
  have hidle : s.firing.burner = false → (idleAgain s).firing.burner = false := fun hoff => by
    have houtputs := (releaseAnyHold_silent (setPump false
      (modFiring (fun f => { f with state := .idle, overrun := none }) s))).outputs
    simp only [Firing.outputs, (setPump_spec _ false).1, Prod.mk.injEq] at houtputs
    exact houtputs.1.trans hoff
  unfold restartStates
  split
  · have houtputs := (runOn_shows (s := s)).2.1
    simp only [Firing.outputs, Prod.mk.injEq] at houtputs
    exact houtputs.1
  · next hs =>
    split <;> exact h (by simp [hs])
  all_goals
    next hs => exact hidle (h (by simp [hs]))

theorem callRetaken_pathWait (s : State) : (callRetaken s).firing.pathWait = s.firing.pathWait := by
  have hcleared : (clearCall s).firing.wait = s.firing.wait := by
    unfold clearCall
    dsimp only
    split
    · exact endCall_wait (callForgotten s)
    · exact setDiverter_wait (callForgotten s)
  have hwait : (callRetaken s).firing.wait = s.firing.wait := by
    unfold callRetaken retakeCall
    split
    · exact (startCall_wait _).trans hcleared
    · exact hcleared
  simp only [Firing.wait, Prod.mk.injEq] at hwait
  exact hwait.2

/-- The restarted controller has the burner OFF and no path-wait timer (R143). -/
theorem controlRestarted_off (h : LinesDriven s) :
    (controlRestarted s).firing.burner = false ∧ (controlRestarted s).firing.pathWait = none := by
  obtain ⟨y, hy⟩ := controlRestarted_from s
  have hoff : y.firing.state ≠ .firing → y.firing.burner = false := by
    rw [hy.firing]
    exact h.burnerOff
  have hstanding := callRetaken_standing (restartFiring_ne_firing (clearFiring y))
  simp only [Firing.standing, Prod.mk.injEq] at hstanding
  obtain ⟨-, -, hburner, -⟩ := hstanding
  rw [hy.controller, restartController_eq]
  exact ⟨hburner.trans (restartStates_burner (s := dropHeldDiverter (clearFiring y)) hoff),
    (callRetaken_pathWait _).trans (restartStates_pathWait _)⟩

theorem controlRestarted_driven (h : LinesDriven s) : LinesDriven (controlRestarted s) := by
  obtain ⟨hburner, hwait⟩ := controlRestarted_off h
  have hcases : s.firing.state = .firing ∨ s.firing.state = .lockout ∨ s.firing.state = .idle ∨
      s.firing.state = .waitPath ∨ s.firing.state = .blocked ∨ s.firing.state = .overrun := by
    cases s.firing.state <;> decide
  have hpump : (controlRestarted s).firing.state = .overrun → (controlRestarted s).firing.pump = true := by
    intro hover
    rcases hcases with hs | hs | hs
    · obtain ⟨-, hkept, -⟩ := controlRestarted_of_firing hs
      exact hkept.trans (h.pump (.inl hs))
    · obtain ⟨hstate, -⟩ := controlRestarted_of_lockout hs
      exact absurd (hstate.symm.trans hover) (by decide)
    · obtain ⟨hstate, -⟩ := controlRestarted_of_rest hs
      exact absurd (hstate.symm.trans hover) (by decide)
  have hidle : (controlRestarted s).firing.state = .idle → (controlRestarted s).firing.pump = false := by
    intro hidle
    rcases hcases with hs | hs | hs
    · obtain ⟨hstate, -⟩ := controlRestarted_of_firing hs
      exact absurd (hstate.symm.trans hidle) (by decide)
    · obtain ⟨hstate, -⟩ := controlRestarted_of_lockout hs
      exact absurd (hstate.symm.trans hidle) (by decide)
    · obtain ⟨-, hoff, -⟩ := controlRestarted_of_rest hs
      exact hoff
  have hstates := controlRestarted_state s
  refine ⟨?_, ?_, ?_, by simp [hwait]⟩
  · rcases hstates with hs | hs | hs <;> simp [hs, hburner]
  · rintro (hs | hs)
    · rcases hstates with h' | h' | h' <;> simp [hs] at h'
    · exact hpump hs
  · rintro (hs | hs | hs)
    · exact hidle hs
    all_goals rcases hstates with h' | h' | h' <;> simp [hs] at h'

theorem bothRestarted_powered (driverFirst : Bool) (s : State) :
    (bothRestarted driverFirst s).powered = s.powered := by
  cases driverFirst
  · exact (restartController_reaches s).1 .powered (by decide)
  · exact (restartController_reaches (restartDriver s)).1 .powered (by decide)

/-- The restarted controller with the driver's report (R115). -/
theorem reported_selects (hp : s.powered = true) (hcall : CallKept s) : SelectsSafely (reported (controlRestarted s)) :=
  have hbegun : CallKept (restartBegun s) := hcall.of_scene rfl
  have hrestarted : CallKept (controlRestarted s) := bothRestarted_callKept _ hbegun
  ⟨(bothRestarted_powered _ (restartBegun s)).trans hp, hrestarted.held.congr rfl rfl rfl rfl rfl,
    computeReport_readyHasPath _⟩

theorem controlSettled_linesSafe (hp : s.powered = true) (hcall : CallKept s) (h : LinesSafe s) :
    LinesSafe (controlSettled s) := by
  have hselects := reported_selects hp hcall
  have hrestarted := controlRestarted_driven h.kept.driven
  have hdriven : LinesDriven (reported (controlRestarted s)) :=
    ⟨hrestarted.burner, hrestarted.pump, hrestarted.quiet, hrestarted.waiting⟩
  unfold controlSettled
  rw [settleReport_eq]
  split
  · next hover =>
    have hended := endOverrun_linesKept hselects (hdriven.burnerOff (by simp [hover.1]))
    exact .settle (hselects.of_stands (endOverrun_hotWater _) (endOverrun_reaches _).parts (endOverrun_driver _))
      hended.driven
  · exact .settle hselects hdriven

theorem lockoutOver_hotWater (s : State) : HotWaterStands s (lockoutOver s) :=
  ((setPump_hotWater s false).andThen releaseAnyHold_hotWater).trans (.of_eq rfl)

/-- What LOCKOUT CLEAR selects from: IDLE with both lines OFF (R136). -/
theorem lockoutOver_outputs (s : State) : (lockoutOver s).firing.outputs = (s.firing.burner, false, s.firing.call,
    .idle, none, s.firing.flow, s.firing.flowStatus, s.firing.minOff) := by
  have houtputs := (releaseAnyHold_silent (setPump false s)).outputs
  simp only [Firing.outputs, (setPump_spec s false).1, Prod.mk.injEq] at houtputs
  obtain ⟨hburner, hpump, hcall, -, -, hflow, hstatus, hminOff⟩ := houtputs
  simp only [lockoutOver, Firing.outputs, modFiring_fields, raise_fields, hburner, hpump, hcall, hflow, hstatus, hminOff]

theorem lockoutTold_selects (p : Port) (h : SelectsSafely s) : SelectsSafely (lockoutTold p s) := by
  have hover := h.of_stands (lockoutOver_hotWater s) (lockoutOver_reaches s).parts (lockoutOver_driver s)
  have hfiring := lockoutTold_firing p s
  have hpowered : (lockoutTold p s).powered = (lockoutOver s).powered := post_keeps _ _ _ .powered (by decide)
  exact ⟨hpowered.trans hover.powered, by rw [hfiring]; exact hover.held, by rw [hfiring]; exact hover.ready⟩

theorem endLockout_linesSafe (p : Port) (h : SelectsSafely s) (hburner : s.firing.burner = false) :
    LinesSafe (endLockout p s) := by
  have houtputs := lockoutOver_outputs s
  rw [← lockoutTold_firing p s] at houtputs
  simp only [Firing.outputs, Prod.mk.injEq] at houtputs
  obtain ⟨hburner', hpump, -⟩ := houtputs
  exact ⟨select_linesKept (lockoutTold_selects p h) (hburner'.trans hburner) hpump,
    h.ready.of_driver (endLockout_driver s p)⟩

theorem blankReport_readyHasPath : ReadyHasPath blankReport := fun h => absurd rfl h

/-- The state that a start of the part enters is the one selected: a call that starts with it has no path or, with an open
time of 0, a path without a known flow temperature (R122, R142). -/
theorem startedFiring_selection {c : Settings} {fault called : Bool} (h : t.firing = startedFiring c fault called) :
    t.firing.state = selection t := by
  have hcalling : t.firing.demand.calling = 0 := by rw [h]; rfl
  have hchannels : t.firing.report.path = 0 := by rw [h]; rfl
  have hcall : t.firing.call = called := by rw [h]; rfl
  have hpath : t.firing.dhwPath = (called && decide (c.hotWater.openTime = 0)) := by rw [h]; rfl
  have hstate : t.firing.state = if called then (if c.hotWater.openTime = 0 then .blocked else .waitPath) else .idle := by
    rw [h]
    rfl
  have hallowed : ¬FiringAllowed t := by
    rintro ⟨-, -, -, -, hknown⟩
    rw [h] at hknown
    exact hknown.elim nofun nofun
  cases called with
  | false => exact hstate.trans ((selection_idle_iff t).2 ⟨by simp [CallPresent, hcalling, hcall], hcalling⟩).symm
  | true =>
    have hcalled : CallPresent t.firing := .inr hcall
    rw [hstate]
    by_cases hopen : c.hotWater.openTime = 0
    · have hpathed : PathPresent t.firing := .inr (by simp [hpath, hopen])
      simp only [hopen, if_true]
      exact ((selection_blocked_iff t).2 ⟨hcalled, hpathed, hallowed⟩).symm
    · have hunpathed : ¬PathPresent t.firing := by simp [PathPresent, hchannels, hpath, hopen]
      simp only [hopen, if_true, if_false]
      exact ((selection_waitPath_iff t).2 (.inl ⟨hcalled, hunpathed⟩)).symm

theorem Started.linesSafe (h : Started s t) : LinesSafe t := by
  have hselected := startedFiring_selection h.firing
  have hready : ReadyHasPath t.firing.report := by
    rw [h.firing]
    exact blankReport_readyHasPath
  refine ⟨.of_selection hselected ?_ (by rw [h.firing]; rfl) (by rw [h.firing]; rfl) ?_, hready⟩
  · rw [h.firing]
    unfold startedFiring
    dsimp only
    split_ifs <;> decide
  · rw [h.firing]
    unfold startedFiring
    dsimp only
    split_ifs <;> simp_all

theorem exec_linesSafe {i : Instr} (h : exec i s = .next t) (hcall : CallKept s) (hs : LinesSafe s) : LinesSafe t := by
  cases exec_controllerRow h with
  | run _ hrun => exact hrun.linesSafe hcall hs
  | same hscene => exact hs.of_scene hscene
  | started _ hstarted => exact hstarted.linesSafe
  | lost _ hscene =>
    have hlost : LinesSafe (losePower s) :=
      ⟨⟨iff_of_false nofun nofun, nofun, fun _ => rfl, nofun, nofun, nofun, nofun⟩, blankReport_readyHasPath⟩
    exact hlost.of_scene (hscene.trans (losePower_scene s).symm)
  | reset hp hscene => exact (controlSettled_linesSafe hp hcall hs).of_scene hscene
  | cleared p u _ hp hstate hu hscene =>
    obtain ⟨⟨hpowered, hfiring, -⟩, -⟩ := scene_eq_iff.1 hu
    have hsame := hs.of_scene hu
    refine (endLockout_linesSafe p ⟨hpowered.trans hp, by rw [hfiring]; exact hcall.held, hsame.ready⟩ ?_).of_scene hscene
    exact hsame.kept.driven.burnerOff (by rw [hfiring, hstate]; decide)
  | waited _ hscene =>
    obtain ⟨hburner, hpump, hquiet, hsafe, hcalled, hselected, -⟩ := hs.kept
    have hstopped : LinesSafe (modFiring (fun f => { f with pathWait := none }) s) :=
      ⟨⟨hburner, hpump, hquiet, hsafe, hcalled, fun hp => ⟨(hselected hp).idle, (hselected hp).waitPath,
        (hselected hp).blocked⟩, nofun⟩, hs.ready⟩
    exact hstopped.of_scene hscene

/-- A second leaves the lines, and which timers run. -/
theorem secondPasses_lines (s : State) : (secondPasses s).lines = s.lines := by
  simp [State.lines, secondPasses, Firing.second, countLeft, countUp]

/-- Settles O56: every row keeps the lines where it keeps the call, and a step enters WAIT_PATH with its timer at 0. -/
theorem stepsKeepBurnerSafe : Obligations.StepsKeepBurnerSafe := by
  intro s t hlines hcall hready h
  have hstep : CallKept s → LinesSafe s → CallKept t ∧ LinesSafe t :=
    step_rel (R := fun s t => CallKept s → LinesSafe s → CallKept t ∧ LinesSafe t)
      (fun _ hc hs => ⟨hc, hs⟩)
      (fun h k hc hs => have hmid := h hc hs; k hmid.1 hmid.2)
      (fun h hc hs => ⟨exec_callKept h hc, exec_linesSafe h hc hs⟩)
      (fun _ _ hc hs => ⟨hc.of_scene rfl, hs.of_scene rfl⟩)
      (fun s hc hs => ⟨secondPasses_callKept hc, hs.congr (secondPasses_lines s)⟩) h
  obtain ⟨-, hkept, hready'⟩ := hstep hcall ⟨hlines, hready⟩
  exact ⟨hkept, hready', step_waits h⟩

end
end Sys2Proof.Machine

namespace Sys2Proof.Machine

/-! ## Rows over a passage of the controller (R144) -/

section
variable {s t u : State}

/-- t is u with the events raised on the way from s taken by the matrix, and a response delivered. -/
structure Taken (s u t : State) : Prop where
  same : Keeps (.links :: .raised :: responseParts) u t
  links : t.links = (takeEvents u.raised s).links

theorem takeEvents_links_congr (events : List SourceEvent) (hlinks : u.links = s.links)
    (hsettings : u.settings = s.settings) : (takeEvents events u).links = (takeEvents events s).links := by
  induction events generalizing s u with
  | nil => exact hlinks
  | cons e events ih =>
    have htaken : (takeEvent e u).links = (takeEvent e s).links := by simp only [takeEvent_fields, hlinks, hsettings]
    exact ih htaken hsettings

theorem Taken.firing (h : Taken s u t) : t.firing = u.firing := h.same .firing (by decide)

theorem Taken.valves (h : Taken s u t) : t.valves = u.valves := h.same .valves (by decide)

theorem Taken.notices (h : Taken s u t) : t.notices = u.notices := h.same .notices (by decide)

/-- The matrix takes of each kind what the passage has raised of it. -/
theorem Taken.events {kind : SourceKind} {p : Fin 16 → Bool} (h : Taken s u t)
    (hevents : (parametersOf kind u.raised).Perm ((List.finRange 16).filter p)) : EventsTaken s t kind p :=
  (takeInTurns_eventsTaken (s := setRaised u.raised s) [] hevents).congr rfl rfl
    (h.links.trans (takeEvents_links_congr _ rfl rfl))

/-- One event raised for each change is one event taken for each. -/
theorem Taken.changes (h : Taken s u t) (htold : Told (nothingRaised s) u) : ChangesTaken s t := by
  have hshown : ∀ kind : SourceKind, kind.shown s t = kind.shown (nothingRaised s) u := fun kind => by
    cases kind <;> simp only [SourceKind.shown, h.firing] <;> rfl
  refine ⟨fun kind => h.events ?_, fun hnone => ?_⟩
  · simp only [hshown]
    exact htold.parameters rfl kind
  · have hraised : u.raised = [] := by
      refine List.eq_nil_iff_forall_not_mem.2 fun e he => ?_
      have hparameter : e.parameter ∈ parametersOf e.kind u.raised :=
        List.mem_map.2 ⟨e, List.mem_filter.2 ⟨he, by simp⟩, rfl⟩
      have hperm := htold.parameters rfl e.kind
      rw [← hshown, hnone] at hperm
      simpa using hperm.mem_iff.1 hparameter
    rw [h.links, hraised]
    rfl

/-- An event of a part under power. -/
theorem event_taken {block : State → State} {l : List Part} (hp : s.powered = true)
    (hk : Keeps (.raised :: l) (nothingRaised s) (block (nothingRaised s))) (hlinks : .links ∉ l)
    (hsettings : .settings ∉ l) :
    ∃ t, event block s = .next t ∧ Keeps (.links :: l) s t ∧ Taken s (block (nothingRaised s)) t :=
  ⟨_, event_powered block s hp, eventsTaken_keeps hk, (eventsTaken_of_block s _).mono (by simp),
    takeEvents_links_congr _ (hk .links (by simpa using hlinks)) (hk .settings (by simpa using hsettings))⟩

/-- The level of an input is recorded, then its event acts. -/
theorem lineEvent_eq_event {level block : State → State} (hp : s.powered = true) (hlevel : (level s).powered = true) :
    lineEvent level block s = event block (level s) := by
  rw [lineEvent_powered _ _ _ hp, event_powered _ _ hlevel]

/-- A command of a part under power. -/
theorem command_taken {l : List Part} (c : Instr) (p : Port) {block : State → State × Response} {r : Response}
    (hp : s.powered = true) (hb : block (nothingRaised s) = (u, r)) (hk : Keeps (.raised :: l) (nothingRaised s) u)
    (hlinks : .links ∉ l) (hsettings : .settings ∉ l) :
    ∃ t, command c p block s = .next t ∧ Keeps (responseParts ++ .links :: l) s t ∧ t.answered = some (p, r) ∧
      Taken s u t := by
  have hrow := command_powered c p block s hp
  rw [hb] at hrow
  have hdelivered := deliver_keeps c p r (eventsTaken s u)
  refine ⟨_, hrow, ?_, deliver_answered _ _ _ _, ?_, ?_⟩
  · exact ((eventsTaken_keeps hk).mono fun _ => List.mem_append_right _).trans
      (hdelivered.mono fun _ => List.mem_append_left _)
  · exact ((eventsTaken_of_block s u).mono (by simp)).trans
      (hdelivered.mono fun _ hx => List.mem_cons_of_mem _ (List.mem_cons_of_mem _ hx))
  · exact (hdelivered .links (by decide)).trans
      (takeEvents_links_congr _ (hk .links (by simpa using hlinks)) (hk .settings (by simpa using hsettings)))

/-! ## The flame and fault inputs, and the path-wait and flame-wait timers (R123, R125, R133) -/

theorem onEdge_of_new {old new : Bool} (h : old = !new) (block : State → State) : onEdge old new block = block :=
  if_neg (by simp [h])

/-- An edge whose block changes the controller's record alone raises nothing. -/
theorem lineEvent_of_quiet {level block : State → State} {f : Firing → Firing} (hp : s.powered = true)
    (hblock : block (nothingRaised (level s)) = modFiring f (nothingRaised (level s))) :
    lineEvent level block s = .next (modFiring f (level s)) := by
  rw [lineEvent_powered _ _ _ hp, withMatrix_of_quiet (by rw [hblock]; rfl), hblock]
  rfl

/-- An expiry that stops its timer and posts raises nothing. -/
theorem event_of_posting {block : State → State} {f : Firing → Firing} {n : Notice} (hp : s.powered = true)
    (hblock : block (nothingRaised s) = postBoth n (modFiring f (nothingRaised s))) :
    event block s = .next (postBoth n (modFiring f s)) := by
  rw [event_powered _ _ hp, withMatrix_of_quiet (by rw [hblock]; rfl), hblock]
  rfl

/-- An expiry of a timer that does not run changes nothing. -/
theorem event_of_unchanged {block : State → State} (hp : s.powered = true)
    (hblock : block (nothingRaised s) = nothingRaised s) : event block s = .next s := by
  rw [event_powered _ _ hp, withMatrix_of_quiet (by rw [hblock]; rfl), hblock]
  rfl

theorem edgeTaken_keeps {i : Inputs} (f : Firing → Firing) : Keeps [.inputs, .firing] s (modFiring f { s with inputs := i }) := by
  intro part hpart
  cases part <;> first | rfl | (simp at hpart)

/-- The flame-wait timer stops with an assertion of the flame in FIRING (R125). -/
def Firing.flameSeen (on : Bool) (f : Firing) : Firing :=
  { f with flameWait := if on = true ∧ f.state = .firing then none else f.flameWait }

theorem flameBlock_eq (on : Bool) (s : State) : flameBlock on s = modFiring (Firing.flameSeen on) s := by
  unfold flameBlock
  split
  · next h => simp only [modFiring, Firing.flameSeen, h, and_self, if_true]
  · next h => simp only [modFiring, Firing.flameSeen, h, if_false]

/-- Settles O42: each row's block changes one timer, and the expiries post besides. -/
theorem flameAndPathTimersAct : Obligations.FlameAndPathTimersAct := by
  intro s hp
  refine ⟨fun on hnew => ?_, fun on hnew => ?_, fun hruns => ?_, fun hruns => ?_, fun hstopped => ?_, fun hstopped => ?_⟩
  · exact ⟨_, lineEvent_of_quiet (level := setFlame on) (f := Firing.flameSeen on) hp
      (by rw [onEdge_of_new hnew, flameBlock_eq]), edgeTaken_keeps _, rfl, rfl⟩
  · exact ⟨_, lineEvent_of_quiet (level := setFaultInput on)
      (f := fun g => { g with faultTimer := if on then some 0 else none }) hp (by rw [onEdge_of_new hnew]; rfl),
      edgeTaken_keeps _, rfl, rfl⟩
  · exact ⟨_, event_of_posting (block := pathWaitBlock) (n := .noPath s.firing.demand.calling)
      (f := fun f => { f with pathWait := none }) hp (if_pos hruns),
      ((modFiring_keeps _ _).mono (by decide)).trans ((postBoth_keeps _ _).mono (by decide)), rfl,
      postBoth_notices_of _ _⟩
  · exact ⟨_, event_of_posting (block := flameWaitBlock) (n := .noFlame)
      (f := fun f => { f with flameWait := none }) hp (if_pos hruns),
      ((modFiring_keeps _ _).mono (by decide)).trans ((postBoth_keeps _ _).mono (by decide)), rfl,
      postBoth_notices_of _ _⟩
  · exact event_of_unchanged (block := pathWaitBlock) hp (if_neg (by simp [nothingRaised, setRaised, hstopped]))
  · exact event_of_unchanged (block := flameWaitBlock) hp (if_neg (by simp [nothingRaised, setRaised, hstopped]))

end
end Sys2Proof.Machine

namespace Sys2Proof.Machine

/-! ## A pass through which FIRING stands (R118, R130) -/

section
variable {s t : State} {c h : Int}

/-- Outside FIRING with the min-off timer running: FIRING is not entered again in the same event (R127). -/
structure Rests (s : State) : Prop where
  state : s.firing.state ≠ .firing
  minOff : s.firing.minOff.isSome = true

/-- FIRING with the heating target formed under the ceiling c (R130). -/
structure FormedUnder (c : Int) (s : State) : Prop where
  state : s.firing.state = .firing
  ceiling : s.firing.ceiling = some c
  heating : s.firing.heating =
    some (heatingUnder s.settings.firing (some c) (computedTarget s.settings.firing s.firing.umax))

theorem Rests.selection_ne (h : Rests s) : selection s ≠ .firing := by
  obtain ⟨n, hn⟩ := Option.isSome_iff_exists.1 h.minOff
  exact selection_ne_firing_of_minOff hn

theorem Rests.congr (h : Rests s) (hfiring : t.firing = s.firing) : Rests t :=
  ⟨by rw [hfiring]; exact h.state, by rw [hfiring]; exact h.minOff⟩

theorem Rests.select (h : Rests s) : Rests (select s) := by
  have hquiet := h.selection_ne
  rw [Machine.select, if_neg hquiet]
  exact ⟨hquiet, h.minOff⟩

theorem Rests.settle (h : Rests s) : Rests (settle s) := by
  unfold Machine.settle
  split
  · exact h.select
  · exact h.select
  · exact h.select
  · rw [if_neg h.selection_ne]
    exact h
  · next hs => exact absurd hs h.state
  · exact h

theorem Rests.formHeating (h : Rests s) : Rests (formHeating s) := by
  rw [formHeating_of_not_firing h.state]
  exact h

/-- The run-on ends without FIRING while the min-off timer runs. -/
theorem Rests.endOverrun (h : Rests s) : Rests (endOverrun s) := by
  have houtputs := (runOnEnded_shows s).2
  simp only [Firing.outputs, Prod.mk.injEq] at houtputs
  obtain ⟨-, -, -, hstate, -, -, -, hminOff⟩ := houtputs
  have hended : Rests (runOnEnded s) := ⟨by rw [hstate]; exact h.selection_ne, by rw [hminOff]; exact h.minOff⟩
  rw [endOverrun_eq, if_neg h.selection_ne]
  unfold selectQuiet
  split
  · exact hended.select
  · exact hended.select
  · exact hended.select
  all_goals exact hended

/-- FIRING that an event leaves rests, and FIRING that it does not leave stands as it is (R126, R127). -/
theorem settle_of_firing_cases (hs : s.firing.state = .firing) (hminOff : 0 < s.settings.firing.minOff) :
    settle s = s ∨ Rests (settle s) := by
  cases hstop : mustStop s with
  | false =>
    left
    simp only [settle, hs, hstop]
    rfl
  | true =>
    right
    have houtputs := (runOn_shows (s := s)).2.1
    simp only [Firing.outputs, Prod.mk.injEq] at houtputs
    obtain ⟨-, -, -, hstate, -, -, -, htimer⟩ := houtputs
    have hran : Rests (runOn s) := by
      refine ⟨by rw [hstate]; decide, ?_⟩
      rw [htimer, startTimer, if_neg (by omega)]
      rfl
    rw [settle_of_firing hs hstop]
    unfold enterOverrun
    split
    · exact hran.endOverrun
    · exact hran

theorem FormedUnder.congr (hf : FormedUnder c s) (hfiring : t.firing = s.firing) (hsettings : t.settings = s.settings) :
    FormedUnder c t :=
  ⟨by rw [hfiring]; exact hf.state, by rw [hfiring]; exact hf.ceiling, by rw [hfiring, hsettings]; exact hf.heating⟩

/-- In FIRING the heating target is formed under the ceiling that stands. -/
theorem formHeating_formedUnder (hs : s.firing.state = .firing) (hceiling : s.firing.ceiling = some c) :
    FormedUnder c (formHeating s) := by
  obtain ⟨hkept, hheating⟩ := formHeating_of_firing hs hceiling
  have hwait := formHeating_wait s
  have hmemory := (formHeating_settling s).memory
  have hsettings : (formHeating s).settings = s.settings := (formHeating_reaches s).1 .settings (by decide)
  simp only [Firing.wait, Prod.mk.injEq] at hwait
  simp only [Firing.memory, Prod.mk.injEq] at hmemory
  obtain ⟨-, -, -, -, hdemand, hreport⟩ := hmemory
  have humax : (formHeating s).firing.umax = s.firing.umax := by
    simp only [Firing.umax, Firing.heatingZones, hdemand, hreport]
  exact ⟨hwait.1.trans hs, hkept, by rw [hheating, hsettings, humax]⟩

theorem FormedUnder.settle (hf : FormedUnder c s) (hminOff : 0 < s.settings.firing.minOff) :
    FormedUnder c (settle s) ∨ Rests (settle s) := by
  rcases settle_of_firing_cases hf.state hminOff with hstays | hrests
  · rw [hstays]
    exact .inl hf
  · exact .inr hrests

/-- A demand update moves the ceiling of a FIRING controller to the heating target that stood, plus 200 (R130). -/
theorem takeDemand_formedUnder (hs : s.firing.state = .firing) (hminOff : 0 < s.settings.firing.minOff) (d : Demand) :
    FormedUnder (h + 200) (takeDemand (some h) d s) ∨ Rests (takeDemand (some h) d s) := by
  let u : State := modFiring (fun f => { f with
    demand := d, ceiling := if f.state = .firing then ceilingAfter (some h) f.ceiling else f.ceiling }) s
  have hformed : FormedUnder (h + 200) (formHeating u) := formHeating_formedUnder hs (if_pos hs)
  have hsettings : (formHeating u).settings = s.settings := (formHeating_reaches u).1 .settings (by decide)
  exact hformed.settle (by rwa [hsettings])

theorem Rests.takeDemand (hr : Rests s) (stood : Option Int) (d : Demand) : Rests (takeDemand stood d s) :=
  have hcopied : Rests (modFiring (fun f => { f with
    demand := d, ceiling := if f.state = .firing then ceilingAfter stood f.ceiling else f.ceiling }) s) :=
    ⟨hr.state, hr.minOff⟩
  hcopied.formHeating.settle

theorem Rests.handReport (hr : Rests s) : Rests (handReport s) := by
  unfold Machine.handReport
  split
  · exact hr
  · have hcopied : Rests (modFiring (fun f => { f with report := computeReport s }) (setReport (computeReport s) s)) :=
      ⟨hr.state, hr.minOff⟩
    exact hcopied.formHeating.settle

/-- A report forms the heating target again under the ceiling that stands (R118). -/
theorem FormedUnder.handReport (hf : FormedUnder c s) (hminOff : 0 < s.settings.firing.minOff) :
    FormedUnder c (handReport s) ∨ Rests (handReport s) := by
  unfold Machine.handReport
  split
  · exact .inl hf
  · let u : State := modFiring (fun f => { f with report := computeReport s }) (setReport (computeReport s) s)
    have hformed : FormedUnder c (formHeating u) := formHeating_formedUnder (s := u) hf.state hf.ceiling
    have hsettings : (formHeating u).settings = s.settings := (formHeating_reaches u).1 .settings (by decide)
    exact hformed.settle (by rwa [hsettings])

/-- A report that comes first leaves FIRING or lets it stand. -/
theorem handReport_of_firing (hs : s.firing.state = .firing) (hminOff : 0 < s.settings.firing.minOff) :
    (handReport s).firing.state = .firing ∨ Rests (handReport s) := by
  unfold handReport
  split
  · exact .inl hs
  · let u : State := modFiring (fun f => { f with report := computeReport s }) (setReport (computeReport s) s)
    have hwait := formHeating_wait u
    simp only [Firing.wait, Prod.mk.injEq] at hwait
    have hformed : (formHeating u).firing.state = .firing := hwait.1.trans hs
    have hsettings : (formHeating u).settings = s.settings := (formHeating_reaches u).1 .settings (by decide)
    rcases settle_of_firing_cases hformed (by rwa [hsettings]) with hstays | hrests
    · exact .inl ((congrArg (fun x => x.firing.state) hstays).trans hformed)
    · exact .inr hrests

/-- The hand-over of a pass, in each order of the demand update and the report (R118). -/
theorem handDemand_formedUnder (hs : s.firing.state = .firing) (hheating : s.firing.heating = some h)
    (hminOff : 0 < s.settings.firing.minOff) (order : PassOrder) (d : Demand) :
    FormedUnder (h + 200) (handDemand order d s) ∨ Rests (handDemand order d s) := by
  have hthen : ∀ u : State, 0 < u.settings.firing.minOff → FormedUnder (h + 200) u ∨ Rests u →
      FormedUnder (h + 200) (handReport u) ∨ Rests (handReport u) := fun u hu hcases =>
    hcases.elim (fun hformed => hformed.handReport hu) fun hrests => .inr hrests.handReport
  have htaken : ∀ u : State, (takeDemand (some h) d u).settings = u.settings := fun u =>
    (takeDemand_reaches _ _ u).1 .settings (by decide)
  unfold handDemand
  dsimp only
  rw [hheating]
  cases order with
  | controllerFirst =>
    have hdriven : (applyDemand d (takeDemand (some h) d s)).settings = s.settings := htaken s
    refine hthen _ (by rwa [hdriven]) ?_
    exact (takeDemand_formedUnder hs hminOff d).imp (fun hf => hf.congr rfl rfl) fun hr => hr.congr rfl
  | driverFirst =>
    have hdriven : (takeDemand (some h) d (applyDemand d s)).settings = s.settings := htaken (applyDemand d s)
    exact hthen _ (by rwa [hdriven]) (takeDemand_formedUnder (s := applyDemand d s) hs hminOff d)
  | reportFirst =>
    have hreported : (handReport (applyDemand d s)).settings = s.settings :=
      handReport_keeps (applyDemand d s) .settings (by decide)
    rcases handReport_of_firing (s := applyDemand d s) hs hminOff with hstays | hrests
    · exact takeDemand_formedUnder hstays (by rwa [hreported]) d
    · exact .inr (hrests.takeDemand _ d)

/-- After a pass the controller is as the hand-over leaves it. -/
theorem passed_firing (s : State) : (passed s).firing =
    (handDemand s.orders.next.pass (passDemand (orderTaken s)) (frostTaken s)).firing := by
  have hrow : (passed s).firing = (passBlock s.orders.next (orderTaken s)).firing :=
    eventsTaken_of_block s _ .firing (by decide)
  have hturns : (passBlock s.orders.next (orderTaken s)).firing =
      (callingBrought s.orders.next (orderTaken s)).firing := takeInTurns_keeps _ _ .firing (by decide)
  exact hrow.trans (hturns.trans (callingBrought_keeps _ _ .firing (by decide)))

theorem frostTaken_firing (s : State) : (frostTaken s).firing = s.firing :=
  (takeInTurns_keeps [] _ .firing (by decide)).trans (zonesComputed_keeps_row s .firing (by decide))

/-- The flow target and the code that follow from the heating target (R130, R131). -/
theorem formHeating_flow {heating : Int} (hs : s.firing.state = .firing) (hceiling : s.firing.ceiling = some c)
    (hheating : heating = heatingUnder s.settings.firing (some c) (computedTarget s.settings.firing s.firing.umax)) :
    ∃ target, target = (if s.firing.call = false then heating
        else if s.firing.priority.isSome then s.settings.hotWater.target else max heating s.settings.hotWater.target) ∧
      (formHeating s).firing.flowTarget = some target ∧
      (formHeating s).firing.code = clamp 0 16383 (divRound ((target - 2000) * 16383) 7000) := by
  let u : State := modFiring (fun f => { f with
    heating := some (heatingUnder s.settings.firing f.ceiling (computedTarget s.settings.firing f.umax)) }) s
  have hu : u.firing.heating = some heating := by
    rw [hheating, ← hceiling]
    rfl
  have hformed : formHeating s = formFlow u := if_pos hs
  refine ⟨_, rfl, ?_⟩
  rw [hformed, formFlow_of_firing (s := u) hs hu rfl]
  exact ⟨rfl, rfl⟩

/-- Settles O46: umax by `umax_spec`, the targets by their forming, and the pass by its hand-over in each order. -/
theorem flowTargetFollowsRateCeiling : Obligations.FlowTargetFollowsRateCeiling := by
  refine ⟨umax_spec, fun s c hs hceiling u computed heating hu hcomputed hheating => ?_,
    fun s h hp hs hheating hminOff => ⟨passed s, exec_pass hp, fun hstays => ?_⟩⟩
  · have hunder : heating =
        heatingUnder s.settings.firing (some c) (computedTarget s.settings.firing s.firing.umax) := by
      rw [heatingUnder_some, hheating, hcomputed, hu]
      rfl
    obtain ⟨-, hformed⟩ := formHeating_of_firing hs hceiling
    obtain ⟨target, htarget, hflow, hcode⟩ := formHeating_flow hs hceiling hunder
    refine ⟨by rw [hformed, hunder], fun hcall => ?_, fun hcall hpriority => ?_, fun hcall hpriority => ?_,
      fun target' htarget' => ?_, formHeating_keeps s⟩
    · rw [hflow, htarget, if_pos hcall]
    · rw [hflow, htarget, if_neg (by simp [hcall]), if_pos hpriority]
    · rw [hflow, htarget, if_neg (by simp [hcall]), if_neg (by simp [hpriority])]
    · rw [hcode, Option.some.inj (hflow.symm.trans htarget')]
  · have hfrost := frostTaken_firing s
    have hsettings := frostTaken_settings s
    have hpassed := passed_firing s
    rcases handDemand_formedUnder (s := frostTaken s) (h := h) (by rw [hfrost]; exact hs) (by rw [hfrost]; exact hheating)
      (by rw [hsettings]; exact hminOff) s.orders.next.pass (passDemand (orderTaken s)) with hformed | hrests
    · have hkept : (handDemand s.orders.next.pass (passDemand (orderTaken s)) (frostTaken s)).settings = s.settings :=
        (handDemand_keeps _ _ _ .settings (by decide)).trans hsettings
      refine ⟨by rw [hpassed]; exact hformed.ceiling, fun computed hcomputed => ?_⟩
      rw [hpassed, hformed.heating, hkept, heatingUnder_some, hcomputed, hpassed]
      rfl
    · rw [hpassed] at hstays
      exact absurd hstays hrests.state

end
end Sys2Proof.Machine

namespace Sys2Proof.Machine

/-! ## LOCKOUT CLEAR (R121, R136) -/

section
variable {s t u : State}

/-- What the selection shows from a state with the pump OFF: the pump and the burner ON in FIRING, and as they were
elsewhere, with an event for each that changes (R121, R122). -/
theorem select_shows (hpump : s.firing.pump = false) :
    (select s).raised = s.raised ++ lineEvents .pumpOn .pumpOff false (select s).firing.pump ++
        lineEvents .burnerOn .burnerOff s.firing.burner (select s).firing.burner ∧
      (∃ burner pump, (select s).firing.outputs = (burner, pump, s.firing.call, selection s, s.firing.lockout,
        s.firing.flow, s.firing.flowStatus, s.firing.minOff) ∧
        (burner = false → s.firing.burner = false) ∧ (selection s ≠ .firing → pump = false)) := by
  unfold select
  split
  · next hselected =>
    obtain ⟨hraised, houtputs⟩ := enterFiring_shows s
    have hlines := houtputs
    simp only [Firing.outputs, Prod.mk.injEq] at hlines
    obtain ⟨hburner, hpumped, -⟩ := hlines
    refine ⟨by rw [hraised, hburner, hpumped, hpump], true, true, by rw [houtputs, hselected], nofun,
      fun h => absurd hselected h⟩
  · obtain ⟨hraised, houtputs⟩ := enterQuiet_shows s (selection s)
    have hlines := houtputs
    simp only [Firing.outputs, Prod.mk.injEq] at hlines
    obtain ⟨hburner, hpumped, -⟩ := hlines
    refine ⟨by simp [hraised, hburner, hpumped, hpump], s.firing.burner, false, by rw [houtputs, hpump], id, fun _ => rfl⟩

theorem select_hold (h : s.firing.hold = none) : (select s).firing.hold = none := by
  unfold select
  split
  · exact releaseAnyHold_hold _
  · exact h

/-- What LOCKOUT CLEAR raises before the selection (R136). -/
theorem lockoutOver_raised (s : State) : (lockoutOver s).raised =
    s.raised ++ lineEvents .pumpOn .pumpOff s.firing.pump false ++ [⟨.lockoutOff, 0⟩] := by
  have hreleased : (releaseAnyHold (setPump false s)).raised =
      s.raised ++ lineEvents .pumpOn .pumpOff s.firing.pump false :=
    (releaseAnyHold_silent _).raised.trans (setPump_spec s false).2
  show (releaseAnyHold (setPump false s)).raised ++ [⟨.lockoutOff, 0⟩] = _
  rw [hreleased]

theorem lockoutTold_raised (p : Port) (s : State) : (lockoutTold p s).raised = (lockoutOver s).raised :=
  post_keeps _ _ _ .raised (by decide)

/-- LOCKOUT CLEAR from the pump's stop to the selection that follows (R121, R136). -/
theorem endLockout_shows (p : Port) (s : State) :
    (endLockout p s).raised = s.raised ++ lineEvents .pumpOn .pumpOff s.firing.pump false ++ [⟨.lockoutOff, 0⟩] ++
        lineEvents .pumpOn .pumpOff false (endLockout p s).firing.pump ++
        lineEvents .burnerOn .burnerOff s.firing.burner (endLockout p s).firing.burner ∧
      (∃ burner pump k, (endLockout p s).firing.outputs = (burner, pump, s.firing.call, k, none, s.firing.flow,
        s.firing.flowStatus, s.firing.minOff) ∧ k ≠ .lockout ∧ k ≠ .overrun ∧ (burner = false → s.firing.burner = false) ∧
        (k ≠ .firing → pump = false)) := by
  have hover := lockoutOver_outputs s
  rw [← lockoutTold_firing p s] at hover
  simp only [Firing.outputs, Prod.mk.injEq] at hover
  obtain ⟨hburner, hpump, hcall, -, hlockout, hflow, hstatus, hminOff⟩ := hover
  obtain ⟨hraised, burner, pump, houtputs, hlit, hquiet⟩ := select_shows hpump
  rw [hburner, lockoutTold_raised, lockoutOver_raised] at hraised
  rw [hburner] at hlit
  refine ⟨hraised, burner, pump, selection (lockoutTold p s), ?_, selection_ne_lockout _, ?_, hlit, hquiet⟩
  · rw [endLockout_eq, houtputs, hcall, hlockout, hflow, hstatus, hminOff]
  · rcases selection_cases (lockoutTold p s) with h | h | h | h <;> simp [h]

theorem endLockout_hold (p : Port) (s : State) : (endLockout p s).firing.hold = none := by
  have hover : (lockoutTold p s).firing.hold = none := by
    rw [lockoutTold_firing]
    exact releaseAnyHold_hold (setPump false s)
  exact select_hold hover

/-- The other port is told, and the carrying port is not (R136). -/
theorem endLockout_notices (p q : Port) (s : State) : (endLockout p s).notices.of q =
    if q = p.other then (s.notices.of p.other).take .lockout else s.notices.of q := by
  have hselected : (endLockout p s).notices = (lockoutTold p s).notices := (select_reaches _).1 .notices (by decide)
  have hover : (lockoutOver s).notices = s.notices := (lockoutOver_reaches s).1 .notices (by decide)
  rw [hselected]
  show ((lockoutOver s).notices.put p.other (((lockoutOver s).notices.of p.other).take .lockout)).of q = _
  rw [hover, Notices.of_put]

theorem filter_zero (b : Bool) : ((List.finRange 16).filter fun z => decide (z = 0) && b) = if b then [0] else [] := by
  cases b <;> decide

/-- The parameters of a kind among the events of LOCKOUT CLEAR, given the lines before and after (R121, R136). -/
def clearingParameters (pump pump' burner burner' : Bool) : SourceKind → List (Fin 16)
  | .lockoutOff => [0]
  | .pumpOff => if pump then [0] else []
  | .pumpOn => if pump' then [0] else []
  | .burnerOn => if !burner && burner' then [0] else []
  | .burnerOff => if burner && !burner' then [0] else []
  | _ => []

theorem parametersOf_clearing (kind : SourceKind) (pump pump' burner burner' : Bool) :
    parametersOf kind (lineEvents .pumpOn .pumpOff pump false ++ [⟨.lockoutOff, 0⟩] ++
      lineEvents .pumpOn .pumpOff false pump' ++ lineEvents .burnerOn .burnerOff burner burner') =
    clearingParameters pump pump' burner burner' kind := by
  simp only [parametersOf_append]
  repeat rw [parametersOf_lineEvents (by decide)]
  cases kind <;> simp [parametersOf, clearingParameters]

/-- Every reason is resolved (R136). -/
theorem resolved_of_reasons {l : Lockout} (hlimit : l.highLimit = true → s.firing.flowStatus = .valid ∧
      ∃ f ∈ s.firing.flow, f < s.settings.firing.highLimit - 1000)
    (hfault : l.boilerFault = true → s.inputs.fault = false) : resolved l s = true := by
  have hcold : l.highLimit = true → highLimitResolved s = true := fun h => by
    obtain ⟨hvalid, f, hf, hlow⟩ := hlimit h
    rw [Option.mem_def] at hf
    simp [highLimitResolved, hvalid, hf, hlow]
  cases hl : l.highLimit <;> cases hb : l.boilerFault <;> simp_all [resolved]

theorem not_resolved_of_reason {l : Lockout} (h : (l.highLimit = true ∧ (s.firing.flowStatus ≠ .valid ∨
      ∃ f ∈ s.firing.flow, s.settings.firing.highLimit - 1000 ≤ f)) ∨ (l.boilerFault = true ∧ s.inputs.fault = true)) :
    resolved l s = false := by
  rcases h with ⟨hlimit, hflow⟩ | ⟨hboiler, hfault⟩
  · have hhot : highLimitResolved s = false := by
      rcases hflow with hstatus | ⟨f, hf, hhigh⟩
      · simp [highLimitResolved, hstatus]
      · rw [Option.mem_def] at hf
        simp [highLimitResolved, hf, hhigh]
    simp [resolved, hlimit, hhot]
  · simp [resolved, hboiler, hfault]

/-- What the matrix takes of an accepted LOCKOUT CLEAR (R121, R136). -/
theorem endLockout_taken (p : Port) (hs : s.firing.state = .lockout) (h : Taken s (endLockout p (nothingRaised s)) t) :
    EventsTaken s t .lockoutOff (fun z => decide (z = 0)) ∧
      EventsTaken s t .pumpOff (fun z => decide (z = 0) && s.firing.pump) ∧
      EventsTaken s t .pumpOn (fun z => decide (z = 0) && t.firing.pump) ∧
      ∀ kind : SourceKind, kind ≠ .pumpOff → kind ≠ .pumpOn →
        EventsTaken s t kind fun z => decide (z = 0) && kind.shown s t := by
  obtain ⟨hraised, burner, pump, k, houtputs, hk, -, hlit, -⟩ := endLockout_shows p (nothingRaised s)
  rw [← h.firing] at hraised houtputs
  simp only [Firing.outputs, Prod.mk.injEq] at houtputs
  obtain ⟨hburner, -, hcall, hstate, -⟩ := houtputs
  have hevents : ∀ kind, parametersOf kind (endLockout p (nothingRaised s)).raised =
      clearingParameters s.firing.pump t.firing.pump s.firing.burner t.firing.burner kind := fun kind =>
    (congrArg (parametersOf kind) hraised).trans (parametersOf_clearing kind _ _ _ _)
  refine ⟨h.events ?_, h.events ?_, h.events ?_, fun kind hoff hon => h.events ?_⟩
  · rw [hevents]
    exact .of_eq (show [0] = _ by decide)
  · rw [hevents, filter_zero]
    exact .refl _
  · rw [hevents, filter_zero]
    exact .refl _
  · have hcalled : t.firing.call = s.firing.call := hcall
    have hstays : t.firing.burner = false → s.firing.burner = false := fun hb => hlit (hburner.symm.trans hb)
    rw [hevents, filter_zero]
    cases kind <;> simp_all [SourceKind.shown, clearingParameters]

/-- Settles O40: each reason's resolution decides the block's branch, and `endLockout_shows` says what it does. -/
theorem lockoutClearNeedsResolvedReasons : Obligations.LockoutClearNeedsResolvedReasons := by
  intro p s hp
  refine ⟨fun l hs hl hlimit hfault => ?_, fun l hs hl hreason => ?_, fun hs => ?_⟩
  · have hblock : lockoutClearBlock p (nothingRaised s) = (endLockout p (nothingRaised s), .ok [num 1]) := by
      have hresolved : resolved l (nothingRaised s) = true := resolved_of_reasons hlimit hfault
      have hs' : (nothingRaised s).firing.state = .lockout := hs
      have hl' : (nothingRaised s).firing.lockout = some l := hl
      rw [lockoutClearBlock, if_pos hs', hl']
      exact if_pos hresolved
    have hreaches := endLockout_reaches (nothingRaised s) p
    obtain ⟨t, ht, hkeeps, hanswered, htaken⟩ := command_taken (l := [.firing, .valves, .notices]) (.lockoutClear p) p hp
      hblock (hreaches.1.mono (by decide)) (by decide) (by decide)
    obtain ⟨-, burner, pump, k, houtputs, hlockout, hover, -, hquiet⟩ := endLockout_shows p (nothingRaised s)
    have hhold := endLockout_hold p (nothingRaised s)
    rw [← htaken.firing] at houtputs hhold
    simp only [Firing.outputs, Prod.mk.injEq] at houtputs
    obtain ⟨-, hpump, -, hstate, hrecord, -, -, hminOff⟩ := houtputs
    obtain ⟨hcleared, hpumpOff, hpumpOn, hothers⟩ := endLockout_taken p hs htaken
    refine ⟨t, ht, hkeeps.mono (by decide), ?_, ?_, ?_, hrecord, hhold, hminOff, ?_, ?_, ?_, hcleared, hpumpOff, hpumpOn,
      hothers, hanswered⟩
    · rw [htaken.valves]
      exact hreaches.2
    · rwa [hstate]
    · rwa [hstate]
    · rw [hstate, hpump]
      exact hquiet
    · rw [htaken.notices, endLockout_notices, if_pos rfl, PortNotices.take_kinds_getLsbD]
      rfl
    · rw [htaken.notices, endLockout_notices, if_neg (by cases p <;> decide)]
      rfl
  · refine refused_powered (.lockoutClear p) p (lockoutClearBlock p) .notReady s hp ?_
    have hresolved : resolved l (nothingRaised s) = false := not_resolved_of_reason hreason
    have hs' : (nothingRaised s).firing.state = .lockout := hs
    have hl' : (nothingRaised s).firing.lockout = some l := hl
    rw [lockoutClearBlock, if_pos hs', hl']
    exact if_neg (by simp [hresolved])
  · obtain ⟨t, ht, hkeeps, hanswered, -⟩ := command_of_keeps (l := []) (.lockoutClear p) p
      (block := lockoutClearBlock p) (r := .ok [num 0]) hp (if_neg hs) (Keeps.refl _ _) (by decide)
    exact ⟨t, ht, hkeeps.mono (by decide), hanswered⟩

end
end Sys2Proof.Machine

namespace Sys2Proof.Machine

/-! ## The hot-water call as it starts and ends (R121, R137) -/

section
variable {s t u : State}

theorem deriveCall_of_same (h : callWanted s = s.firing.call) : deriveCall s = s := by
  unfold deriveCall
  cases hcall : s.firing.call <;> simp [h, hcall]

theorem deriveCall_of_start (hwanted : callWanted s = true) (hcall : s.firing.call = false) :
    deriveCall s = settle (startCall s) := by simp [deriveCall, hwanted, hcall]

theorem deriveCall_of_end (hwanted : callWanted s = false) (hcall : s.firing.call = true) :
    deriveCall s = settle (endCall s) := by simp [deriveCall, hwanted, hcall]

/-- A call that changes raises its event and shows nothing else before it settles. -/
structure CallTurned (on : Bool) (s u : State) : Prop where
  raised : u.raised = s.raised ++ [⟨if on then .dhwOn else .dhwOff, 0⟩]
  outputs : u.firing.outputs = (s.firing.burner, s.firing.pump, on, s.firing.state, s.firing.lockout, s.firing.flow,
    s.firing.flowStatus, s.firing.minOff)

theorem startCall_turned (s : State) : CallTurned true s (startCall s) := by
  have hsilent : ∀ u, Silent u (formFlow (setDiverter u)) := fun u => (setDiverter_silent u).trans (formFlow_silent _)
  exact ⟨(hsilent _).raised, (hsilent _).outputs⟩

theorem endCall_turned (s : State) : CallTurned false s (endCall s) := by
  have hsilent : ∀ u, Silent u (formFlow (setDiverter u)) := fun u => (setDiverter_silent u).trans (formFlow_silent _)
  exact ⟨(hsilent _).raised, (hsilent _).outputs⟩

/-- What settles after the change of a call tells of the lines; the change has told of the call. -/
theorem CallTurned.told {on : Bool} (h : CallTurned on s u) (hcall : s.firing.call = !on) (hcalled : t.firing.call = on)
    (htold : Told u t) : Told s t := by
  obtain ⟨hraised, houtputs⟩ := h
  simp only [Firing.outputs, Prod.mk.injEq] at houtputs
  obtain ⟨hburner, hpump, hturned, hstate, -⟩ := houtputs
  have hevents : changeEvents u t = lineEvents .burnerOn .burnerOff s.firing.burner t.firing.burner ++
      lineEvents .pumpOn .pumpOff s.firing.pump t.firing.pump ++
      lineEvents .lockoutOn .lockoutOff (decide (s.firing.state = .lockout)) (decide (t.firing.state = .lockout)) := by
    rw [changeEvents, hburner, hpump, hturned, hcalled, hstate, lineEvents_self, List.append_nil]
  have hdhw : lineEvents .dhwOn .dhwOff s.firing.call t.firing.call = [⟨if on then .dhwOn else .dhwOff, 0⟩] := by
    rw [hcall, hcalled]
    cases on <;> rfl
  unfold Told at htold ⊢
  rw [hraised, hevents] at htold
  refine htold.trans ?_
  rw [changeEvents, hdhw, List.append_assoc s.raised]
  refine List.Perm.append_left _ ?_
  rw [← List.append_assoc]
  exact List.Perm.append_right _ List.perm_append_comm

/-- One event is raised for each change that the derivation of the call brings about. -/
theorem deriveCall_told (s : State) : Told s (deriveCall s) := by
  have hcalled := deriveCall_call s
  cases hwanted : callWanted s <;> cases hcall : s.firing.call
  · rw [deriveCall_of_same (by rw [hwanted, hcall])]
    exact .refl s
  · rw [hwanted] at hcalled
    rw [deriveCall_of_end hwanted hcall] at hcalled ⊢
    exact (endCall_turned s).told hcall hcalled (settle_told (endCall_follows s))
  · rw [hwanted] at hcalled
    rw [deriveCall_of_start hwanted hcall] at hcalled ⊢
    exact (startCall_turned s).told hcall hcalled (settle_told (startCall_follows s))
  · rw [deriveCall_of_same (by rw [hwanted, hcall])]
    exact .refl s

theorem startCall_priority (s : State) :
    (startCall s).firing.priority = if s.settings.hotWater.absolute then some 0 else none :=
  ((formFlow_hotWater _).priority).trans (setDiverter_priority _)

theorem endCall_priority (s : State) : (endCall s).firing.priority = none :=
  ((formFlow_hotWater _).priority).trans (setDiverter_priority _)

/-! ### Where a call that starts leads (R122, R123) -/

/-- A diverter with an open time gives no hot-water path at once (R139). -/
theorem setDiverter_path (hpath : s.firing.dhwPath = false) (hopen : 0 < s.settings.hotWater.openTime) :
    (setDiverter s).firing.dhwPath = false := by
  unfold setDiverter
  dsimp only
  split
  · exact hpath
  · simp [Nat.ne_of_gt hopen]

theorem formFlow_path (s : State) : (formFlow s).firing.dhwPath = s.firing.dhwPath := by
  have hgrounds := formFlow_grounds s
  simp only [Firing.grounds, Prod.mk.injEq] at hgrounds
  obtain ⟨-, -, -, hsame, -⟩ := hgrounds
  exact hsame

theorem startCall_path (hpath : s.firing.dhwPath = false) (hopen : 0 < s.settings.hotWater.openTime) :
    (startCall s).firing.dhwPath = false := by
  rw [startCall, formFlow_path]
  exact setDiverter_path hpath hopen

theorem startCall_allowed (s : State) : FiringAllowed (startCall s) ↔ FiringAllowed s := by
  have hmemory := (startCall_settling s).memory
  have houtputs := (startCall_turned s).outputs
  have hinputs : (startCall s).inputs = s.inputs := (startCall_reaches s).1 .inputs (by decide)
  simp only [Firing.memory, Prod.mk.injEq] at hmemory
  simp only [Firing.outputs, Prod.mk.injEq] at houtputs
  obtain ⟨htext, hwire, -⟩ := hmemory
  obtain ⟨-, -, -, -, -, -, hstatus, hminOff⟩ := houtputs
  simp only [FiringAllowed, hinputs, htext, hwire, hstatus, hminOff]

theorem settle_of_quiet (h : s.firing.state = .idle ∨ s.firing.state = .waitPath ∨ s.firing.state = .blocked) :
    settle s = select s := by
  rcases h with h | h | h <;> rw [settle, h]

/-- A call that starts in a quiet state leads to WAIT_PATH where no path opens (R122, R123). -/
theorem startCall_waits (hquiet : s.firing.state = .idle ∨ s.firing.state = .waitPath ∨ s.firing.state = .blocked)
    (hreport : s.firing.report.path = 0) (hpath : s.firing.dhwPath = false) (hopen : 0 < s.settings.hotWater.openTime) :
    (settle (startCall s)).firing.state = .waitPath ∧ (settle (startCall s)).firing.pathWait =
      if s.firing.state = .waitPath then s.firing.pathWait else some 0 := by
  have hwait := startCall_wait s
  have hmemory := (startCall_settling s).memory
  simp only [Firing.wait, Prod.mk.injEq] at hwait
  simp only [Firing.memory, Prod.mk.injEq] at hmemory
  obtain ⟨hstate, htimer⟩ := hwait
  obtain ⟨-, -, -, -, -, hreport'⟩ := hmemory
  have hselected : selection (startCall s) = .waitPath := by
    refine (selection_waitPath_iff _).2 (.inl ⟨.inr (startCall_call s), ?_⟩)
    simp [PathPresent, hreport', hreport, startCall_path hpath hopen]
  rw [settle_of_quiet (by rwa [hstate]), select, hselected, if_neg (by decide)]
  refine ⟨rfl, ?_⟩
  simp only [enterQuiet, modFiring_fields, hstate, htimer, if_true]

/-- A call that starts in a quiet state with a path but without permission is BLOCKED (R122). -/
theorem startCall_blocks (hquiet : s.firing.state = .idle ∨ s.firing.state = .waitPath ∨ s.firing.state = .blocked)
    (hreport : s.firing.report.path ≠ 0) (hallowed : ¬FiringAllowed s) :
    (settle (startCall s)).firing.state = .blocked ∧ (settle (startCall s)).firing.pathWait = none := by
  have hwait := startCall_wait s
  have hmemory := (startCall_settling s).memory
  simp only [Firing.wait, Prod.mk.injEq] at hwait
  simp only [Firing.memory, Prod.mk.injEq] at hmemory
  obtain ⟨hstate, -⟩ := hwait
  obtain ⟨-, -, -, -, -, hreport'⟩ := hmemory
  have hselected : selection (startCall s) = .blocked :=
    (selection_blocked_iff _).2 ⟨.inr (startCall_call s), .inl (by rwa [hreport']),
      (startCall_allowed s).not.2 hallowed⟩
  rw [settle_of_quiet (by rwa [hstate]), select, hselected, if_neg (by decide)]
  exact ⟨rfl, rfl⟩

/-! ## DHW BOOST and the request input (R137, R138) -/

/-- The state of DHW BOOST as the call is derived. -/
def boosted (minutes : Int) (s : State) : State :=
  modFiring (fun f => { f with timedCall := some (minutes.toNat * 60) }) (nothingRaised s)

theorem boosted_wanted {minutes : Int} (h : s.settings.hotWater.mode ≠ .off) : callWanted (boosted minutes s) = true := by
  rw [callWanted_eq]
  simp [boosted, nothingRaised, setRaised, h]

/-- An accepted DHW BOOST (R138). -/
theorem exec_dhwBoost (p : Port) {minutes : Int} (hp : s.powered = true) (hlow : 1 ≤ minutes) (hhigh : minutes ≤ 120)
    (hmode : s.settings.hotWater.mode ≠ .off) : ∃ t, exec (.dhwBoost p minutes) s = .next t ∧
      Keeps (responseParts ++ [.firing, .valves, .links]) s t ∧ OnlyHoldWritten s.valves t.valves ∧
      t.answered = some (p, .ok [.word minutes]) ∧ Taken s (deriveCall (boosted minutes s)) t := by
  have hblock : dhwBoostBlock minutes (nothingRaised s) = (deriveCall (boosted minutes s), .ok [num minutes]) := by
    have hwithin : within 1 120 minutes = true := by simp [within, hlow, hhigh]
    have hmode' : (nothingRaised s).settings.hotWater.mode ≠ .off := hmode
    rw [dhwBoostBlock, if_pos hwithin, if_neg hmode']
    rfl
  have hreaches : Reaches (nothingRaised s) (deriveCall (boosted minutes s)) :=
    (modFiring_reaches _ _).andThen deriveCall_reaches
  obtain ⟨t, ht, hkeeps, hanswered, htaken⟩ := command_taken (l := [.firing, .valves]) (.dhwBoost p minutes) p hp hblock
    (hreaches.1.mono (by decide)) (by decide) (by decide)
  exact ⟨t, ht, hkeeps.mono (by decide), by rw [htaken.valves]; exact hreaches.2, hanswered, htaken⟩

/-- The request input at a level that is new (R137). -/
theorem exec_hotWaterRequestEdge {asserted : Bool} (hp : s.powered = true) (hnew : s.inputs.request = !asserted) :
    ∃ t, exec (.hotWaterRequestEdge asserted) s = .next t ∧ Keeps [.inputs, .firing, .valves, .links] s t ∧
      OnlyHoldWritten s.valves t.valves ∧ t.inputs = { s.inputs with request := asserted } ∧
      Taken s (requestBlock asserted (nothingRaised (setRequest asserted s))) t := by
  have hreaches : ∀ u, Reaches u (requestBlock asserted u) := fun u => by
    unfold requestBlock
    split
    · exact (modFiring_reaches _ _).andThen deriveCall_reaches
    · exact deriveCall_reaches u
  obtain ⟨t, ht, hkeeps, htaken⟩ := event_taken (s := setRequest asserted s) (block := requestBlock asserted)
    (l := [.firing, .valves]) hp ((hreaches _).1.mono (by decide)) (by decide) (by decide)
  have hlevel : Keeps [.inputs] s (setRequest asserted s) := by
    intro part hpart
    cases part <;> first | rfl | (simp at hpart)
  refine ⟨t, ?_, ((hlevel.mono (by decide)).trans (hkeeps.mono (by decide))), ?_, hkeeps .inputs (by decide),
    htaken.same, htaken.links.trans (takeEvents_links_congr _ rfl rfl)⟩
  · show lineEvent (setRequest asserted) (onEdge s.inputs.request asserted (requestBlock asserted)) s = _
    rw [onEdge_of_new hnew, lineEvent_eq_event hp hp, ht]
  · rw [htaken.valves]
    exact (hreaches (nothingRaised (setRequest asserted s))).2

theorem requestBlock_told (asserted : Bool) (s : State) :
    Told (nothingRaised s) (requestBlock asserted (nothingRaised (setRequest asserted s))) := by
  unfold requestBlock
  split
  · exact deriveCall_told (modFiring _ _)
  · exact deriveCall_told (nothingRaised (setRequest asserted s))

/-- Settles O41: the call is derived, and what its start leads to is the selection. -/
theorem hotWaterCausesMakeTheCall : Obligations.HotWaterCausesMakeTheCall := by
  intro p asserted minutes s hp
  refine ⟨fun hlow hhigh hmode => ?_, fun hlow hhigh hmode => ?_, fun hrange => ?_, fun hnew => ?_⟩
  · obtain ⟨t, ht, hkeeps, hvalves, hanswered, htaken⟩ := exec_dhwBoost p hp hlow hhigh hmode
    have hwanted := boosted_wanted (minutes := minutes) hmode
    have hstart : s.firing.call = false → t.firing = (settle (startCall (boosted minutes s))).firing := fun hcall => by
      rw [htaken.firing, deriveCall_of_start hwanted hcall]
    have htold : Told (nothingRaised s) (deriveCall (boosted minutes s)) := deriveCall_told (boosted minutes s)
    refine ⟨t, ht, hkeeps, hvalves, ?_, ?_, hanswered, fun hcall => ?_, fun hcall => ?_, htaken.changes htold,
      fun hcall hreport hpath hopen => ⟨fun hstate => ?_, fun hstate => ?_⟩, fun hcall hreport hallowed hquiet => ?_⟩
    · rw [htaken.firing, deriveCall_timedCall]
      rfl
    · rw [htaken.firing, deriveCall_call, hwanted]
    · rw [hstart hcall, (settle_hotWater _).priority, startCall_priority]
      rfl
    · have hcall' : (boosted minutes s).firing.call = true := hcall
      rw [htaken.firing, deriveCall_of_same (by rw [hwanted, hcall'])]
      rfl
    · have hquiet : s.firing.state = .idle ∨ s.firing.state = .waitPath ∨ s.firing.state = .blocked := by tauto
      obtain ⟨hwaits, htimer⟩ := startCall_waits (s := boosted minutes s) hquiet hreport hpath hopen
      have hnew : (boosted minutes s).firing.state ≠ .waitPath := by
        show s.firing.state ≠ .waitPath
        rcases hstate with h | h <;> simp [h]
      rw [hstart hcall]
      exact ⟨hwaits, htimer.trans (if_neg hnew)⟩
    · obtain ⟨hwaits, htimer⟩ := startCall_waits (s := boosted minutes s) (.inr (.inl hstate)) hreport hpath hopen
      rw [hstart hcall]
      exact ⟨hwaits, htimer.trans (if_pos hstate)⟩
    · rw [hstart hcall]
      exact startCall_blocks (s := boosted minutes s) hquiet hreport hallowed
  · refine refused_powered (.dhwBoost p minutes) p (dhwBoostBlock minutes) .notReady s hp ?_
    have hwithin : within 1 120 minutes = true := by simp [within, hlow, hhigh]
    have hmode' : (nothingRaised s).settings.hotWater.mode = .off := hmode
    rw [dhwBoostBlock, if_pos hwithin, if_pos hmode']
  · refine refused_powered (.dhwBoost p minutes) p (dhwBoostBlock minutes) .range s hp ?_
    have hwithin : ¬within 1 120 minutes = true := by
      simp only [within, Bool.and_eq_true, decide_eq_true_eq]
      omega
    rw [dhwBoostBlock, if_neg hwithin]
  · obtain ⟨t, ht, hkeeps, hvalves, hinputs, htaken⟩ := exec_hotWaterRequestEdge hp hnew
    have hderived : ¬(asserted = true ∧ s.settings.hotWater.mode = .pulse) →
        t.firing.call = callWanted (nothingRaised (setRequest asserted s)) := fun hpulse => by
      have hblock : requestBlock asserted (nothingRaised (setRequest asserted s)) =
          deriveCall (nothingRaised (setRequest asserted s)) := if_neg hpulse
      rw [htaken.firing, hblock, deriveCall_call]
    have hwanted : callWanted (nothingRaised (setRequest asserted s)) = (decide (s.settings.hotWater.mode ≠ .off) &&
        (s.firing.timedCall.isSome || (asserted && (decide (s.settings.hotWater.mode = .follow) ||
          (decide (s.settings.hotWater.mode = .gate) && s.firing.schedule))))) := callWanted_eq _
    refine ⟨t, ht, hkeeps, hvalves, hinputs, htaken.changes (requestBlock_told asserted s), fun hmode => ?_, fun hmode => ?_,
      fun hmode hon => ?_, fun hmode hoff => ?_, fun hmode => ?_⟩
    · rw [hderived (by simp [hmode]), hwanted]
      simp [hmode, Bool.or_comm]
    · rw [hderived (by simp [hmode]), hwanted]
      simp [hmode, Bool.or_comm]
    · have hblock : requestBlock asserted (nothingRaised (setRequest asserted s)) =
          setTimedCall (s.settings.hotWater.pulse * 60) (nothingRaised (setRequest asserted s)) := if_pos ⟨hon, hmode⟩
      rw [htaken.firing, hblock, setTimedCall, deriveCall_call, deriveCall_timedCall, callWanted_eq]
      exact ⟨by simp [hmode, nothingRaised, setRaised, setRequest], rfl⟩
    · rw [hderived (by simp [hoff]), hwanted]
      simp [hmode, hoff]
    · rw [hderived (by simp [hmode]), hwanted]
      simp [hmode]

end
end Sys2Proof.Machine

namespace Sys2Proof.Machine

/-! ## FIRING left for a run-on, and the end of the run-on (R126 to R129) -/

section
variable {s t u : State}

theorem enterOverrun_leaveFiring (s : State) : enterOverrun (leaveFiring s) =
    if s.settings.firing.overrun = 0 then endOverrun (runOn s) else runOn s := by
  have hsettings : (leaveFiring s).settings = s.settings := (leaveFiring_reaches s).1 .settings (by decide)
  rw [← hsettings]
  rfl

/-- A run-on with an overrun setting runs on. -/
theorem settle_runsOn (hs : s.firing.state = .firing) (hstop : mustStop s = true)
    (hoverrun : 0 < s.settings.firing.overrun) : settle s = runOn s := by
  rw [settle_of_firing hs hstop, enterOverrun_leaveFiring, if_neg (by omega)]

/-- Without a bypass the run-on has the hold set of the channels and the diverter as they stand (R129). -/
theorem runOn_inForce (hbypass : s.settings.firing.bypass = false) : HoldInForce (runOn s)
    (FixedHold s.settings.firing.fallbackChannel s.valves.channels s.firing.diverter) s.firing.diverter := by
  have hgrounds := runningOn_grounds s
  simp only [Firing.grounds, Prod.mk.injEq] at hgrounds
  obtain ⟨-, -, -, -, -, -, -, hdiverter, -⟩ := hgrounds
  have hfixed := fixHold_inForce (runningOn s)
  rw [runningOn_settings, runningOn_valves, hdiverter] at hfixed
  rwa [runOn_eq, if_neg (by simp [hbypass])]

/-- A run-on that an overrun setting of 0 ends at once stops the pump too, where nothing selects FIRING again (R128). -/
theorem stop_ends (hs : s.firing.state = .firing) (hstop : mustStop s = true) (hoverrun : s.settings.firing.overrun = 0)
    (hended : Barred (runOnEnded (runOn s))) :
    settle s = endOverrun (runOn s) ∧ (settle s).raised = s.raised ++
        lineEvents .burnerOn .burnerOff s.firing.burner false ++ lineEvents .pumpOn .pumpOff s.firing.pump false ∧
      (settle s).firing.outputs = (false, false, s.firing.call, selection (runOnEnded (runOn s)), s.firing.lockout,
        s.firing.flow, s.firing.flowStatus, startTimer s.settings.firing.minOff) := by
  have hsettled : settle s = endOverrun (runOn s) := by
    rw [settle_of_firing hs hstop, enterOverrun_leaveFiring, if_pos hoverrun]
  have hbarred : Barred (runOn s) := (barred_of_mustStop hstop).mono (runOn_keeps .inputs (by decide)) runOn_reasons.1
    fun h => runOn_reasons.2 ▸ h
  obtain ⟨hraised, houtputs, -⟩ := runOn_shows (s := s)
  obtain ⟨hraised', houtputs'⟩ := endOverrun_shows hbarred.selection_ne hended.selection_ne
  simp only [Firing.outputs, Prod.mk.injEq] at houtputs
  obtain ⟨hburner, hpump, hcall, -, hlockout, hflow, hstatus, hminOff⟩ := houtputs
  rw [hburner, hcall, hlockout, hflow, hstatus, hminOff] at houtputs'
  rw [hpump, hraised] at hraised'
  exact ⟨hsettled, hsettled ▸ hraised', hsettled ▸ houtputs'⟩

/-- Without permission FIRING does not stand after any event (R119, R126). -/
theorem settle_ne_firing (h : unobstructed s = false) : (settle s).firing.state ≠ .firing := by
  have hbarred : Barred s := .inr (.inr h)
  have hquiet : (select s).firing.state ≠ .firing := by
    rw [select, if_neg hbarred.selection_ne]
    exact hbarred.selection_ne
  unfold settle
  split
  · exact hquiet
  · exact hquiet
  · exact hquiet
  · next hs =>
    rw [if_neg hbarred.selection_ne, hs]
    decide
  · rw [if_pos (mustStop_of_obstructed h)]
    obtain ⟨p, k, -, houtputs, hk, -⟩ := stop_shows (mustStop_of_obstructed h) (.inr h)
    simp only [Firing.outputs, Prod.mk.injEq] at houtputs
    obtain ⟨-, -, -, hstate, -⟩ := houtputs
    rwa [hstate]
  · next hs =>
    rw [hs]
    decide

/-- BLOCKED goes to FIRING once nothing withholds it (R122, R124). -/
theorem settle_of_blocked (hs : s.firing.state = .blocked) (hselected : selection s = .firing) :
    settle s = enterFiring s := by
  rw [settle_of_quiet (.inr (.inr hs)), select, if_pos hselected]

theorem settle_of_selected (hany : s.firing.anyCall = true) (hpath : s.firing.pathExists = true)
    (hinterlock : s.inputs.interlock = true) (htext : s.firing.inhibitText = false) (hwire : s.firing.inhibitWire = false)
    (hstatus : s.firing.flowStatus ≠ .invalid) (hminOff : s.firing.minOff = none) : selection s = .firing := by
  have hfree : unobstructed s = true := (unobstructed_iff s).2 ⟨hinterlock, htext, hwire, hstatus⟩
  exact (selection_eq_firing_iff s).2 ⟨hany, hpath, by simp [permitted, hfree, hminOff]⟩

/-! ## INHIBIT (R120) -/

theorem setInhibit_flags (p : Port) (on : Bool) (s : State) :
    (setInhibit p on s).firing.inhibitText = (if p = .text then on else s.firing.inhibitText) ∧
      (setInhibit p on s).firing.inhibitWire = (if p = .wire then on else s.firing.inhibitWire) := by
  cases p <;> exact ⟨rfl, rfl⟩

/-- Beside the flag the setting of an inhibit changes nothing that the controller shows or selects from. -/
theorem setInhibit_spec (p : Port) (on : Bool) (s : State) :
    (setInhibit p on s).firing.outputs = s.firing.outputs ∧ (setInhibit p on s).firing.demand = s.firing.demand ∧
      (setInhibit p on s).firing.report = s.firing.report ∧ (setInhibit p on s).firing.dhwPath = s.firing.dhwPath ∧
      (setInhibit p on s).firing.diverter = s.firing.diverter ∧ (setInhibit p on s).firing.hold = s.firing.hold := by
  cases p <;> exact ⟨rfl, rfl, rfl, rfl, rfl, rfl⟩

theorem setInhibit_obstructs (p : Port) (s : State) : unobstructed (setInhibit p true s) = false := by
  cases p <;> simp [unobstructed, setInhibit, modFiring]

/-- The flags after INHIBIT (R120). -/
theorem inhibited_flags (p : Port) (on : Bool) (s : State) :
    (settle (setInhibit p on s)).firing.inhibitText = (if p = .text then on else s.firing.inhibitText) ∧
      (settle (setInhibit p on s)).firing.inhibitWire = (if p = .wire then on else s.firing.inhibitWire) := by
  have hmemory := settle_memory (setInhibit p on s)
  simp only [Firing.memory, Prod.mk.injEq] at hmemory
  obtain ⟨htext, hwire, -⟩ := hmemory
  obtain ⟨hflag, hflag'⟩ := setInhibit_flags p on s
  exact ⟨htext.trans hflag, hwire.trans hflag'⟩

theorem exec_inhibit (p : Port) (on : Bool) (hp : s.powered = true) :
    ∃ t, exec (.inhibit p (if on then 1 else 0)) s = .next t ∧
      Keeps (responseParts ++ [.firing, .valves, .links]) s t ∧ OnlyHoldWritten s.valves t.valves ∧
      t.answered = some (p, .ok (inhibitFields t)) ∧ Taken s (settle (setInhibit p on (nothingRaised s))) t := by
  have hreaches : Reaches (nothingRaised s) (settle (setInhibit p on (nothingRaised s))) :=
    (modFiring_reaches _ _).andThen settle_reaches
  have hblock : inhibitBlock p (if on then 1 else 0) (nothingRaised s) =
      (settle (setInhibit p on (nothingRaised s)),
        .ok (inhibitFields (settle (setInhibit p on (nothingRaised s))))) := by
    cases on <;> rfl
  obtain ⟨t, ht, hkeeps, hanswered, htaken⟩ := command_taken (l := [.firing, .valves])
    (.inhibit p (if on then 1 else 0)) p hp hblock (hreaches.1.mono (by decide)) (by decide) (by decide)
  refine ⟨t, ht, hkeeps.mono (by decide), ?_, ?_, htaken⟩
  · rw [htaken.valves]
    exact hreaches.2
  · rw [hanswered, inhibitFields, inhibitFields, htaken.firing]

/-- A withdrawn permission ends FIRING (R126). -/
theorem settle_obstructed (hs : s.firing.state = .firing) (h : unobstructed s = false) :
    (settle s).firing.burner = false ∧ (settle s).firing.minOff = startTimer s.settings.firing.minOff := by
  obtain ⟨p, k, -, houtputs, -⟩ := stop_shows (mustStop_of_obstructed h) (.inr h)
  rw [← settle_of_firing hs (mustStop_of_obstructed h)] at houtputs
  simp only [Firing.outputs, Prod.mk.injEq] at houtputs
  obtain ⟨hburner, -, -, -, -, -, -, hminOff⟩ := houtputs
  exact ⟨hburner, hminOff⟩

/-- The withdrawn permission with an overrun setting of 0 stops the pump after the burner (R121, R128). -/
theorem settle_obstructed_ends (hs : s.firing.state = .firing) (h : unobstructed s = false)
    (hoverrun : s.settings.firing.overrun = 0) (hburner : s.firing.burner = true) (hpump : s.firing.pump = true) :
    (settle s).firing.pump = false ∧ (settle s).raised = s.raised ++ [⟨.burnerOff, 0⟩, ⟨.pumpOff, 0⟩] := by
  have hstop := mustStop_of_obstructed h
  obtain ⟨-, hraised, houtputs⟩ := stop_ends hs hstop hoverrun (runOnEnded_barred hstop (.inr h))
  simp only [Firing.outputs, Prod.mk.injEq] at houtputs
  obtain ⟨-, hoff, -⟩ := houtputs
  refine ⟨hoff, ?_⟩
  rw [hraised, hburner, hpump, List.append_assoc]
  rfl

/-- A cleared inhibit lets BLOCKED fire where it was the last to withhold it (R120, R122). -/
theorem setInhibit_fires {p : Port} {on : Bool} (hs : s.firing.state = .blocked) (hany : s.firing.anyCall = true)
    (hpath : s.firing.pathExists = true) (hinterlock : s.inputs.interlock = true)
    (hstatus : s.firing.flowStatus ≠ .invalid) (hminOff : s.firing.minOff = none)
    (htext : (settle (setInhibit p on s)).firing.inhibitText = false)
    (hwire : (settle (setInhibit p on s)).firing.inhibitWire = false) :
    (settle (setInhibit p on s)).firing.state = .firing ∧ (settle (setInhibit p on s)).firing.burner = true := by
  obtain ⟨houtputs, hdemand, hreport, hpath', -⟩ := setInhibit_spec p on s
  obtain ⟨hflag, hflag'⟩ := setInhibit_flags p on s
  obtain ⟨hkept, hkept'⟩ := inhibited_flags p on s
  simp only [Firing.outputs, Prod.mk.injEq] at houtputs
  obtain ⟨-, -, hcall, hstate, -, -, hstatus', hminOff'⟩ := houtputs
  have hany' : (setInhibit p on s).firing.anyCall = true := by
    rw [anyCall_iff, CallPresent, hdemand, hreport, hcall, ← CallPresent, ← anyCall_iff]
    exact hany
  have hexists : (setInhibit p on s).firing.pathExists = true := by
    rw [pathExists_iff, PathPresent, hreport, hpath', ← PathPresent, ← pathExists_iff]
    exact hpath
  have hselected : selection (setInhibit p on s) = .firing :=
    settle_of_selected hany' hexists hinterlock (hflag.trans (hkept.symm.trans htext))
      (hflag'.trans (hkept'.symm.trans hwire)) (by rwa [hstatus']) (hminOff'.trans hminOff)
  rw [settle_of_blocked (hstate.trans hs) hselected]
  have hfired := (enterFiring_shows (setInhibit p on s)).2
  simp only [Firing.outputs, Prod.mk.injEq] at hfired
  obtain ⟨hburner, -, -, hfiring, -⟩ := hfired
  exact ⟨hfiring, hburner⟩

theorem setInhibit_told (p : Port) (on : Bool) (h : s.firing.DiverterFollows) : Told s (settle (setInhibit p on s)) := by
  have hfollows : (setInhibit p on s).firing.DiverterFollows := by cases p <;> exact h
  cases p <;> exact settle_told hfollows

/-! ## The interlock (R119, R126) -/

theorem onEdge_reaches {block : State → State} (old new : Bool) (h : ∀ u, Reaches u (block u)) (u : State) :
    Reaches u (onEdge old new block u) := by
  unfold onEdge
  split
  · exact .refl u
  · exact h u

theorem exec_interlockEdge (on : Bool) (hp : s.powered = true) :
    ∃ t, exec (.interlockEdge on) s = .next t ∧ Keeps [.inputs, .firing, .valves, .links] s t ∧
      OnlyHoldWritten s.valves t.valves ∧ t.inputs = { s.inputs with interlock := on } ∧
      Taken s (onEdge s.inputs.interlock on settle (nothingRaised (setInterlock on s))) t := by
  have hreaches := onEdge_reaches s.inputs.interlock on settle_reaches (nothingRaised (setInterlock on s))
  obtain ⟨t, ht, hkeeps, htaken⟩ := event_taken (s := setInterlock on s) (block := onEdge s.inputs.interlock on settle)
    (l := [.firing, .valves]) hp (hreaches.1.mono (by decide)) (by decide) (by decide)
  have hlevel : Keeps [.inputs] s (setInterlock on s) := by
    intro part hpart
    cases part <;> first | rfl | (simp at hpart)
  refine ⟨t, ?_, (hlevel.mono (by decide)).trans (hkeeps.mono (by decide)), ?_, hkeeps .inputs (by decide),
    htaken.same, htaken.links.trans (takeEvents_links_congr _ rfl rfl)⟩
  · show lineEvent (setInterlock on) (onEdge s.inputs.interlock on settle) s = _
    rw [lineEvent_eq_event hp hp, ht]
  · rw [htaken.valves]
    exact hreaches.2

theorem setInterlock_obstructs (s : State) : unobstructed (setInterlock false s) = false := by
  simp [unobstructed, setInterlock]

/-- A closing interlock lets BLOCKED fire where it was the last to withhold it, the pump before the burner (R121). -/
theorem setInterlock_fires (hs : s.firing.state = .blocked) (hany : s.firing.anyCall = true)
    (hpath : s.firing.pathExists = true) (htext : s.firing.inhibitText = false) (hwire : s.firing.inhibitWire = false)
    (hstatus : s.firing.flowStatus ≠ .invalid) (hminOff : s.firing.minOff = none) :
    settle (nothingRaised (setInterlock true s)) = enterFiring (nothingRaised (setInterlock true s)) :=
  settle_of_blocked hs (settle_of_selected hany hpath rfl htext hwire hstatus hminOff)

/-- INHIBIT, apart from its refusal (R120). -/
theorem inhibit_settles (p : Port) (on : Bool) (hp : s.powered = true) :
    ∃ t, exec (.inhibit p (if on then 1 else 0)) s = .next t ∧
      Keeps (responseParts ++ [.firing, .valves, .links]) s t ∧ OnlyHoldWritten s.valves t.valves ∧
      t.firing.inhibitText = (if p = .text then on else s.firing.inhibitText) ∧
      t.firing.inhibitWire = (if p = .wire then on else s.firing.inhibitWire) ∧
      t.answered = some (p, .ok [.word (bit t.firing.inhibitText), .word (bit t.firing.inhibitWire)]) ∧
      (on = true → t.firing.state ≠ .firing ∧ (s.firing.state = .firing → t.firing.burner = false)) ∧
      (on = false → s.firing.state = .blocked → s.firing.anyCall = true → s.firing.pathExists = true →
        s.inputs.interlock = true → s.firing.flowStatus ≠ .invalid → s.firing.minOff = none →
        t.firing.inhibitText = false → t.firing.inhibitWire = false →
          t.firing.state = .firing ∧ t.firing.burner = true) ∧
      (s.firing.state = .lockout → t.firing.state = .lockout ∧ t.firing.lockout = s.firing.lockout ∧
        t.firing.pump = s.firing.pump ∧ t.firing.burner = s.firing.burner ∧ t.firing.diverter = s.firing.diverter ∧
        t.links = s.links ∧ t.valves = s.valves) ∧
      (CallKept s → ChangesTaken s t) ∧
      (on = true → s.firing.state = .firing → s.firing.burner = true → s.firing.pump = true →
        s.settings.firing.overrun = 0 →
          t.firing.pump = false ∧ t.links = (takeEvent ⟨.pumpOff, 0⟩ (takeEvent ⟨.burnerOff, 0⟩ s)).links) := by
  obtain ⟨t, ht, hkeeps, hvalves, hanswered, htaken⟩ := exec_inhibit p on hp
  obtain ⟨houtputs, -, -, -, hdiverter, -⟩ := setInhibit_spec p on (nothingRaised s)
  simp only [Firing.outputs, Prod.mk.injEq] at houtputs
  obtain ⟨hburner, hpump, -, hstate, hlockout, -⟩ := houtputs
  obtain ⟨htext, hwire⟩ := inhibited_flags p on (nothingRaised s)
  rw [← htaken.firing] at htext hwire
  refine ⟨t, ht, hkeeps, hvalves, htext, hwire, hanswered, fun hon => ?_, fun _ hs hany hpath hinterlock hstatus hminOff => ?_,
    fun hs => ?_, fun hkept => htaken.changes (setInhibit_told p on hkept.diverter), fun hon hs hlit hpumped hoverrun => ?_⟩
  · subst hon
    have hfree := setInhibit_obstructs p (nothingRaised s)
    rw [htaken.firing]
    exact ⟨settle_ne_firing hfree, fun hs => (settle_obstructed (hstate.trans hs) hfree).1⟩
  · rw [htaken.firing]
    exact setInhibit_fires hs hany hpath hinterlock hstatus hminOff
  · have hsame : settle (setInhibit p on (nothingRaised s)) = setInhibit p on (nothingRaised s) :=
      settle_of_lockout (hstate.trans hs)
    have hraised : (setInhibit p on (nothingRaised s)).raised = [] := rfl
    rw [htaken.firing, htaken.valves, htaken.links, hsame, hraised]
    exact ⟨hstate.trans hs, hlockout, hpump, hburner, hdiverter, rfl, rfl⟩
  · subst hon
    obtain ⟨hoff, hraised⟩ := settle_obstructed_ends (hstate.trans hs) (setInhibit_obstructs p (nothingRaised s)) hoverrun
      (hburner.trans hlit) (hpump.trans hpumped)
    rw [htaken.firing, htaken.links, hraised]
    exact ⟨hoff, rfl⟩

/-- Settles O39: both rows settle a state with another permission. -/
theorem permissionWithdrawalEndsFiring : Obligations.PermissionWithdrawalEndsFiring := by
  intro p on s hp
  refine ⟨inhibit_settles p on hp, fun v hzero hone => ?_, ?_⟩
  · refine refused_powered (.inhibit p v) p (inhibitBlock p v) .range s hp ?_
    have hwithin : ¬within 0 1 v = true := by
      simp only [within, Bool.and_eq_true, decide_eq_true_eq]
      omega
    rw [inhibitBlock, if_neg hwithin]
  · obtain ⟨t, ht, hkeeps, hvalves, hinputs, htaken⟩ := exec_interlockEdge on hp
    have hedge : s.inputs.interlock = !on → onEdge s.inputs.interlock on settle = settle := fun h => onEdge_of_new h _
    refine ⟨t, ht, hkeeps, hvalves, hinputs, fun hs hclosed hopens => ?_,
      fun hs hopened hcloses hany hpath htext hwire hstatus hminOff => ?_, fun hs => ?_, fun hkept => htaken.changes ?_⟩
    · subst hopens
      let u : State := nothingRaised (setInterlock false s)
      have hfree : unobstructed u = false := setInterlock_obstructs (nothingRaised s)
      have hstop := mustStop_of_obstructed hfree
      have hsettled : t.firing = (settle u).firing ∧ t.valves = (settle u).valves := by
        rw [htaken.firing, htaken.valves, hedge hclosed]
        exact ⟨rfl, rfl⟩
      obtain ⟨hburner, hminOff⟩ := settle_obstructed (s := u) hs hfree
      rw [hsettled.1]
      refine ⟨settle_ne_firing hfree, hburner, fun hpos => ?_, fun hpos => ?_⟩
      · rw [hminOff]
        exact if_neg (Nat.ne_of_gt hpos)
      · obtain ⟨-, houtputs, hoverrun⟩ := runOn_shows (s := u)
        simp only [Firing.outputs, Prod.mk.injEq] at houtputs
        obtain ⟨-, hpump, -, hstate, -⟩ := houtputs
        have hruns : settle u = runOn u := settle_runsOn hs hstop hpos
        rw [hruns]
        refine ⟨hstate, hpump, hoverrun.trans (if_neg (Nat.ne_of_gt hpos)), fun hbypass => ?_⟩
        refine (runOn_inForce (s := u) hbypass).congr ?_ ?_
        · rw [hsettled.1, hruns]
        · rw [hsettled.2, hruns]
    · subst hcloses
      have hsettled : onEdge s.inputs.interlock true settle (nothingRaised (setInterlock true s)) =
          enterFiring (nothingRaised (setInterlock true s)) := by
        rw [hedge hopened]
        exact setInterlock_fires hs hany hpath htext hwire hstatus hminOff
      obtain ⟨hraised, houtputs⟩ := enterFiring_shows (nothingRaised (setInterlock true s))
      simp only [Firing.outputs, Prod.mk.injEq] at houtputs
      obtain ⟨hburner, hpump, -, hstate, -⟩ := houtputs
      rw [htaken.firing, htaken.links, hsettled]
      refine ⟨hstate, hburner, hpump, fun hoff hoff' => ?_⟩
      have hevents : (enterFiring (nothingRaised (setInterlock true s))).raised = [⟨.pumpOn, 0⟩, ⟨.burnerOn, 0⟩] := by
        have hburner' : (nothingRaised (setInterlock true s)).firing.burner = false := hoff
        have hpump' : (nothingRaised (setInterlock true s)).firing.pump = false := hoff'
        rw [hraised, hburner', hpump']
        rfl
      rw [hevents]
      rfl
    · have hsame : onEdge s.inputs.interlock on settle (nothingRaised (setInterlock on s)) =
          nothingRaised (setInterlock on s) := by
        unfold onEdge
        split
        · rfl
        · exact settle_of_lockout hs
      have hraised : (nothingRaised (setInterlock on s)).raised = [] := rfl
      rw [htaken.firing, htaken.links, htaken.valves, hsame, hraised]
      exact ⟨rfl, rfl, rfl⟩
    · unfold onEdge
      split
      · exact Told.refl (nothingRaised s)
      · exact settle_told (s := nothingRaised (setInterlock on s)) hkept.diverter

end
end Sys2Proof.Machine

namespace Sys2Proof.Machine

/-! ## A persistent boiler fault (R133, R134) -/

section
variable {s t u : State} (reason : LockoutReason)

/-- The timers and the targets that LOCKOUT stops, and the fault-persistence timer. -/
def Firing.running (f : Firing) : Option Nat × Option Nat × Option Nat × Option Nat × Option Int × Int × Option Nat :=
  (f.minOn, f.overrun, f.pathWait, f.flameWait, f.flowTarget, f.code, f.faultTimer)

theorem releaseAnyHold_running (s : State) : (releaseAnyHold s).firing.running = s.firing.running := by
  have hdiverted : ∀ u, (setDiverter u).firing.running = u.firing.running := fun u => by
    unfold setDiverter
    dsimp only
    split <;> rfl
  unfold releaseAnyHold
  split
  · exact hdiverted _
  · rfl

/-- LOCKOUT stops every timer of the controller but its min-off and fault-persistence timers, and takes the target away
(R134). -/
theorem enterLockout_running (s : State) :
    (enterLockout reason s).firing.running = (none, none, none, none, none, 0, s.firing.faultTimer) := by
  have hheld : ∀ u, (holdForLockout u).firing.running = u.firing.running := fun u => by
    unfold holdForLockout
    split
    · rfl
    · exact releaseAnyHold_running u
  have hpump : ∀ on u, (setPump on u).firing.running = u.firing.running := fun on u => by
    rw [(setPump_spec u on).1]
    rfl
  have hfault : (firingLeft s).firing.faultTimer = s.firing.faultTimer := by
    unfold firingLeft
    split
    · have hmemory := leaveFiring_memory s
      simp only [Firing.memory, Prod.mk.injEq] at hmemory
      obtain ⟨-, -, hfault, -⟩ := hmemory
      exact hfault
    · rfl
  rw [enterLockout_eq, ← hfault]
  exact (hheld _).trans (hpump _ _)

/-- The lines stopped and the pump as the flow has it, before LOCKOUT fixes or releases its hold set (R134). -/
def lockoutPumped (s : State) : State :=
  setPump (flowHot (lockoutEntered reason (firingLeft s))) (lockoutEntered reason (firingLeft s))

theorem enterLockout_held (s : State) :
    (enterLockout reason s).firing = (holdForLockout (lockoutPumped reason s)).firing ∧
      (enterLockout reason s).valves = (holdForLockout (lockoutPumped reason s)).valves := by
  have htold : ∀ u, (postBoth .lockout (raise .lockoutOn u)).firing = u.firing ∧
      (postBoth .lockout (raise .lockoutOn u)).valves = u.valves := fun _ => ⟨rfl, rfl⟩
  rw [enterLockout_eq]
  exact htold _

/-- The pump, the diverter, the channels and the settings that LOCKOUT's hold set looks at (R129, R134). -/
theorem lockoutPumped_spec (s : State) : (lockoutPumped reason s).firing.pump = flowHot s ∧
    (lockoutPumped reason s).firing.diverter = s.firing.diverter ∧ (lockoutPumped reason s).valves = s.valves ∧
    (lockoutPumped reason s).settings = s.settings ∧
    (lockoutPumped reason s).firing.minOff = (firingLeft s).firing.minOff := by
  have hleft : (firingLeft s).firing.diverter = s.firing.diverter ∧ (firingLeft s).valves = s.valves := by
    unfold firingLeft
    split
    · have hgrounds := setBurner_grounds false s
      simp only [Firing.grounds, Prod.mk.injEq] at hgrounds
      obtain ⟨-, -, -, -, -, -, -, hdiverter, -⟩ := hgrounds
      exact ⟨hdiverter, runningOn_valves s⟩
    · exact ⟨rfl, rfl⟩
  obtain ⟨-, m, houtputs⟩ := firingLeft_shows s
  simp only [Firing.outputs, Prod.mk.injEq] at houtputs
  obtain ⟨-, -, -, -, -, hflow, hstatus, -⟩ := houtputs
  have hsettings : (firingLeft s).settings = s.settings := (firingLeft_reaches s).1 .settings (by decide)
  have hhot : flowHot (lockoutEntered reason (firingLeft s)) = flowHot s :=
    flowHot_congr (t := lockoutEntered reason (firingLeft s)) hsettings hflow hstatus
  have hreaches := setPump_reaches (flowHot s) (lockoutEntered reason (firingLeft s))
  have hvalves : (setPump (flowHot s) (lockoutEntered reason (firingLeft s))).valves = (firingLeft s).valves := by
    unfold setPump
    split <;> rfl
  have hkept : (setPump (flowHot s) (lockoutEntered reason (firingLeft s))).settings = (firingLeft s).settings :=
    hreaches.1 .settings (by decide)
  rw [lockoutPumped, hhot, (setPump_spec _ _).1]
  exact ⟨rfl, hleft.1, hvalves.trans hleft.2, hkept.trans hsettings, rfl⟩

/-- LOCKOUT with the pump ON and without a bypass has the hold set of the channels and the diverter as they stand (R129). -/
theorem enterLockout_inForce (hpump : flowHot s = true) (hbypass : s.settings.firing.bypass = false) :
    HoldInForce (enterLockout reason s)
      (FixedHold s.settings.firing.fallbackChannel s.valves.channels s.firing.diverter) s.firing.diverter := by
  obtain ⟨hpumped, hdiverter, hvalves, hsettings, -⟩ := lockoutPumped_spec reason s
  obtain ⟨hfiring, hheld⟩ := enterLockout_held reason s
  have hfixes : holdForLockout (lockoutPumped reason s) = fixHold (lockoutPumped reason s) :=
    if_pos (by simp [hpumped, hpump, hsettings, hbypass])
  have hfixed := fixHold_inForce (lockoutPumped reason s)
  rw [hsettings, hvalves, hdiverter] at hfixed
  exact hfixed.congr (by rw [hfiring, hfixes]) (by rw [hheld, hfixes])

/-- LOCKOUT with the pump OFF or with a bypass has no hold set (R134). -/
theorem enterLockout_free (h : flowHot s = false ∨ s.settings.firing.bypass = true) :
    (enterLockout reason s).firing.hold = none := by
  obtain ⟨hpumped, -, -, hsettings, -⟩ := lockoutPumped_spec reason s
  have hreleases : holdForLockout (lockoutPumped reason s) = releaseAnyHold (lockoutPumped reason s) :=
    if_neg (by rcases h with h | h <;> simp [hpumped, hsettings, h])
  rw [(enterLockout_held reason s).1, hreleases]
  exact releaseAnyHold_hold _

/-- LOCKOUT entered from FIRING starts the min-off timer (R127). -/
theorem enterLockout_minOff (hs : s.firing.state = .firing) :
    (enterLockout reason s).firing.minOff = startTimer s.settings.firing.minOff := by
  obtain ⟨-, -, -, -, hminOff⟩ := lockoutPumped_spec reason s
  have hheld := (holdForLockout_silent (lockoutPumped reason s)).outputs
  simp only [Firing.outputs, Prod.mk.injEq] at hheld
  obtain ⟨-, -, -, -, -, -, -, hkept⟩ := hheld
  have hleft : firingLeft s = leaveFiring s := if_pos hs
  rw [(enterLockout_held reason s).1, hkept, hminOff, hleft]
  rfl

theorem enterLockout_tells (hs : s.firing.state ≠ .lockout) : Told s (enterLockout reason s) := by
  obtain ⟨hraised, ⟨m, houtputs⟩, -⟩ := enterLockout_spec s reason
  rw [told_iff houtputs, hraised]
  simp [hs, lineEvents]

/-- The state as the persistent fault is taken: its timer stopped (R133). -/
def faultTimed (s : State) : State := modFiring (fun f => { f with faultTimer := none }) (nothingRaised s)

theorem faultPersistenceBlock_of_running (h : s.firing.faultTimer.isSome = true) :
    faultPersistenceBlock (nothingRaised s) = lockOut .boilerFault (faultTimed s) := if_pos h

/-- A fault that persists outside LOCKOUT (R133, R134). -/
theorem exec_faultPersistence (hp : s.powered = true) (hruns : s.firing.faultTimer.isSome = true)
    (hs : s.firing.state ≠ .lockout) : ∃ t, exec .faultPersistenceExpiry s = .next t ∧
      Keeps [.firing, .valves, .links, .notices] s t ∧ OnlyHoldWritten s.valves t.valves ∧
      Taken s (enterLockout .boilerFault (faultTimed s)) t := by
  have hblock : faultPersistenceBlock (nothingRaised s) = enterLockout .boilerFault (faultTimed s) :=
    (faultPersistenceBlock_of_running hruns).trans (if_neg hs)
  have hreaches : ReachesPosting (nothingRaised s) (enterLockout .boilerFault (faultTimed s)) :=
    ((modFiring_reaches _ (nothingRaised s)).posting).trans (enterLockout_reaches _ _)
  obtain ⟨t, ht, hkeeps, htaken⟩ := event_taken (block := faultPersistenceBlock) (l := [.firing, .valves, .notices]) hp
    (by rw [hblock]; exact hreaches.1.mono (by decide)) (by decide) (by decide)
  rw [hblock] at htaken
  exact ⟨t, ht, hkeeps.mono (by decide), by rw [htaken.valves]; exact hreaches.2, htaken⟩

/-- Settles O43: outside LOCKOUT the row enters it, and in LOCKOUT it adds the reason. -/
theorem persistentFaultLocksOut : Obligations.PersistentFaultLocksOut := by
  intro s hp hruns
  refine ⟨fun hs => ?_, fun l hl hs hreason => ?_⟩
  · obtain ⟨t, ht, hkeeps, hvalves, htaken⟩ := exec_faultPersistence hp hruns hs
    obtain ⟨-, ⟨m, houtputs⟩, hnotices⟩ := enterLockout_spec (faultTimed s) .boilerFault
    have hrunning := enterLockout_running .boilerFault (faultTimed s)
    rw [← htaken.firing] at houtputs hrunning
    simp only [Firing.outputs, Prod.mk.injEq] at houtputs
    simp only [Firing.running, Prod.mk.injEq] at hrunning
    obtain ⟨hburner, hpump, -, hstate, hrecord, -⟩ := houtputs
    obtain ⟨hminOn, hoverrun, hwait, hflame, htarget, hcode, hfault⟩ := hrunning
    refine ⟨t, ht, hkeeps, hvalves, hstate, fun hfiring => ⟨?_, fun hpos => ?_⟩, htarget, hcode, ?_, hfault, hminOn,
      hoverrun, hwait, hflame, fun f hf hknown => ?_, fun hinvalid => ?_, fun hon hbypass => ?_, fun hoff => ?_, fun p => ?_,
      htaken.changes (enterLockout_tells (s := faultTimed s) .boilerFault hs)⟩
    · rw [hburner]
      exact if_pos hfiring
    · rw [htaken.firing, enterLockout_minOff (s := faultTimed s) .boilerFault hfiring]
      exact if_neg (Nat.ne_of_gt hpos)
    · have hstatus : (faultTimed s).firing.flowStatus = s.firing.flowStatus := rfl
      have hflow : (faultTimed s).firing.flow = s.firing.flow := rfl
      rw [hrecord, lockoutRecord, Firing.flowKnown, hstatus, hflow]
      by_cases hinvalid : s.firing.flowStatus = .invalid
      · rw [if_pos hinvalid, if_neg (by simp [hinvalid])]
        rfl
      · rw [if_neg hinvalid, if_pos (by simp [hinvalid])]
        rfl
    · rw [hpump, Bool.eq_iff_iff, flowHot_iff, decide_eq_true_eq]
      have hflow : (faultTimed s).firing.flow = some f := hf
      simp only [hflow, Option.mem_some_iff, exists_eq_left']
      exact and_iff_right hknown
    · rw [hpump, Bool.eq_false_iff, ne_eq, flowHot_iff]
      exact fun hhot => hhot.1 hinvalid
    · have hheld := enterLockout_inForce (s := faultTimed s) .boilerFault (hpump.symm.trans hon) hbypass
      exact hheld.congr (by rw [htaken.firing]) (by rw [htaken.valves])
    · rw [htaken.firing]
      exact enterLockout_free (s := faultTimed s) .boilerFault (hoff.imp_left hpump.symm.trans)
    · rw [htaken.notices, hnotices, PortNotices.take_kinds_getLsbD]
      rfl
  · refine ⟨_, event_of_posting (block := faultPersistenceBlock) (n := .lockout)
      (f := fun f => { f with faultTimer := none, lockout := some { l with boilerFault := true } }) hp ?_,
      ((modFiring_keeps _ _).mono (by decide)).trans ((postBoth_keeps _ _).mono (by decide)), rfl, fun p => ?_⟩
    · have hs' : (faultTimed s).firing.state = .lockout := hs
      have hl' : (faultTimed s).firing.lockout = some l := hl
      rw [faultPersistenceBlock_of_running hruns, lockOut, if_pos hs', hl']
      exact if_neg (by simp [Lockout.has, hreason])
    · rw [postBoth_notices_of, PortNotices.take_kinds_getLsbD]
      rfl

end
end Sys2Proof.Machine

namespace Sys2Proof.Machine

/-! ## The timed call, the priority period and the diverter (R138 to R140) -/

section
variable {s t u : State}

/-- An event whose block changes the controller's record alone raises nothing. -/
theorem event_of_quiet {block : State → State} {f : Firing → Firing} (hp : s.powered = true)
    (hblock : block (nothingRaised s) = modFiring f (nothingRaised s)) : event block s = .next (modFiring f s) := by
  rw [event_powered _ _ hp, withMatrix_of_quiet (by rw [hblock]; rfl), hblock]
  rfl

/-- An event that is a passage of the controller. -/
theorem event_of_passage {block : State → State} (hp : s.powered = true)
    (h : Reaches (nothingRaised s) (block (nothingRaised s))) : ∃ t, event block s = .next t ∧
      Keeps [.firing, .valves, .links] s t ∧ OnlyHoldWritten s.valves t.valves ∧
      Taken s (block (nothingRaised s)) t := by
  obtain ⟨t, ht, hkeeps, htaken⟩ := event_taken (l := [.firing, .valves]) hp (h.1.mono (by decide)) (by decide)
    (by decide)
  exact ⟨t, ht, hkeeps.mono (by decide), by rw [htaken.valves]; exact h.2, htaken⟩

/-- The state as the end of the timed call is taken (R138). -/
def timedOut (s : State) : State := callForgotten (nothingRaised s)

theorem timedCallBlock_of_running (h : s.firing.timedCall.isSome = true) :
    timedCallBlock (nothingRaised s) = deriveCall (timedOut s) := if_pos h

/-- Without its timed part the call is the mode's own condition (R137). -/
theorem timedOut_wanted (s : State) :
    callWanted (timedOut s) = (s.settings.hotWater.mode != .off && ownCondition s) := by
  rw [callWanted, show (timedOut s).firing.timedCall = none from rfl, Option.isSome_none, Bool.or_false]
  rfl

/-- A call that ends without a hold set turns the diverter OFF, and what settles after it leaves it so (R139). -/
theorem endCall_off (h : s.firing.hold = none) : (settle (endCall s)).firing.DiverterOff := by
  have hheld : (modFiring (fun f => { f with call := false, priority := none }) (raise .dhwOff s)).firing.diverterHeld =
      false := by
    show (s.firing.hold.map HoldSet.diverter).getD false = false
    rw [h]
    rfl
  exact (settle_hotWater _).off ((formFlow_hotWater _).off (setDiverter_off _ rfl hheld))

/-- The flow target and the code are all that forming them changes. -/
theorem formFlow_firing (s : State) :
    ∃ target code, (formFlow s).firing = { s.firing with flowTarget := target, code := code } := by
  unfold formFlow
  split
  · split
    · exact ⟨_, _, rfl⟩
    · exact ⟨_, _, rfl⟩
  · exact ⟨_, _, rfl⟩

/-- The hot-water path as the diverter has stood ON for its open time (R139). -/
def pathOpened (s : State) : State :=
  modFiring (fun f => { f with dhwPath := true, diverterOn := max f.diverterOn s.settings.hotWater.openTime })
    (nothingRaised s)

theorem diverterOpenBlock_of_open (hon : s.firing.diverter = true) (hpath : s.firing.dhwPath = false) :
    diverterOpenBlock (nothingRaised s) = settle (pathOpened s) := if_pos ⟨hon, hpath⟩

/-- The opened path lets WAIT_PATH fire with the call where firing is permitted (R122). -/
theorem pathOpened_fires (hcall : s.firing.call = true) (hs : s.firing.state = .waitPath) (hpermitted : permitted s = true) :
    (settle (pathOpened s)).firing.state = .firing ∧ (settle (pathOpened s)).firing.burner = true := by
  have hselected : selection (pathOpened s) = .firing :=
    (selection_eq_firing_iff _).2 ⟨by simp [pathOpened, Firing.anyCall, nothingRaised, setRaised, hcall],
      by simp [pathOpened, Firing.pathExists], hpermitted⟩
  have hfired := (enterFiring_shows (pathOpened s)).2
  simp only [Firing.outputs, Prod.mk.injEq] at hfired
  obtain ⟨hburner, -, -, hstate, -⟩ := hfired
  rw [settle_of_quiet (s := pathOpened s) (.inr (.inl hs)), select, if_pos hselected]
  exact ⟨hstate, hburner⟩

/-- Settles O45: the call is derived, the period ends with the flow target formed again, and the opened path settles. -/
theorem hotWaterTimersExpire : Obligations.HotWaterTimersExpire := by
  intro s hp
  refine ⟨fun hruns hown hcall hhold => ?_, fun hruns hmode hown hcall => ?_, fun hruns hmax => ?_, fun hon hpath => ?_⟩
  · have hblock := timedCallBlock_of_running hruns
    have hreaches : Reaches (nothingRaised s) (deriveCall (timedOut s)) :=
      (modFiring_reaches _ (nothingRaised s)).andThen deriveCall_reaches
    obtain ⟨t, ht, hkeeps, hvalves, htaken⟩ := event_of_passage (block := timedCallBlock) hp (by rw [hblock]; exact hreaches)
    rw [hblock] at htaken
    have hwanted : callWanted (timedOut s) = false := by rw [timedOut_wanted, hown, Bool.and_false]
    have hended : deriveCall (timedOut s) = settle (endCall (timedOut s)) := deriveCall_of_end hwanted hcall
    have htold : Told (nothingRaised s) (deriveCall (timedOut s)) := deriveCall_told (timedOut s)
    refine ⟨t, ht, hkeeps, hvalves, ?_, ?_, ?_, ?_, htaken.changes htold⟩ <;> rw [htaken.firing]
    · exact deriveCall_timedCall (timedOut s)
    · rw [deriveCall_call, hwanted]
    · rw [hended, (settle_hotWater _).priority, endCall_priority]
    · rw [hended]
      exact (endCall_off (s := timedOut s) hhold).diverter
  · have hwanted : callWanted (timedOut s) = (timedOut s).firing.call := by
      rw [timedOut_wanted, hown, show (timedOut s).firing.call = true from hcall]
      simp [hmode]
    exact ⟨_, event_of_quiet (block := timedCallBlock) (f := fun f => { f with timedCall := none }) hp
      ((timedCallBlock_of_running hruns).trans (deriveCall_of_same hwanted)), modFiring_keeps _ _, rfl⟩
  · have hblock : priorityBlock (nothingRaised s) = endPriority (nothingRaised s) := if_pos ⟨hruns, hmax⟩
    obtain ⟨t, ht, hkeeps, hafter⟩ := event_of_keeps (block := priorityBlock) hp
      (by rw [hblock]; exact endPriority_keeps (nothingRaised s)) (by decide)
    have hfiring : t.firing = (endPriority (nothingRaised s)).firing := by rw [hafter .firing (by decide), hblock]
    obtain ⟨target, code, hformed⟩ := formFlow_firing (modFiring (fun f => { f with priority := none }) (nothingRaised s))
    rw [show formFlow _ = endPriority (nothingRaised s) from rfl, ← hfiring] at hformed
    have hflow : ∀ h, s.firing.heating = some h → s.firing.state = .firing → s.firing.call = true →
        t.firing.flowTarget = some (max h s.settings.hotWater.target) := fun h hheating hs hcall => by
      rw [hfiring, endPriority, formFlow_of_firing (s := modFiring (fun f => { f with priority := none }) (nothingRaised s))
        (target := max h s.settings.hotWater.target) hs hheating (by simp [nothingRaised, setRaised, hcall])]
    refine ⟨t, ht, hkeeps, ?_, ?_, ?_, ?_, ?_, ?_, hflow⟩ <;> rw [hformed] <;> rfl
  · have hblock := diverterOpenBlock_of_open hon hpath
    have hreaches : Reaches (nothingRaised s) (settle (pathOpened s)) :=
      (modFiring_reaches _ (nothingRaised s)).andThen settle_reaches
    obtain ⟨t, ht, hkeeps, hvalves, htaken⟩ := event_of_passage (block := diverterOpenBlock) hp
      (by rw [hblock]; exact hreaches)
    rw [hblock] at htaken
    refine ⟨t, ht, hkeeps, hvalves, fun hcall => ?_, fun hcall hs hpermitted => ?_, fun hkept => htaken.changes ?_⟩
    · obtain ⟨hdiverter, hopened⟩ := (settle_stands (pathOpened s)).path hcall hon
      rw [htaken.firing]
      exact ⟨hopened, hdiverter⟩
    · rw [htaken.firing]
      exact pathOpened_fires hcall hs hpermitted
    · have hfollows : (pathOpened s).firing.DiverterFollows := hkept.diverter
      exact settle_told hfollows

end
end Sys2Proof.Machine

namespace Sys2Proof.Machine

/-! ## What entry to FIRING sets (R124) -/

section
variable {s t u : State}

/-- The timers and the ceiling that entry to FIRING sets. -/
def Firing.entry (f : Firing) : Option Nat × Option Nat × Option Nat × Option Int :=
  (f.minOn, f.flameWait, f.overrun, f.ceiling)

theorem releaseAnyHold_entry (s : State) : (releaseAnyHold s).firing.entry = s.firing.entry := by
  have hdiverted : ∀ u, (setDiverter u).firing.entry = u.firing.entry := fun u => by
    unfold setDiverter
    dsimp only
    split <;> rfl
  unfold releaseAnyHold
  split
  · exact hdiverted _
  · rfl

theorem formHeating_entry (s : State) : (formHeating s).firing.entry = s.firing.entry := by
  have hflow : ∀ u, (formFlow u).firing.entry = u.firing.entry := fun u => by
    obtain ⟨target, code, hformed⟩ := formFlow_firing u
    rw [hformed]
    rfl
  unfold formHeating
  split
  · exact hflow _
  · rfl

theorem releaseAnyHold_latest (s : State) :
    (releaseAnyHold s).valves.latestHold = if s.firing.hold.isSome then 0 else s.valves.latestHold := by
  unfold releaseAnyHold
  split
  · exact (releaseHold_hold s).2
  · rfl

theorem setPump_valves (on : Bool) (s : State) : (setPump on s).valves = s.valves := by
  unfold setPump
  split <;> rfl

theorem setBurner_valves (on : Bool) (s : State) : (setBurner on s).valves = s.valves := by
  unfold setBurner
  split <;> rfl

/-- FIRING before its hold set is released has the hold set and the driver of before. -/
theorem exists_entered_holding (s : State) : ∃ u, enterFiring s = releaseAnyHold u ∧
    u.firing.grounds = s.firing.grounds ∧ u.valves = s.valves :=
  ⟨_, rfl, (formHeating_grounds _).trans ((setBurner_grounds _ _).trans (setPump_grounds _ _)),
    (formHeating_keeps _ .valves (by decide)).trans ((setBurner_valves _ _).trans (setPump_valves _ _))⟩

/-- What entry to FIRING sets, beside the lines and the targets (R124). -/
theorem enterFiring_spec (s : State) :
    (enterFiring s).firing.entry = (startTimer s.settings.firing.minOn, if s.inputs.flame then none else some 0, none,
        some (s.settings.firing.fmin + 200)) ∧
      (enterFiring s).firing.hold = none ∧
      (enterFiring s).valves.latestHold = (if s.firing.hold.isSome then 0 else s.valves.latestHold) := by
  have hlines := (setPump_reaches true s).andThen (setBurner_reaches true)
  have hsettings : (setBurner true (setPump true s)).settings = s.settings := hlines.1 .settings (by decide)
  have hinputs : (setBurner true (setPump true s)).inputs = s.inputs := hlines.1 .inputs (by decide)
  obtain ⟨u, hu, hgrounds, hvalves⟩ := exists_entered_holding s
  simp only [Firing.grounds, Prod.mk.injEq] at hgrounds
  obtain ⟨-, -, -, -, -, -, -, -, hhold⟩ := hgrounds
  refine ⟨?_, releaseAnyHold_hold _, ?_⟩
  · rw [← hsettings, ← hinputs]
    exact (releaseAnyHold_entry _).trans (formHeating_entry _)
  · rw [hu, releaseAnyHold_latest, hhold, hvalves]

/-! ## The end of a run-on (R128) -/

/-- The run-on ends in the state selected after the hold set has gone. -/
theorem endOverrun_of_quiet (hbefore : selection s ≠ .firing) (hafter : selection (runOnEnded s) ≠ .firing) :
    endOverrun s = enterQuiet (selection (runOnEnded s)) (runOnEnded s) := by
  have houtputs := (runOnEnded_shows s).2
  simp only [Firing.outputs, Prod.mk.injEq] at houtputs
  obtain ⟨-, -, -, hstate, -⟩ := houtputs
  rw [endOverrun_eq, if_neg hbefore]
  unfold selectQuiet select
  rw [hstate, if_neg hafter]
  rcases selection_cases s with h | h | h | h
  · exact absurd h hbefore
  all_goals rw [h]

/-- What the end of a run-on without FIRING leaves: no hold set, no overrun timer, and a path-wait timer from 0 in WAIT_PATH
alone (R123, R128). -/
theorem endOverrun_leaves (hs : s.firing.state = .overrun) (hbefore : selection s ≠ .firing)
    (hafter : selection (runOnEnded s) ≠ .firing) :
    (endOverrun s).firing.hold = none ∧ (endOverrun s).valves.latestHold = 0 ∧ (endOverrun s).firing.overrun = none ∧
      (endOverrun s).firing.pathWait = (if selection (runOnEnded s) = .waitPath then some 0 else none) := by
  have hquiet := endOverrun_of_quiet hbefore hafter
  obtain ⟨hhold, hlatest⟩ := releaseHold_hold (setPump false s)
  refine ⟨by rw [hquiet]; exact hhold, by rw [hquiet]; exact hlatest, by rw [hquiet]; rfl, ?_⟩
  split
  · next hwaits =>
    have hstate : (endOverrun s).firing.state = .waitPath := by
      rw [hquiet]
      exact hwaits
    exact (endOverrun_waits s hstate).resolve_right fun hstay => by simp [hs] at hstay
  · next hnot =>
    rw [hquiet]
    exact if_neg hnot

theorem endOverrun_told (hs : s.firing.state ≠ .lockout) (hbefore : selection s ≠ .firing)
    (hafter : selection (runOnEnded s) ≠ .firing) : Told s (endOverrun s) := by
  obtain ⟨hraised, houtputs⟩ := endOverrun_shows hbefore hafter
  rw [told_iff houtputs, hraised]
  simp [hs, selection_ne_lockout]

theorem runOn_told (hs : s.firing.state ≠ .lockout) : Told s (runOn s) := by
  obtain ⟨hraised, houtputs, -⟩ := runOn_shows (s := s)
  rw [told_iff houtputs, hraised]
  simp [hs]

theorem runOnEnded_stands (s : State) : CallStands s (runOnEnded s) :=
  ((CallStands.of_grounds (setPump_grounds false s)).trans (releaseHold_stands _)).trans (.of_grounds rfl)

theorem callPresent_congr (h : t.firing.reasons = s.firing.reasons) : CallPresent t.firing ↔ CallPresent s.firing := by
  simp only [Firing.reasons, Prod.mk.injEq] at h
  obtain ⟨hdemand, hreport, hcall, -⟩ := h
  simp only [CallPresent, hdemand, hreport, hcall]

theorem firingAllowed_congr (hinputs : t.inputs = s.inputs) (h : t.firing.reasons = s.firing.reasons)
    (hminOff : t.firing.minOff = s.firing.minOff) : FiringAllowed t ↔ FiringAllowed s := by
  simp only [Firing.reasons, Prod.mk.injEq] at h
  obtain ⟨-, -, -, htext, hwire, hstatus⟩ := h
  simp only [FiringAllowed, hinputs, htext, hwire, hstatus, hminOff]

/-- Without a call the zones alone decide between IDLE and WAIT_PATH (R122). -/
theorem selection_of_uncalled (h : ¬CallPresent s.firing) :
    selection s = if s.firing.demand.calling = 0 then .idle else .waitPath := by
  split
  · next hcalling => exact (selection_idle_iff s).2 ⟨h, hcalling⟩
  · next hcalling => exact (selection_waitPath_iff s).2 (.inr ⟨h, hcalling⟩)

theorem runOnEnded_minOff (s : State) : (runOnEnded s).firing.minOff = s.firing.minOff := by
  have houtputs := (runOnEnded_shows s).2
  simp only [Firing.outputs, Prod.mk.injEq] at houtputs
  obtain ⟨-, -, -, -, -, -, -, hminOff⟩ := houtputs
  exact hminOff

/-- The run-on's end takes no call and no demand away. -/
theorem runOnEnded_selection_of_uncalled (h : ¬CallPresent s.firing) :
    selection (runOnEnded s) = selection s := by
  have hreasons := runOnEnded_reasons s
  have hdemand : (runOnEnded s).firing.demand = s.firing.demand := by
    simp only [Firing.reasons, Prod.mk.injEq] at hreasons
    exact hreasons.1
  rw [selection_of_uncalled ((callPresent_congr hreasons).not.2 h), selection_of_uncalled h, hdemand]

/-- Without an open path the release of a hold set opens none, where the call has the diverter (R139). -/
theorem runOnEnded_closed (hpath : s.firing.dhwPath = false) (hcall : s.firing.call = true → s.firing.diverter = true) :
    (runOnEnded s).firing.dhwPath = false := by
  cases hs : s.firing.call with
  | true => exact ((runOnEnded_stands s).path hs (hcall hs)).2.trans hpath
  | false =>
    let u : State := writeHold 0 (modFiring (fun f => { f with hold := none }) (setPump false s))
    have hu : u.firing = { s.firing with pump := false, hold := none } := by
      simp only [u, writeHold_fields, modFiring_fields, (setPump_spec s false).1]
    show (setDiverter u).firing.dhwPath = false
    unfold setDiverter
    dsimp only
    split
    · rwa [hu]
    · simp [hu, hs, Firing.diverterHeld]

end
end Sys2Proof.Machine

namespace Sys2Proof.Machine

section
variable {s t u : State}

/-! ## The min-on expiry (R126) -/

/-- The state as the min-on expiry is taken. -/
def minOnOver (s : State) : State := modFiring (fun f => { f with minOn := none }) (nothingRaised s)

/-- The state as the min-off expiry is taken (R127). -/
def minOffOver (s : State) : State := modFiring (fun f => { f with minOff := none }) (nothingRaised s)

/-- The state as the overrun expiry is taken (R128). -/
def overrunOver (s : State) : State := modFiring (fun f => { f with overrun := none }) (nothingRaised s)

theorem minOnBlock_of_running (h : s.firing.minOn.isSome = true) :
    minOnBlock (nothingRaised s) = settle (minOnOver s) := if_pos h

theorem minOffBlock_of_running (h : s.firing.minOff.isSome = true) :
    minOffBlock (nothingRaised s) = settle (minOffOver s) := if_pos h

theorem overrunBlock_of_running (hs : s.firing.state = .overrun) (h : s.firing.overrun.isSome = true) :
    overrunBlock (nothingRaised s) = endOverrun (overrunOver s) := if_pos ⟨hs, h⟩

theorem minOnOver_stops (h : s.firing.anyCall = false) : mustStop (minOnOver s) = true := by
  have hcall : (minOnOver s).firing.anyCall = false := h
  have htimer : (minOnOver s).firing.minOn = none := rfl
  simp [mustStop, hcall, htimer]

/-- The min-on expiry of a part under power. -/
theorem exec_minOnExpiry (hp : s.powered = true) (hruns : s.firing.minOn.isSome = true) :
    ∃ t, exec .minOnExpiry s = .next t ∧ Keeps [.firing, .valves, .links] s t ∧ OnlyHoldWritten s.valves t.valves ∧
      Taken s (settle (minOnOver s)) t := by
  have hblock := minOnBlock_of_running hruns
  have hreaches : Reaches (nothingRaised s) (settle (minOnOver s)) :=
    (modFiring_reaches _ (nothingRaised s)).andThen settle_reaches
  rw [← hblock] at hreaches ⊢
  exact event_of_passage hp hreaches

theorem exec_minOffExpiry (hp : s.powered = true) (hruns : s.firing.minOff.isSome = true) :
    ∃ t, exec .minOffExpiry s = .next t ∧ Keeps [.firing, .valves, .links] s t ∧ OnlyHoldWritten s.valves t.valves ∧
      Taken s (settle (minOffOver s)) t := by
  have hblock := minOffBlock_of_running hruns
  have hreaches : Reaches (nothingRaised s) (settle (minOffOver s)) :=
    (modFiring_reaches _ (nothingRaised s)).andThen settle_reaches
  rw [← hblock] at hreaches ⊢
  exact event_of_passage hp hreaches

theorem exec_overrunExpiry (hp : s.powered = true) (hs : s.firing.state = .overrun)
    (hruns : s.firing.overrun.isSome = true) :
    ∃ t, exec .overrunExpiry s = .next t ∧ Keeps [.firing, .valves, .links] s t ∧ OnlyHoldWritten s.valves t.valves ∧
      Taken s (endOverrun (overrunOver s)) t := by
  have hblock := overrunBlock_of_running hs hruns
  have hreaches : Reaches (nothingRaised s) (endOverrun (overrunOver s)) :=
    (modFiring_reaches _ (nothingRaised s)).andThen endOverrun_reaches
  rw [← hblock] at hreaches ⊢
  exact event_of_passage hp hreaches

/-- With no call and an overrun setting the run-on begins (R126, R128). -/
theorem minOn_runsOn (hp : s.powered = true) (hs : s.firing.state = .firing) (hruns : s.firing.minOn.isSome = true)
    (hcall : s.firing.anyCall = false) (hoverrun : 0 < s.settings.firing.overrun) :
    ∃ t, exec .minOnExpiry s = .next t ∧ Keeps [.firing, .valves, .links] s t ∧
      OnlyHoldWritten s.valves t.valves ∧ t.firing.state = .overrun ∧ t.firing.burner = false ∧
      t.firing.pump = s.firing.pump ∧ t.firing.overrun = some s.settings.firing.overrun ∧
      (s.settings.firing.bypass = false → HoldInForce t
        (FixedHold s.settings.firing.fallbackChannel s.valves.channels s.firing.diverter) s.firing.diverter) ∧
      t.firing.minOff = (if s.settings.firing.minOff = 0 then none else some s.settings.firing.minOff) ∧
      ChangesTaken s t := by
  obtain ⟨t, ht, hkeeps, hvalves, htaken⟩ := exec_minOnExpiry hp hruns
  have hruns' : settle (minOnOver s) = runOn (minOnOver s) := settle_runsOn hs (minOnOver_stops hcall) hoverrun
  obtain ⟨-, houtputs, htimer⟩ := runOn_shows (s := minOnOver s)
  rw [hruns'] at htaken
  rw [← htaken.firing] at houtputs htimer
  simp only [Firing.outputs, Prod.mk.injEq] at houtputs
  obtain ⟨hburner, hpump, -, hstate, -, -, -, hminOff⟩ := houtputs
  refine ⟨t, ht, hkeeps, hvalves, hstate, hburner, hpump, htimer.trans (if_neg (Nat.ne_of_gt hoverrun)), fun hbypass => ?_,
    hminOff, htaken.changes ?_⟩
  · exact (runOn_inForce (s := minOnOver s) hbypass).congr (by rw [htaken.firing]) (by rw [htaken.valves])
  · have hnot : (minOnOver s).firing.state ≠ .lockout := by
      show s.firing.state ≠ .lockout
      simp [hs]
    exact runOn_told hnot

/-- Without a call the run-on and its end leave none (R122). -/
theorem minOnOver_uncalled (hcall : s.firing.anyCall = false) : ¬CallPresent (runOn (minOnOver s)).firing := by
  have hreasons := (runOn_reasons (s := minOnOver s)).1
  rw [callPresent_congr hreasons, ← anyCall_iff]
  exact Bool.eq_false_iff.1 hcall

/-- With no call and an overrun setting of 0 the run-on ends at once (R126, R128). -/
theorem minOn_ends (hp : s.powered = true) (hs : s.firing.state = .firing) (hruns : s.firing.minOn.isSome = true)
    (hcall : s.firing.anyCall = false) (hoverrun : s.settings.firing.overrun = 0) :
    ∃ t, exec .minOnExpiry s = .next t ∧ Keeps [.firing, .valves, .links] s t ∧
      OnlyHoldWritten s.valves t.valves ∧ t.valves.latestHold = 0 ∧
      (s.firing.demand.calling = 0 → t.firing.state = .idle) ∧
      (s.firing.demand.calling ≠ 0 → t.firing.state = .waitPath ∧ t.firing.pathWait = some 0) ∧
      t.firing.burner = false ∧ t.firing.pump = false ∧ t.firing.hold = none ∧ t.firing.overrun = none ∧
      t.firing.minOff = (if s.settings.firing.minOff = 0 then none else some s.settings.firing.minOff) ∧
      ChangesTaken s t := by
  obtain ⟨t, ht, hkeeps, hvalves, htaken⟩ := exec_minOnExpiry hp hruns
  have huncalled := minOnOver_uncalled hcall
  have hsame := runOnEnded_selection_of_uncalled huncalled
  have hselected := selection_of_uncalled huncalled
  have hdemand : (runOn (minOnOver s)).firing.demand = s.firing.demand := by
    have hreasons := (runOn_reasons (s := minOnOver s)).1
    simp only [Firing.reasons, Prod.mk.injEq] at hreasons
    exact hreasons.1
  rw [hdemand] at hselected
  have hbefore : selection (runOn (minOnOver s)) ≠ .firing := by
    rw [hselected]
    split <;> decide
  have hended : Barred (runOnEnded (runOn (minOnOver s))) := by
    refine .inl ?_
    rw [Bool.eq_false_iff, ne_eq, anyCall_iff, callPresent_congr (runOnEnded_reasons _)]
    exact huncalled
  obtain ⟨hsettled, hraised, houtputs⟩ := stop_ends (s := minOnOver s) hs (minOnOver_stops hcall) hoverrun hended
  have hran : (runOn (minOnOver s)).firing.state = .overrun := startOverrun_state _
  obtain ⟨hhold, hlatest, htimer, hwait⟩ := endOverrun_leaves hran hbefore hended.selection_ne
  rw [← hsettled, ← htaken.firing] at hhold htimer hwait
  rw [← hsettled, ← htaken.valves] at hlatest
  rw [hsame, hselected] at hwait houtputs
  have htold : Told (nothingRaised s) (settle (minOnOver s)) := by
    rw [told_iff houtputs, hraised]
    split <;> simp [hs, minOnOver, nothingRaised, setRaised]
  rw [← htaken.firing] at houtputs
  simp only [Firing.outputs, Prod.mk.injEq] at houtputs
  obtain ⟨hburner, hpump, -, hstate, -, -, -, hminOff⟩ := houtputs
  refine ⟨t, ht, hkeeps, hvalves, hlatest, fun hcalling => ?_, fun hcalling => ?_, hburner, hpump, hhold, htimer, hminOff,
    htaken.changes htold⟩
  · rw [hstate, if_pos hcalling]
  · rw [if_neg hcalling] at hstate hwait
    exact ⟨hstate, hwait.trans (if_pos rfl)⟩

/-- With a call FIRING stands (R126). -/
theorem minOn_stands (hp : s.powered = true) (hs : s.firing.state = .firing) (hruns : s.firing.minOn.isSome = true)
    (hcall : CallPresent s.firing) (hpath : PathPresent s.firing) (hfree : unobstructed s = true) :
    ∃ t, exec .minOnExpiry s = .next t ∧ Keeps [.firing] s t ∧ t.firing = { s.firing with minOn := none } := by
  have hstays : mustStop (minOnOver s) = false := by
    have hcall' : (minOnOver s).firing.anyCall = true := (anyCall_iff _).2 hcall
    have hpath' : (minOnOver s).firing.pathExists = true := (pathExists_iff _).2 hpath
    have hfree' : unobstructed (minOnOver s) = true := hfree
    simp [mustStop, hcall', hpath', hfree']
  have hsame : settle (minOnOver s) = minOnOver s := by
    have hs' : (minOnOver s).firing.state = .firing := hs
    simp [settle, hs', hstays]
  exact ⟨_, event_of_quiet (block := minOnBlock) (f := fun f => { f with minOn := none }) hp
    ((minOnBlock_of_running hruns).trans hsame), modFiring_keeps _ _, rfl⟩

/-! ## The min-off expiry (R119, R127) -/

theorem settle_of_overrun (hs : s.firing.state = .overrun) (hselected : selection s = .firing) :
    settle s = enterFiring s := by
  rw [settle, hs]
  exact if_pos hselected

/-- The min-off expiry gives FIRING where nothing else withholds it (R124, R127). -/
theorem minOff_fires (hp : s.powered = true) (hs : s.firing.state = .blocked ∨ s.firing.state = .overrun)
    (hruns : s.firing.minOff.isSome = true) (hselected : selection (minOffOver s) = .firing) :
    ∃ t, exec .minOffExpiry s = .next t ∧ Keeps [.firing, .valves, .links] s t ∧
      OnlyHoldWritten s.valves t.valves ∧ t.firing.state = .firing ∧ t.firing.burner = true ∧
      t.firing.pump = true ∧ t.firing.minOff = none ∧ t.firing.overrun = none ∧ t.firing.pathWait = none ∧
      t.firing.hold = none ∧
      t.valves.latestHold = (if s.firing.hold.isSome then 0 else s.valves.latestHold) ∧
      t.firing.minOn = (if s.settings.firing.minOn = 0 then none else some s.settings.firing.minOn) ∧
      t.firing.ceiling = some (s.settings.firing.fmin + 200) ∧
      t.firing.flameWait = (if s.inputs.flame then none else some 0) ∧ ChangesTaken s t := by
  obtain ⟨t, ht, hkeeps, hvalves, htaken⟩ := exec_minOffExpiry hp hruns
  have hfires : settle (minOffOver s) = enterFiring (minOffOver s) :=
    hs.elim (fun h => settle_of_blocked (s := minOffOver s) h hselected) fun h =>
      settle_of_overrun (s := minOffOver s) h hselected
  have hnot : (minOffOver s).firing.state ≠ .lockout := by
    show s.firing.state ≠ .lockout
    rcases hs with h | h <;> simp [h]
  rw [hfires] at htaken
  obtain ⟨hentry, hhold, hlatest⟩ := enterFiring_spec (minOffOver s)
  have houtputs := (enterFiring_shows (minOffOver s)).2
  have hwait := enterFiring_wait (minOffOver s)
  rw [← htaken.firing] at hentry hhold houtputs hwait
  simp only [Firing.entry, Prod.mk.injEq] at hentry
  simp only [Firing.outputs, Prod.mk.injEq] at houtputs
  simp only [Firing.wait, Prod.mk.injEq] at hwait
  obtain ⟨hminOn, hflame, htimer, hceiling⟩ := hentry
  obtain ⟨hburner, hpump, -, hstate, -, -, -, hminOff⟩ := houtputs
  exact ⟨t, ht, hkeeps, hvalves, hstate, hburner, hpump, hminOff, htimer, hwait.2, hhold, by rw [htaken.valves]; exact hlatest,
    hminOn, hceiling, hflame, htaken.changes (enterFiring_told hnot)⟩

/-- A quiet state entered again as it stands. -/
theorem enterQuiet_same {k : FiringState} (hs : s.firing.state = k) (hoverrun : s.firing.overrun = none)
    (hwait : k ≠ .waitPath → s.firing.pathWait = none) : enterQuiet k s = s := by
  have htimer : (if k = .waitPath then (if s.firing.state = .waitPath then s.firing.pathWait else some 0) else none) =
      s.firing.pathWait := by
    split
    · next h => rw [if_pos (hs.trans h)]
    · next h => exact (hwait h).symm
  unfold enterQuiet modFiring
  simp only [htimer]
  subst hs
  rw [← hoverrun]

end
end Sys2Proof.Machine

namespace Sys2Proof.Machine

section
variable {s t u : State}

/-- What withholds FIRING apart from the min-off timer withholds it after its expiry too (R122). -/
theorem minOffOver_withheld (h : ¬(CallPresent s.firing ∧ PathPresent s.firing ∧ s.inputs.interlock = true ∧
      s.firing.inhibitText = false ∧ s.firing.inhibitWire = false ∧ s.firing.flowStatus ≠ .invalid)) :
    selection (minOffOver s) ≠ .firing := by
  intro hselected
  obtain ⟨hcall, hpath, hallowed⟩ := (selection_firing_iff _).1 hselected
  have hfree : unobstructed (minOffOver s) = true := (Bool.and_eq_true _ _ ▸ (permitted_iff _).2 hallowed).1
  obtain ⟨hinterlock, htext, hwire, hstatus⟩ := (unobstructed_iff _).1 hfree
  exact h ⟨hcall, hpath, hinterlock, htext, hwire, hstatus⟩

/-- A quiet state that the table has stays selected after the min-off expiry where FIRING is withheld (R122, R127). -/
theorem minOffOver_selected (h : Selected s)
    (hs : s.firing.state = .idle ∨ s.firing.state = .waitPath ∨ s.firing.state = .blocked)
    (hnot : selection (minOffOver s) ≠ .firing) : selection (minOffOver s) = s.firing.state := by
  rcases hs with hs | hs | hs
  · rw [hs]
    exact (selection_idle_iff _).2 (h.idle hs)
  · rw [hs]
    exact (selection_waitPath_iff _).2 (h.waitPath hs)
  · obtain ⟨hcall, hpath, -⟩ := h.blocked hs
    rw [hs]
    refine (selection_blocked_iff _).2 ⟨hcall, hpath, fun hallowed => hnot ?_⟩
    exact (selection_firing_iff _).2 ⟨hcall, hpath, hallowed⟩

/-- The min-off expiry changes nothing else where something else withholds FIRING, and in LOCKOUT (R127). -/
theorem minOff_stands (hp : s.powered = true) (hruns : s.firing.minOff.isSome = true)
    (hsame : settle (minOffOver s) = minOffOver s) :
    ∃ t, exec .minOffExpiry s = .next t ∧ Keeps [.firing] s t ∧ t.firing = { s.firing with minOff := none } :=
  ⟨_, event_of_quiet (block := minOffBlock) (f := fun f => { f with minOff := none }) hp
    ((minOffBlock_of_running hruns).trans hsame), modFiring_keeps _ _, rfl⟩

theorem minOffOver_settled_of_quiet (h : Selected s) (hoverrun : s.firing.overrun = none)
    (hwait : s.firing.state ≠ .waitPath → s.firing.pathWait = none)
    (hs : s.firing.state = .idle ∨ s.firing.state = .waitPath ∨ s.firing.state = .blocked)
    (hnot : selection (minOffOver s) ≠ .firing) : settle (minOffOver s) = minOffOver s := by
  have hselected := minOffOver_selected h hs hnot
  rw [settle_of_quiet (s := minOffOver s) hs, select, if_neg hnot, hselected]
  exact enterQuiet_same (s := minOffOver s) rfl hoverrun hwait

theorem minOffOver_settled_of_overrun (hs : s.firing.state = .overrun) (hnot : selection (minOffOver s) ≠ .firing) :
    settle (minOffOver s) = minOffOver s := by
  have hs' : (minOffOver s).firing.state = .overrun := hs
  rw [settle, hs']
  exact if_neg hnot

/-! ## The overrun expiry (R128) -/

theorem overrunOver_state (hs : s.firing.state = .overrun) : (overrunOver s).firing.state = .overrun := hs

theorem overrunOver_unlocked (hs : s.firing.state = .overrun) : (overrunOver s).firing.state ≠ .lockout := by
  rw [overrunOver_state hs]
  decide

/-- The end of a run-on in a quiet state: what it leaves and what it tells (R121 to R123, R128). -/
theorem overrun_ends (hp : s.powered = true) (hs : s.firing.state = .overrun) (hruns : s.firing.overrun.isSome = true)
    (hbefore : selection (overrunOver s) ≠ .firing) (hafter : selection (runOnEnded (overrunOver s)) ≠ .firing) :
    ∃ t, exec .overrunExpiry s = .next t ∧ Keeps [.firing, .valves, .links] s t ∧ OnlyHoldWritten s.valves t.valves ∧
      t.valves.latestHold = 0 ∧ t.firing.state = selection (runOnEnded (overrunOver s)) ∧
      t.firing.pathWait = (if selection (runOnEnded (overrunOver s)) = .waitPath then some 0 else none) ∧
      t.firing.burner = s.firing.burner ∧ t.firing.pump = false ∧ t.firing.hold = none ∧ t.firing.overrun = none ∧
      t.firing.minOff = s.firing.minOff ∧ t.firing.diverter = (runOnEnded (overrunOver s)).firing.diverter ∧
      ChangesTaken s t := by
  obtain ⟨t, ht, hkeeps, hvalves, htaken⟩ := exec_overrunExpiry hp hs hruns
  have htold : Told (nothingRaised s) (endOverrun (overrunOver s)) :=
    endOverrun_told (overrunOver_unlocked hs) hbefore hafter
  have houtputs := (endOverrun_shows hbefore hafter).2
  obtain ⟨hhold, hlatest, htimer, hwait⟩ := endOverrun_leaves (overrunOver_state hs) hbefore hafter
  have hquiet := endOverrun_of_quiet hbefore hafter
  rw [← htaken.firing] at houtputs hhold htimer hwait
  rw [← htaken.valves] at hlatest
  simp only [Firing.outputs, Prod.mk.injEq] at houtputs
  obtain ⟨hburner, hpump, -, hstate, -, -, -, hminOff⟩ := houtputs
  refine ⟨t, ht, hkeeps, hvalves, hlatest, hstate, hwait, hburner, hpump, hhold, htimer, hminOff, ?_, htaken.changes htold⟩
  rw [htaken.firing, hquiet]
  rfl

/-- A run-on that ends with a call, a path and permission goes to FIRING with the pump left ON (R122, R124, R128). -/
theorem overrun_fires (hp : s.powered = true) (hs : s.firing.state = .overrun) (hruns : s.firing.overrun.isSome = true)
    (hselected : selection (overrunOver s) = .firing) :
    ∃ t, exec .overrunExpiry s = .next t ∧ Keeps [.firing, .valves, .links] s t ∧ OnlyHoldWritten s.valves t.valves ∧
      t.firing.overrun = none ∧ t.firing.pathWait = none ∧ t.firing.hold = none ∧ t.firing.minOff = s.firing.minOff ∧
      ChangesTaken s t ∧ t.firing.state = .firing ∧ t.firing.burner = true ∧ t.firing.pump = true ∧
      t.valves.latestHold = (if s.firing.hold.isSome then 0 else s.valves.latestHold) ∧
      t.firing.minOn = (if s.settings.firing.minOn = 0 then none else some s.settings.firing.minOn) ∧
      t.firing.ceiling = some (s.settings.firing.fmin + 200) ∧
      t.firing.flameWait = (if s.inputs.flame then none else some 0) := by
  obtain ⟨t, ht, hkeeps, hvalves, htaken⟩ := exec_overrunExpiry hp hs hruns
  have hfires : endOverrun (overrunOver s) = enterFiring (overrunOver s) := by rw [endOverrun_eq, if_pos hselected]
  rw [hfires] at htaken
  have htold : Told (nothingRaised s) (enterFiring (overrunOver s)) := enterFiring_told (overrunOver_unlocked hs)
  obtain ⟨hentry, hhold, hlatest⟩ := enterFiring_spec (overrunOver s)
  have houtputs := (enterFiring_shows (overrunOver s)).2
  have hwait := enterFiring_wait (overrunOver s)
  rw [← htaken.firing] at hentry hhold houtputs hwait
  simp only [Firing.entry, Prod.mk.injEq] at hentry
  simp only [Firing.outputs, Prod.mk.injEq] at houtputs
  simp only [Firing.wait, Prod.mk.injEq] at hwait
  obtain ⟨hminOn, hflame, htimer, hceiling⟩ := hentry
  obtain ⟨hburner, hpump, -, hstate, -, -, -, hminOff⟩ := houtputs
  exact ⟨t, ht, hkeeps, hvalves, htimer, hwait.2, hhold, hminOff, htaken.changes htold, hstate, hburner, hpump,
    by rw [htaken.valves]; exact hlatest, hminOn, hceiling, hflame⟩

/-- With no call the run-on ends in IDLE or WAIT_PATH with the diverter OFF (R122, R128, R139). -/
theorem overrun_uncalled (hp : s.powered = true) (hs : s.firing.state = .overrun) (hruns : s.firing.overrun.isSome = true)
    (hany : s.firing.anyCall = false) (hcall : s.firing.call = false) :
    ∃ t, exec .overrunExpiry s = .next t ∧ Keeps [.firing, .valves, .links] s t ∧
      OnlyHoldWritten s.valves t.valves ∧ t.valves.latestHold = 0 ∧
      (s.firing.demand.calling = 0 → t.firing.state = .idle) ∧
      (s.firing.demand.calling ≠ 0 → t.firing.state = .waitPath ∧ t.firing.pathWait = some 0) ∧
      t.firing.pump = false ∧ t.firing.hold = none ∧ t.firing.diverter = false ∧ t.firing.overrun = none ∧
      ChangesTaken s t := by
  have huncalled : ¬CallPresent (overrunOver s).firing := by
    rw [← anyCall_iff]
    exact Bool.eq_false_iff.1 hany
  have hselected : selection (overrunOver s) = if s.firing.demand.calling = 0 then .idle else .waitPath :=
    selection_of_uncalled huncalled
  have hafter : selection (runOnEnded (overrunOver s)) = if s.firing.demand.calling = 0 then .idle else .waitPath :=
    (runOnEnded_selection_of_uncalled huncalled).trans hselected
  have hquiet : (if s.firing.demand.calling = 0 then FiringState.idle else .waitPath) ≠ .firing := by
    split <;> decide
  obtain ⟨t, ht, hkeeps, hvalves, hlatest, hstate, hwait, -, hpump, hhold, htimer, -, hdiverter, hchanges⟩ :=
    overrun_ends hp hs hruns (by rw [hselected]; exact hquiet) (by rw [hafter]; exact hquiet)
  have hoff : (releaseHold (setPump false (overrunOver s))).firing.DiverterOff := by
    refine setDiverter_off _ ?_ rfl
    show (setPump false (overrunOver s)).firing.call = false
    rw [(setPump_spec _ _).1]
    exact hcall
  rw [hafter] at hstate hwait
  refine ⟨t, ht, hkeeps, hvalves, hlatest, fun hcalling => ?_, fun hcalling => ?_, hpump, hhold,
    hdiverter.trans hoff.diverter, htimer, hchanges⟩
  · rw [hstate, if_pos hcalling]
  · rw [if_neg hcalling] at hstate hwait
    exact ⟨hstate, hwait.trans (if_pos rfl)⟩

/-- A path that neither the hold set nor its release takes away (R129, R139). -/
theorem runOnEnded_pathPresent (h : s.firing.report.path ≠ 0 ∨
      (s.firing.call = true ∧ s.firing.diverter = true ∧ s.firing.dhwPath = true)) :
    PathPresent (runOnEnded s).firing := by
  have hreasons := runOnEnded_reasons s
  simp only [Firing.reasons, Prod.mk.injEq] at hreasons
  obtain ⟨-, hreport, -⟩ := hreasons
  rcases h with hchannels | ⟨hcall, hon, hwater⟩
  · exact .inl (by rwa [hreport])
  · exact .inr (((runOnEnded_stands s).path hcall hon).2.trans hwater)

/-- With a call and a path the run-on's end goes to FIRING, or to BLOCKED without permission (R122, R128). -/
theorem overrun_called (hp : s.powered = true) (hs : s.firing.state = .overrun) (hruns : s.firing.overrun.isSome = true)
    (hcall : CallPresent s.firing) (hpath : s.firing.report.path ≠ 0 ∨
      (s.firing.call = true ∧ s.firing.diverter = true ∧ s.firing.dhwPath = true)) :
    ∃ t, exec .overrunExpiry s = .next t ∧ Keeps [.firing, .valves, .links] s t ∧
      OnlyHoldWritten s.valves t.valves ∧ t.firing.overrun = none ∧ t.firing.pathWait = none ∧
      t.firing.hold = none ∧ t.firing.minOff = s.firing.minOff ∧ ChangesTaken s t ∧
      (FiringAllowed s → t.firing.state = .firing ∧ t.firing.burner = true ∧ t.firing.pump = true ∧
        t.valves.latestHold = (if s.firing.hold.isSome then 0 else s.valves.latestHold) ∧
        t.firing.minOn = (if s.settings.firing.minOn = 0 then none else some s.settings.firing.minOn) ∧
        t.firing.ceiling = some (s.settings.firing.fmin + 200) ∧
        t.firing.flameWait = (if s.inputs.flame then none else some 0)) ∧
      (¬FiringAllowed s → t.firing.state = .blocked ∧ t.firing.burner = s.firing.burner ∧ t.firing.pump = false ∧
        t.valves.latestHold = 0) := by
  have hpathed : PathPresent (overrunOver s).firing := hpath.imp_right fun ⟨_, _, hopen⟩ => hopen
  by_cases hallowed : FiringAllowed s
  · obtain ⟨t, ht, hkeeps, hvalves, htimer, hwait, hhold, hminOff, hchanges, hfired⟩ := overrun_fires hp hs hruns
      ((selection_firing_iff _).2 ⟨hcall, hpathed, hallowed⟩)
    exact ⟨t, ht, hkeeps, hvalves, htimer, hwait, hhold, hminOff, hchanges, fun _ => hfired, fun h => absurd hallowed h⟩
  · have hbefore : selection (overrunOver s) = .blocked := (selection_blocked_iff _).2 ⟨hcall, hpathed, hallowed⟩
    have hreasons := runOnEnded_reasons (overrunOver s)
    have hafter : selection (runOnEnded (overrunOver s)) = .blocked := by
      refine (selection_blocked_iff _).2 ⟨(callPresent_congr hreasons).2 hcall,
        runOnEnded_pathPresent (s := overrunOver s) hpath, ?_⟩
      rw [firingAllowed_congr (runOnEnded_inputs _) hreasons (runOnEnded_minOff _)]
      exact hallowed
    obtain ⟨t, ht, hkeeps, hvalves, hlatest, hstate, hwait, hburner, hpump, hhold, htimer, hminOff, -, hchanges⟩ :=
      overrun_ends hp hs hruns (by rw [hbefore]; decide) (by rw [hafter]; decide)
    rw [hafter] at hstate hwait
    exact ⟨t, ht, hkeeps, hvalves, htimer, hwait, hhold, hminOff, hchanges, fun h => absurd h hallowed,
      fun _ => ⟨hstate, hburner, hpump, hlatest⟩⟩

/-- With a call but no path the run-on's end goes to WAIT_PATH (R122, R123, R128). -/
theorem overrun_unpathed (hp : s.powered = true) (hs : s.firing.state = .overrun) (hruns : s.firing.overrun.isSome = true)
    (hcall : CallPresent s.firing) (hchannels : s.firing.report.path = 0) (hpath : s.firing.dhwPath = false)
    (hdiverter : s.firing.call = true → s.firing.diverter = true) :
    ∃ t, exec .overrunExpiry s = .next t ∧ Keeps [.firing, .valves, .links] s t ∧
      OnlyHoldWritten s.valves t.valves ∧ t.valves.latestHold = 0 ∧ t.firing.state = .waitPath ∧
      t.firing.pathWait = some 0 ∧ t.firing.burner = s.firing.burner ∧ t.firing.pump = false ∧
      t.firing.hold = none ∧ t.firing.overrun = none ∧ t.firing.minOff = s.firing.minOff ∧ ChangesTaken s t := by
  have hreasons := runOnEnded_reasons (overrunOver s)
  have hbefore : selection (overrunOver s) = .waitPath := by
    refine (selection_waitPath_iff _).2 (.inl ⟨hcall, ?_⟩)
    rintro (h | h)
    · exact h hchannels
    · exact absurd (h.symm.trans hpath) (by decide)
  have hafter : selection (runOnEnded (overrunOver s)) = .waitPath := by
    have hreport : (runOnEnded (overrunOver s)).firing.report.path = 0 := by
      simp only [Firing.reasons, Prod.mk.injEq] at hreasons
      obtain ⟨-, hkept, -⟩ := hreasons
      rw [hkept]
      exact hchannels
    refine (selection_waitPath_iff _).2 (.inl ⟨(callPresent_congr hreasons).2 hcall, ?_⟩)
    rintro (h | h)
    · exact h hreport
    · exact absurd (h.symm.trans (runOnEnded_closed (s := overrunOver s) hpath hdiverter)) (by decide)
  obtain ⟨t, ht, hkeeps, hvalves, hlatest, hstate, hwait, hburner, hpump, hhold, htimer, hminOff, -, hchanges⟩ :=
    overrun_ends hp hs hruns (by rw [hbefore]; decide) (by rw [hafter]; decide)
  rw [hafter] at hstate hwait
  exact ⟨t, ht, hkeeps, hvalves, hlatest, hstate, hwait, hburner, hpump, hhold, htimer, hminOff, hchanges⟩

/-- Settles O44: each expiry by where it leads. -/
theorem firingTimersExpire : Obligations.FiringTimersExpire := by
  intro s hp
  refine ⟨fun hs hruns hcall _ hoverrun => minOn_runsOn hp hs hruns hcall hoverrun, fun hs => minOn_ends hp hs,
    fun hs hruns hcall hpath hinterlock htext hwire hstatus => ?_,
    fun hs hruns hany hpath hinterlock htext hwire hstatus => ?_, fun hruns hrests => ?_,
    fun hs => overrun_uncalled hp hs, fun hs => overrun_called hp hs, fun hs => overrun_unpathed hp hs⟩
  · exact minOn_stands hp hs hruns hcall hpath ((unobstructed_iff s).2 ⟨hinterlock, htext, hwire, hstatus⟩)
  · exact minOff_fires hp hs hruns
      (settle_of_selected (s := minOffOver s) hany hpath hinterlock htext hwire hstatus rfl)
  · refine minOff_stands hp hruns ?_
    rcases hrests with hlockout | ⟨hover | ⟨hselected, hoverrun, hwait, hquiet⟩, hwithheld⟩
    · exact settle_of_lockout hlockout
    · exact minOffOver_settled_of_overrun hover (minOffOver_withheld hwithheld)
    · exact minOffOver_settled_of_quiet hselected hoverrun hwait hquiet (minOffOver_withheld hwithheld)

end
end Sys2Proof.Machine
